-- ==== Sys2Proof/Word.lean ====
section
/-!
DEFINITION. The words of the machine.
-/
namespace Sys2Proof

/-- A 64-bit scalar register value (08 R164). -/
abbrev Word := BitVec 64

/-- A 512-bit vector register or data-track word: 16 lanes of 32 bits (00 R4). -/
abbrev Vec := BitVec 512

/-- A byte. -/
abbrev Byte := BitVec 8

end Sys2Proof
end

