-- ==== Sys2Proof/Syntax.lean ====
section
/-!
DEFINITION. The abstract syntax: one constructor per row of spec/opcode_table.json.

Core instructions (08 R170) and switch words (13 R290) carry the fields of their encoding, in descending bit order and
under the table's field names (`g` the guard, `d` `a` `b` `c` register fields, `m` a mask, `t` a token or a type). A row
without an encoding is a step that hardware or the host takes: it is never decoded, stands in `State.agenda` with the operands its docstring
lists, and finds them in `State.arg` (log entry 3).
-/
namespace Sys2Proof

/-- A management command: its OP, the SEQ of its doorbell write, the PART byte and Q0 to Q30 (22 R395, Table 22-1). -/
structure MgmtCmd where
  op : BitVec 16
  seq : BitVec 32
  part : BitVec 8
  q : List Word
  deriving DecidableEq, Repr

/-- One access by the host to an aperture or a region: write or read, offset, size in bytes, and the bytes written, lowest first (22 R408). -/
structure HostAccess where
  write : Bool
  off : Nat
  size : Nat
  data : List Byte
  deriving DecidableEq, Repr

/-- The checkpoint extent list in host memory, without the entry of length 0 that ends it: bus addresses and lengths (23 R420). -/
structure CkList where
  entries : List (Nat × Nat)
  deriving DecidableEq, Repr

/-- Addresses and lengths are multiples of 4,096. -/
def CkList.wellFormed (l : CkList) : Bool := l.entries.all (fun e => e.1 % 4096 == 0 && e.2 % 4096 == 0)

/-- Bytes of all extents. -/
def CkList.total (l : CkList) : Nat := (l.entries.map (·.2)).foldl (· + ·) 0

/-- What a lost flit carried, the rows of Table 21-6 (21 R388). -/
inductive LostFlit where
  /-- the `n` static words that have last entered the input buffer `code` of the switch at `pos` -/
  | staticWords (pos code n : Nat)
  /-- data of the line at physical line address `line` on its way to its home: a store or a write-back -/
  | lineData (line : Nat)
  /-- data of the line on its way to the remote-data cache of a die: the reply to its request -/
  | lineReply (die line : Nat)
  /-- a coherence message without data, of kind `code` of Table 21-7, naming `line` -/
  | coherence (line code : Nat)
  /-- the task message at index `msg` of the task network -/
  | taskMessage (msg : Nat)
  /-- the reply at index `n` of those on their way to a slot -/
  | reply (pos slot n : Nat)
  /-- a beat that fills 64-byte unit `unit` of the scratch of the tile at `pos` -/
  | scratchBeat (pos unit : Nat)
  /-- the operand of the atomic with number `id` of a slot -/
  | atomicOperand (pos slot id : Nat)
  /-- a beat or control word of the collective on group `group` of partition `part` from the member of rank `rank` -/
  | collective (part group rank : Nat)
  /-- a control word of the launch record at index `i` of queue `queue` of partition `part` -/
  | launch (part queue i : Nat)
  deriving DecidableEq, Repr

/-- The operands of a row without an encoding. -/
inductive Arg where
  | none
  /-- one number: a position, a line, a berth, a partition ... -/
  | one (a : Nat)
  | two (a b : Nat)
  | three (a b c : Nat)
  /-- the value written to a CSR -/
  | value (x : Word)
  /-- a read or write of a CSR that drains on both -/
  | access (wr : Bool) (x : Word)
  | csr (idx : BitVec 12) (x : Word)
  | mgmt (c : MgmtCmd)
  | host (vf : Nat) (h : HostAccess)
  /-- an access of the host to a region of registers, of a virtual function where the row is one's -/
  | region (vf : Nat) (h : HostAccess)
  | flit (die : Nat) (headerRecovered : Bool) (f : LostFlit)
  | ckList (l : CkList)
  | flag (b : Bool)
  deriving DecidableEq, Repr

/-- One constructor per row of spec/opcode_table.json. -/
inductive Instr where
  /-- ADD (R194): Adds two s registers modulo 2^64. -/
  | add (g : BitVec 3) (d : BitVec 5) (a : BitVec 5) (b : BitVec 5)
  /-- SUB (R194): Subtracts rb from ra modulo 2^64. -/
  | sub (g : BitVec 3) (d : BitVec 5) (a : BitVec 5) (b : BitVec 5)
  /-- AND (R194): Bitwise AND of two s registers. -/
  | and (g : BitVec 3) (d : BitVec 5) (a : BitVec 5) (b : BitVec 5)
  /-- OR (R194): Bitwise OR of two s registers. -/
  | or (g : BitVec 3) (d : BitVec 5) (a : BitVec 5) (b : BitVec 5)
  /-- XOR (R194): Bitwise XOR of two s registers. -/
  | xor (g : BitVec 3) (d : BitVec 5) (a : BitVec 5) (b : BitVec 5)
  /-- ANDN (R194): ra AND NOT rb. -/
  | andn (g : BitVec 3) (d : BitVec 5) (a : BitVec 5) (b : BitVec 5)
  /-- SLL (R194): Logical left shift by bits [5:0] of rb. -/
  | sll (g : BitVec 3) (d : BitVec 5) (a : BitVec 5) (b : BitVec 5)
  /-- SRL (R194): Logical right shift by bits [5:0] of rb. -/
  | srl (g : BitVec 3) (d : BitVec 5) (a : BitVec 5) (b : BitVec 5)
  /-- SRA (R194): Arithmetic right shift by bits [5:0] of rb. -/
  | sra (g : BitVec 3) (d : BitVec 5) (a : BitVec 5) (b : BitVec 5)
  /-- MIN (R194): Signed minimum. -/
  | min (g : BitVec 3) (d : BitVec 5) (a : BitVec 5) (b : BitVec 5)
  /-- MAX (R194): Signed maximum. -/
  | max (g : BitVec 3) (d : BitVec 5) (a : BitVec 5) (b : BitVec 5)
  /-- MINU (R194): Unsigned minimum. -/
  | minu (g : BitVec 3) (d : BitVec 5) (a : BitVec 5) (b : BitVec 5)
  /-- MAXU (R194): Unsigned maximum. -/
  | maxu (g : BitVec 3) (d : BitVec 5) (a : BitVec 5) (b : BitVec 5)
  /-- MUL (R194): Low 64 bits of the signed product. -/
  | mul (g : BitVec 3) (d : BitVec 5) (a : BitVec 5) (b : BitVec 5)
  /-- MULH (R194): High 64 bits of the signed 128-bit product. -/
  | mulh (g : BitVec 3) (d : BitVec 5) (a : BitVec 5) (b : BitVec 5)
  /-- MULHU (R194): High 64 bits of the unsigned product. -/
  | mulhu (g : BitVec 3) (d : BitVec 5) (a : BitVec 5) (b : BitVec 5)
  /-- DIV (R196): Signed division truncating toward zero, never trapping. -/
  | div (g : BitVec 3) (d : BitVec 5) (a : BitVec 5) (b : BitVec 5)
  /-- DIVU (R196): Unsigned division, never trapping. -/
  | divu (g : BitVec 3) (d : BitVec 5) (a : BitVec 5) (b : BitVec 5)
  /-- REM (R196): Signed remainder with the sign of the dividend. -/
  | rem (g : BitVec 3) (d : BitVec 5) (a : BitVec 5) (b : BitVec 5)
  /-- REMU (R196): Unsigned remainder. -/
  | remu (g : BitVec 3) (d : BitVec 5) (a : BitVec 5) (b : BitVec 5)
  /-- CLZ (R194): Counts leading zero bits of ra. -/
  | clz (g : BitVec 3) (d : BitVec 5) (a : BitVec 5)
  /-- CTZ (R194): Counts trailing zero bits of ra. -/
  | ctz (g : BitVec 3) (d : BitVec 5) (a : BitVec 5)
  /-- POPC (R194): Counts one bits of ra. -/
  | popc (g : BitVec 3) (d : BitVec 5) (a : BitVec 5)
  /-- ADDI (R197): Adds a sign-extended 13-bit immediate. -/
  | addi (g : BitVec 3) (d : BitVec 5) (a : BitVec 5) (i : BitVec 13)
  /-- ANDI (R197): ANDs a sign-extended 13-bit immediate. -/
  | andi (g : BitVec 3) (d : BitVec 5) (a : BitVec 5) (i : BitVec 13)
  /-- ORI (R197): ORs a sign-extended 13-bit immediate. -/
  | ori (g : BitVec 3) (d : BitVec 5) (a : BitVec 5) (i : BitVec 13)
  /-- XORI (R197): XORs a sign-extended 13-bit immediate. -/
  | xori (g : BitVec 3) (d : BitVec 5) (a : BitVec 5) (i : BitVec 13)
  /-- SLLI (R198): Logical left shift by an immediate amount. -/
  | slli (g : BitVec 3) (d : BitVec 5) (a : BitVec 5) (k : BitVec 6)
  /-- SRLI (R198): Logical right shift by an immediate amount. -/
  | srli (g : BitVec 3) (d : BitVec 5) (a : BitVec 5) (k : BitVec 6)
  /-- SRAI (R198): Arithmetic right shift by an immediate amount. -/
  | srai (g : BitVec 3) (d : BitVec 5) (a : BitVec 5) (k : BitVec 6)
  /-- CMPI (R201): Compares ra with a 10-bit immediate under a relation and writes a predicate. -/
  | cmpi (g : BitVec 3) (d : BitVec 5) (a : BitVec 5) (r : BitVec 3) (i : BitVec 10)
  /-- LIMM (R199): Builds a constant 16 bits at a time at the part position. -/
  | limm (g : BitVec 3) (d : BitVec 5) (p : BitVec 2) (i : BitVec 16)
  /-- CMP (R200): Compares two s registers under a relation and writes a predicate. -/
  | cmp (g : BitVec 3) (d : BitVec 5) (a : BitVec 5) (b : BitVec 5) (r : BitVec 3)
  /-- PAND (R202): Predicate AND. -/
  | pand (g : BitVec 3) (d : BitVec 5) (a : BitVec 5) (b : BitVec 5)
  /-- POR (R202): Predicate OR. -/
  | por (g : BitVec 3) (d : BitVec 5) (a : BitVec 5) (b : BitVec 5)
  /-- PXOR (R202): Predicate XOR. -/
  | pxor (g : BitVec 3) (d : BitVec 5) (a : BitVec 5) (b : BitVec 5)
  /-- PANDN (R202): Predicate AND NOT. -/
  | pandn (g : BitVec 3) (d : BitVec 5) (a : BitVec 5) (b : BitVec 5)
  /-- PNOT (R202): Predicate NOT. -/
  | pnot (g : BitVec 3) (d : BitVec 5) (a : BitVec 5)
  /-- PNZ (R202): Sets a predicate when an s register is non-zero. -/
  | pnz (g : BitVec 3) (d : BitVec 5) (a : BitVec 5)
  /-- PGET (R202): Writes 1 or 0 to an s register from a predicate. -/
  | pget (g : BitVec 3) (d : BitVec 5) (a : BitVec 5)
  /-- BR (R203): Branches by a 23-bit word displacement when the guard holds. -/
  | br (g : BitVec 3) (o : BitVec 23)
  /-- JALR (R205): Jumps to the word index in ra and writes the return index to rd. -/
  | jalr (g : BitVec 3) (d : BitVec 5) (a : BitVec 5)
  /-- TEXIT (R206): Ends the running task; the slot enters DRAINING. -/
  | texit (g : BitVec 3)
  /-- ITEND (R207): Ends one iteration of chart slot 0, advancing the count and WID. -/
  | itend (g : BitVec 3)
  /-- CSRRW (R209): Reads a CSR and, when ra is not s0, replaces it. -/
  | csrrw (g : BitVec 3) (d : BitVec 5) (a : BitVec 5) (c : BitVec 11)
  /-- CSRRC (R209): Reads a CSR and clears the bits set in ra. -/
  | csrrc (g : BitVec 3) (d : BitVec 5) (a : BitVec 5) (c : BitVec 11)
  /-- WIDX (R211): Reads one identifier field from WID or from ra. -/
  | widx (g : BitVec 3) (d : BitVec 5) (a : BitVec 5) (s : BitVec 1) (f : BitVec 3)
  /-- REP (R212): Captures up to 16 following words into the repeat buffer for n passes with stepped registers. -/
  | rep (g : BitVec 3) (t : BitVec 5) (a : BitVec 5) (s : BitVec 4) (m : BitVec 4) (l : BitVec 4)
  /-- REPEAT_PASS (R178): Issue of one pass of one captured instruction from the repeat buffer with stepped register names. -/
  | repeatPass
  /-- LEA (R214): Forms ra plus rb shifted left by k. -/
  | lea (g : BitVec 3) (d : BitVec 5) (a : BitVec 5) (b : BitVec 5) (k : BitVec 5)
  /-- LPC (R214): Forms the program counter plus a 15-bit word displacement. -/
  | lpc (g : BitVec 3) (d : BitVec 5) (o : BitVec 15)
  /-- LWIN (R214): Forms a local-window address in window w. -/
  | lwin (g : BitVec 3) (d : BitVec 5) (a : BitVec 5) (w : BitVec 5)
  /-- VADD_I32 (R221): Vector 32-bit integer add. -/
  | vaddI32 (g : BitVec 3) (d : BitVec 5) (a : BitVec 5) (b : BitVec 5) (m : BitVec 3)
  /-- VSUB_I32 (R221): Vector 32-bit integer subtract. -/
  | vsubI32 (g : BitVec 3) (d : BitVec 5) (a : BitVec 5) (b : BitVec 5) (m : BitVec 3)
  /-- VAND_I32 (R221): Vector AND. -/
  | vandI32 (g : BitVec 3) (d : BitVec 5) (a : BitVec 5) (b : BitVec 5) (m : BitVec 3)
  /-- VOR_I32 (R221): Vector OR. -/
  | vorI32 (g : BitVec 3) (d : BitVec 5) (a : BitVec 5) (b : BitVec 5) (m : BitVec 3)
  /-- VXOR_I32 (R221): Vector XOR. -/
  | vxorI32 (g : BitVec 3) (d : BitVec 5) (a : BitVec 5) (b : BitVec 5) (m : BitVec 3)
  /-- VANDN_I32 (R221): Vector AND NOT. -/
  | vandnI32 (g : BitVec 3) (d : BitVec 5) (a : BitVec 5) (b : BitVec 5) (m : BitVec 3)
  /-- VSLL_I32 (R221): Vector left shift. -/
  | vsllI32 (g : BitVec 3) (d : BitVec 5) (a : BitVec 5) (b : BitVec 5) (m : BitVec 3)
  /-- VSRL_N32 (R221): Vector logical right shift. -/
  | vsrlN32 (g : BitVec 3) (d : BitVec 5) (a : BitVec 5) (b : BitVec 5) (m : BitVec 3)
  /-- VSRA_I32 (R221): Vector arithmetic right shift. -/
  | vsraI32 (g : BitVec 3) (d : BitVec 5) (a : BitVec 5) (b : BitVec 5) (m : BitVec 3)
  /-- VMIN_I32 (R221): Vector signed minimum. -/
  | vminI32 (g : BitVec 3) (d : BitVec 5) (a : BitVec 5) (b : BitVec 5) (m : BitVec 3)
  /-- VMAX_I32 (R221): Vector signed maximum. -/
  | vmaxI32 (g : BitVec 3) (d : BitVec 5) (a : BitVec 5) (b : BitVec 5) (m : BitVec 3)
  /-- VMIN_N32 (R221): Vector unsigned minimum. -/
  | vminN32 (g : BitVec 3) (d : BitVec 5) (a : BitVec 5) (b : BitVec 5) (m : BitVec 3)
  /-- VMAX_N32 (R221): Vector unsigned maximum. -/
  | vmaxN32 (g : BitVec 3) (d : BitVec 5) (a : BitVec 5) (b : BitVec 5) (m : BitVec 3)
  /-- VMUL_I32 (R221): Low 32 bits of the lane product. -/
  | vmulI32 (g : BitVec 3) (d : BitVec 5) (a : BitVec 5) (b : BitVec 5) (m : BitVec 3)
  /-- VMULH_I32 (R221): High 32 bits of the signed lane product. -/
  | vmulhI32 (g : BitVec 3) (d : BitVec 5) (a : BitVec 5) (b : BitVec 5) (m : BitVec 3)
  /-- VMULH_N32 (R221): High 32 bits of the unsigned lane product. -/
  | vmulhN32 (g : BitVec 3) (d : BitVec 5) (a : BitVec 5) (b : BitVec 5) (m : BitVec 3)
  /-- VADDS_I32 (R221): Vector signed saturating add. -/
  | vaddsI32 (g : BitVec 3) (d : BitVec 5) (a : BitVec 5) (b : BitVec 5) (m : BitVec 3)
  /-- VADDS_N32 (R221): Vector unsigned saturating add. -/
  | vaddsN32 (g : BitVec 3) (d : BitVec 5) (a : BitVec 5) (b : BitVec 5) (m : BitVec 3)
  /-- VSUBS_I32 (R221): Vector signed saturating subtract. -/
  | vsubsI32 (g : BitVec 3) (d : BitVec 5) (a : BitVec 5) (b : BitVec 5) (m : BitVec 3)
  /-- VSUBS_N32 (R221): Vector unsigned saturating subtract. -/
  | vsubsN32 (g : BitVec 3) (d : BitVec 5) (a : BitVec 5) (b : BitVec 5) (m : BitVec 3)
  /-- VABS_I32 (R221): Vector saturating absolute value. -/
  | vabsI32 (g : BitVec 3) (d : BitVec 5) (a : BitVec 5) (m : BitVec 3)
  /-- VCLZ_N32 (R221): Vector count of leading zeros. -/
  | vclzN32 (g : BitVec 3) (d : BitVec 5) (a : BitVec 5) (m : BitVec 3)
  /-- VPOPC_N32 (R221): Vector population count. -/
  | vpopcN32 (g : BitVec 3) (d : BitVec 5) (a : BitVec 5) (m : BitVec 3)
  /-- VADD_F (R222): Vector float add rounded by RoundTo. -/
  | vaddF (g : BitVec 3) (d : BitVec 5) (a : BitVec 5) (b : BitVec 5) (m : BitVec 3) (t : BitVec 2)
  /-- VSUB_F (R222): Vector float subtract. -/
  | vsubF (g : BitVec 3) (d : BitVec 5) (a : BitVec 5) (b : BitVec 5) (m : BitVec 3) (t : BitVec 2)
  /-- VMUL_F (R222): Vector float multiply. -/
  | vmulF (g : BitVec 3) (d : BitVec 5) (a : BitVec 5) (b : BitVec 5) (m : BitVec 3) (t : BitVec 2)
  /-- VMIN_F (R222): Vector float minimum without rounding. -/
  | vminF (g : BitVec 3) (d : BitVec 5) (a : BitVec 5) (b : BitVec 5) (m : BitVec 3) (t : BitVec 2)
  /-- VMAX_F (R222): Vector float maximum without rounding. -/
  | vmaxF (g : BitVec 3) (d : BitVec 5) (a : BitVec 5) (b : BitVec 5) (m : BitVec 3) (t : BitVec 2)
  /-- VDIV (R222): Vector float divide. -/
  | vdiv (g : BitVec 3) (d : BitVec 5) (a : BitVec 5) (b : BitVec 5) (m : BitVec 3) (t : BitVec 2)
  /-- VSQRT (R222): Vector float square root. -/
  | vsqrt (g : BitVec 3) (d : BitVec 5) (a : BitVec 5) (m : BitVec 3) (t : BitVec 2)
  /-- VFMA (R223): Fused multiply-add rounded once. -/
  | vfma (g : BitVec 3) (d : BitVec 5) (a : BitVec 5) (b : BitVec 5) (c : BitVec 5) (t : BitVec 2)
  /-- VFNMA (R223): Fused multiply-add with negated product. -/
  | vfnma (g : BitVec 3) (d : BitVec 5) (a : BitVec 5) (b : BitVec 5) (c : BitVec 5) (t : BitVec 2)
  /-- VDOT2 (R223): Two-term bf16 dot product added to f32, rounded once. -/
  | vdot2 (g : BitVec 3) (d : BitVec 5) (a : BitVec 5) (b : BitVec 5) (c : BitVec 5)
  /-- VDOT2N (R223): Negated two-term bf16 dot product added to f32. -/
  | vdot2n (g : BitVec 3) (d : BitVec 5) (a : BitVec 5) (b : BitVec 5) (c : BitVec 5)
  /-- VCMP (R224): Compares lanes under a type and relation and writes a mask. -/
  | vcmp (g : BitVec 3) (d : BitVec 5) (a : BitVec 5) (b : BitVec 5) (m : BitVec 3) (t : BitVec 2) (r : BitVec 3)
  /-- VCVT_I32_F32 (R225): Converts f32 lanes to signed integers. -/
  | vcvtI32F32 (g : BitVec 3) (d : BitVec 5) (a : BitVec 5) (m : BitVec 3)
  /-- VCVT_N32_F32 (R225): Converts f32 lanes to unsigned integers. -/
  | vcvtN32F32 (g : BitVec 3) (d : BitVec 5) (a : BitVec 5) (m : BitVec 3)
  /-- VCVT_F32_I32 (R225): Converts signed integer lanes to f32. -/
  | vcvtF32I32 (g : BitVec 3) (d : BitVec 5) (a : BitVec 5) (m : BitVec 3)
  /-- VCVT_F32_N32 (R225): Converts unsigned integer lanes to f32. -/
  | vcvtF32N32 (g : BitVec 3) (d : BitVec 5) (a : BitVec 5) (m : BitVec 3)
  /-- VCVT_F16_F32 (R225): Narrows f32 into the named f16 half of each lane. -/
  | vcvtF16F32 (g : BitVec 3) (d : BitVec 5) (a : BitVec 5) (m : BitVec 3) (h : BitVec 1)
  /-- VCVT_BF16_F32 (R225): Narrows f32 into the named bf16 half of each lane. -/
  | vcvtBf16F32 (g : BitVec 3) (d : BitVec 5) (a : BitVec 5) (m : BitVec 3) (h : BitVec 1)
  /-- VCVT_F32_F16 (R225): Widens the named f16 half of each lane to f32. -/
  | vcvtF32F16 (g : BitVec 3) (d : BitVec 5) (a : BitVec 5) (m : BitVec 3) (h : BitVec 1)
  /-- VCVT_F32_BF16 (R225): Widens the named bf16 half of each lane to f32. -/
  | vcvtF32Bf16 (g : BitVec 3) (d : BitVec 5) (a : BitVec 5) (m : BitVec 3) (h : BitVec 1)
  /-- VRINT (R225): Rounds f32 lanes to integral f32 values. -/
  | vrint (g : BitVec 3) (d : BitVec 5) (a : BitVec 5) (m : BitVec 3)
  /-- VUPK4 (R226): Unpacks 4-bit codes of one half into table codes. -/
  | vupk4 (g : BitVec 3) (d : BitVec 5) (a : BitVec 5) (h : BitVec 1)
  /-- VPK4 (R226): Packs table codes into 4-bit codes of one half. -/
  | vpk4 (g : BitVec 3) (d : BitVec 5) (a : BitVec 5) (h : BitVec 1)
  /-- VUPK6 (R226): Unpacks 6-bit codes into table codes. -/
  | vupk6 (g : BitVec 3) (d : BitVec 5) (a : BitVec 5)
  /-- VPK6 (R226): Packs table codes into 6-bit codes. -/
  | vpk6 (g : BitVec 3) (d : BitVec 5) (a : BitVec 5)
  /-- VDEC (R227): Decodes byte p of each lane through a decode table to f32. -/
  | vdec (g : BitVec 3) (d : BitVec 5) (a : BitVec 5) (t : BitVec 2) (m : BitVec 3) (p : BitVec 2)
  /-- VDECS (R227): Decodes and block-scales byte p of each lane, rounding to f32. -/
  | vdecs (g : BitVec 3) (d : BitVec 5) (a : BitVec 5) (t : BitVec 2) (s : BitVec 3) (m : BitVec 3) (p : BitVec 2)
  /-- VENC (R228): Encodes f32 lanes into table codes at byte p. -/
  | venc (g : BitVec 3) (d : BitVec 5) (a : BitVec 5) (t : BitVec 2) (m : BitVec 3) (p : BitVec 2)
  /-- VTBL (R229): Loads and checks a 1 KiB decode-table image into a physical table. -/
  | vtbl (g : BitVec 3) (t : BitVec 5) (a : BitVec 5) (c : BitVec 3)
  /-- VBEXP (R230): Computes or accumulates an E8M0 block scale code into a g register. -/
  | vbexp (g : BitVec 3) (d : BitVec 5) (a : BitVec 5) (j : BitVec 2) (m : BitVec 3) (q : BitVec 1) (c : BitVec 1)
  /-- VALIGN (R231): Aligns f32 lanes to q-bit mantissas under a block scale. -/
  | valign (g : BitVec 3) (d : BitVec 5) (a : BitVec 5) (j : BitVec 2) (s : BitVec 3) (p : BitVec 3)
  /-- VSCALE (R232): Scales exact 64-bit integers by two E8M0 codes and rounds once to f32. -/
  | vscale (g : BitVec 3) (d : BitVec 5) (a : BitVec 5) (b : BitVec 5) (m : BitVec 3) (h : BitVec 1)
  /-- VSUM_F (R233): Float sum over the fixed reduction tree. -/
  | vsumF (g : BitVec 3) (d : BitVec 5) (a : BitVec 5) (m : BitVec 3) (t : BitVec 2)
  /-- VRMIN_F (R233): Float minimum reduction. -/
  | vrminF (g : BitVec 3) (d : BitVec 5) (a : BitVec 5) (m : BitVec 3) (t : BitVec 2)
  /-- VRMAX_F (R233): Float maximum reduction. -/
  | vrmaxF (g : BitVec 3) (d : BitVec 5) (a : BitVec 5) (m : BitVec 3) (t : BitVec 2)
  /-- VSUM_I32 (R233): Exact 64-bit sum of signed lanes. -/
  | vsumI32 (g : BitVec 3) (d : BitVec 5) (a : BitVec 5) (m : BitVec 3)
  /-- VSUM_N32 (R233): Exact 64-bit sum of unsigned lanes. -/
  | vsumN32 (g : BitVec 3) (d : BitVec 5) (a : BitVec 5) (m : BitVec 3)
  /-- VRMIN_I32 (R233): Signed minimum reduction. -/
  | vrminI32 (g : BitVec 3) (d : BitVec 5) (a : BitVec 5) (m : BitVec 3)
  /-- VRMAX_I32 (R233): Signed maximum reduction. -/
  | vrmaxI32 (g : BitVec 3) (d : BitVec 5) (a : BitVec 5) (m : BitVec 3)
  /-- VRMIN_N32 (R233): Unsigned minimum reduction. -/
  | vrminN32 (g : BitVec 3) (d : BitVec 5) (a : BitVec 5) (m : BitVec 3)
  /-- VRMAX_N32 (R233): Unsigned maximum reduction. -/
  | vrmaxN32 (g : BitVec 3) (d : BitVec 5) (a : BitVec 5) (m : BitVec 3)
  /-- VPERM (R234): Permutes lanes by indices in rb. -/
  | vperm (g : BitVec 3) (d : BitVec 5) (a : BitVec 5) (b : BitVec 5) (m : BitVec 3)
  /-- VROT (R234): Rotates lanes by k. -/
  | vrot (g : BitVec 3) (d : BitVec 5) (a : BitVec 5) (k : BitVec 5) (m : BitVec 3)
  /-- VSLU (R234): Shifts lanes up by k, filling zeros. -/
  | vslu (g : BitVec 3) (d : BitVec 5) (a : BitVec 5) (k : BitVec 5) (m : BitVec 3)
  /-- VSLD (R234): Shifts lanes down by k, filling zeros. -/
  | vsld (g : BitVec 3) (d : BitVec 5) (a : BitVec 5) (k : BitVec 5) (m : BitVec 3)
  /-- VREV (R234): Reverses lane order. -/
  | vrev (g : BitVec 3) (d : BitVec 5) (a : BitVec 5) (m : BitVec 3)
  /-- VHSWAP (R234): Exchanges the halves of each lane. -/
  | vhswap (g : BitVec 3) (d : BitVec 5) (a : BitVec 5) (m : BitVec 3)
  /-- VPKL (R234): Packs the low halves of two sources. -/
  | vpkl (g : BitVec 3) (d : BitVec 5) (a : BitVec 5) (b : BitVec 5) (m : BitVec 3)
  /-- VPKH (R234): Packs the high halves of two sources. -/
  | vpkh (g : BitVec 3) (d : BitVec 5) (a : BitVec 5) (b : BitVec 5) (m : BitVec 3)
  /-- VMOV (R235): Copies active lanes. -/
  | vmov (g : BitVec 3) (d : BitVec 5) (a : BitVec 5) (m : BitVec 3)
  /-- VSPLAT_I32 (R235): Splats 32 bits of an s register to active lanes. -/
  | vsplatI32 (g : BitVec 3) (d : BitVec 5) (a : BitVec 5) (m : BitVec 3)
  /-- VSPLAT_I64 (R235): Splats 64 bits of an s register to lane pairs. -/
  | vsplatI64 (g : BitVec 3) (d : BitVec 5) (a : BitVec 5) (m : BitVec 3)
  /-- VINS (R235): Inserts 32 bits of an s register into lane k. -/
  | vins (g : BitVec 3) (d : BitVec 5) (a : BitVec 5) (k : BitVec 5)
  /-- VEXT_N32 (R235): Extracts lane k zero-extended. -/
  | vextN32 (g : BitVec 3) (d : BitVec 5) (a : BitVec 5) (k : BitVec 5)
  /-- VEXT_I32 (R235): Extracts lane k sign-extended. -/
  | vextI32 (g : BitVec 3) (d : BitVec 5) (a : BitVec 5) (k : BitVec 5)
  /-- VSEL (R235): Selects each lane from ra or rb by a mask. -/
  | vsel (g : BitVec 3) (d : BitVec 5) (a : BitVec 5) (b : BitVec 5) (m : BitVec 3)
  /-- VABS_F32 (R235): Clears the sign bit of non-NaN f32 lanes. -/
  | vabsF32 (g : BitVec 3) (d : BitVec 5) (a : BitVec 5) (m : BitVec 3)
  /-- VNEG_F32 (R235): Inverts the sign bit of non-NaN f32 lanes. -/
  | vnegF32 (g : BitVec 3) (d : BitVec 5) (a : BitVec 5) (m : BitVec 3)
  /-- VABS_F16 (R235): Clears sign bits of non-NaN f16 elements. -/
  | vabsF16 (g : BitVec 3) (d : BitVec 5) (a : BitVec 5) (m : BitVec 3)
  /-- VNEG_F16 (R235): Inverts sign bits of non-NaN f16 elements. -/
  | vnegF16 (g : BitVec 3) (d : BitVec 5) (a : BitVec 5) (m : BitVec 3)
  /-- GSET (R235): Writes a scale register from an s register. -/
  | gset (g : BitVec 3) (d : BitVec 5) (a : BitVec 5)
  /-- GGET (R235): Reads a scale register into an s register. -/
  | gget (g : BitVec 3) (d : BitVec 5) (a : BitVec 5)
  /-- VABS_BF16 (R235): Clears sign bits of non-NaN bf16 elements. -/
  | vabsBf16 (g : BitVec 3) (d : BitVec 5) (a : BitVec 5) (m : BitVec 3)
  /-- VNEG_BF16 (R235): Inverts sign bits of non-NaN bf16 elements. -/
  | vnegBf16 (g : BitVec 3) (d : BitVec 5) (a : BitVec 5) (m : BitVec 3)
  /-- MAND (R236): Mask AND. -/
  | mand (g : BitVec 3) (d : BitVec 5) (a : BitVec 5) (b : BitVec 5)
  /-- MOR (R236): Mask OR. -/
  | mor (g : BitVec 3) (d : BitVec 5) (a : BitVec 5) (b : BitVec 5)
  /-- MXOR (R236): Mask XOR. -/
  | mxor (g : BitVec 3) (d : BitVec 5) (a : BitVec 5) (b : BitVec 5)
  /-- MANDN (R236): Mask AND NOT. -/
  | mandn (g : BitVec 3) (d : BitVec 5) (a : BitVec 5) (b : BitVec 5)
  /-- MNOT (R236): Mask NOT. -/
  | mnot (g : BitVec 3) (d : BitVec 5) (a : BitVec 5)
  /-- MSET (R236): Sets a mask from bits [15:0] of an s register. -/
  | mset (g : BitVec 3) (d : BitVec 5) (a : BitVec 5)
  /-- MGET (R236): Reads a mask into an s register. -/
  | mget (g : BitVec 3) (d : BitVec 5) (a : BitVec 5)
  /-- MPOP (R236): Counts set bits of a mask. -/
  | mpop (g : BitVec 3) (d : BitVec 5) (a : BitVec 5)
  /-- MFIRST (R236): Index of the lowest set mask bit. -/
  | mfirst (g : BitVec 3) (d : BitVec 5) (a : BitVec 5)
  /-- MLOW (R236): Sets the mask bits below a count. -/
  | mlow (g : BitVec 3) (d : BitVec 5) (a : BitVec 5)
  /-- RMMA (R245): Starts a residue matrix multiply-accumulate into an accumulator with a token. -/
  | rmma (g : BitVec 3) (t : BitVec 5) (a : BitVec 5) (b : BitVec 5) (c : BitVec 2) (x : BitVec 1) (y : BitVec 1) (w : BitVec 1) (u : BitVec 1) (v : BitVec 1)
  /-- RMMA_START (R246): A waiting RMMA begins its products when the running one ends. Operands: pos. -/
  | rmmaStart
  /-- RMMA_COMPLETE (R246): An RMMA writes its accumulator, token and frees its lock entry. Operands: pos. -/
  | rmmaComplete
  /-- RFWD (R247): Forward-converts integer lanes into accumulator elements. -/
  | rfwd (g : BitVec 3) (d : BitVec 5) (a : BitVec 5) (b : BitVec 5) (w : BitVec 2) (u : BitVec 1) (i : BitVec 1)
  /-- RREV (R248): Checks and reverse-converts eight accumulator elements to 64-bit pairs. -/
  | rrev (g : BitVec 3) (d : BitVec 5) (a : BitVec 5) (b : BitVec 5) (i : BitVec 1)
  /-- RCHK (R249): Checks every element with MixedRadix and counts corrections. -/
  | rchk (g : BitVec 3) (d : BitVec 5) (a : BitVec 5)
  /-- RBND (R250): Lowers an accumulator's bound exponent after checking every element. -/
  | rbnd (g : BitVec 3) (a : BitVec 5) (b : BitVec 5)
  /-- RZERO (R249): Zeroes an accumulator, its bound and poison. -/
  | rzero (g : BitVec 3) (a : BitVec 5)
  /-- RBGET (R249): Reads an accumulator's bound exponent. -/
  | rbget (g : BitVec 3) (d : BitVec 5) (a : BitVec 5)
  /-- RADD (R252): Adds two accumulators digit by digit. -/
  | radd (g : BitVec 3) (d : BitVec 5) (a : BitVec 5) (b : BitVec 5)
  /-- RSUB (R252): Subtracts two accumulators digit by digit. -/
  | rsub (g : BitVec 3) (d : BitVec 5) (a : BitVec 5) (b : BitVec 5)
  /-- RMOV (R252): Copies an accumulator and its bound. -/
  | rmov (g : BitVec 3) (d : BitVec 5) (a : BitVec 5)
  /-- RSTG (R253): Appends a 64-byte word to an A stage. -/
  | rstg (g : BitVec 3) (a : BitVec 5) (s : BitVec 1)
  /-- RLDA (R254): Loads an accumulator image from scratch. -/
  | rlda (g : BitVec 3) (t : BitVec 5) (a : BitVec 5) (c : BitVec 2)
  /-- RADDS (R254): Adds an accumulator image from scratch into an accumulator. -/
  | radds (g : BitVec 3) (t : BitVec 5) (a : BitVec 5) (c : BitVec 2)
  /-- RSTA (R254): Stores an accumulator image to scratch. -/
  | rsta (g : BitVec 3) (t : BitVec 5) (a : BitVec 5) (c : BitVec 2)
  /-- ACCUMULATOR_IMAGE_COMPLETE (R254): RLDA, RADDS or RSTA finishes its bytes and writes its token with 7,744. Operands: pos id. -/
  | accumulatorImageComplete
  /-- OBLD (R255): Loads 64 bytes from the operand bank into a v register. -/
  | obld (g : BitVec 3) (d : BitVec 5) (a : BitVec 5)
  /-- OBST (R255): Stores a v register into the operand bank. -/
  | obst (g : BitVec 3) (d : BitVec 5) (a : BitVec 5)
  /-- OBCP (R255): Copies between scratch and the operand bank asynchronously. -/
  | obcp (g : BitVec 3) (t : BitVec 5) (a : BitVec 5) (b : BitVec 5) (r : BitVec 1) (c : BitVec 5)
  /-- LD (R262): Loads an aligned datum into an s register. -/
  | ld (g : BitVec 3) (d : BitVec 5) (a : BitVec 5) (c : BitVec 3) (e : BitVec 2) (z : BitVec 2) (x : BitVec 1) (o : BitVec 5)
  /-- LOAD_REPLY (R262): A load reply arrives and writes its pending destination. Operands: pos slot. -/
  | loadReply
  /-- ST (R262): Stores the low bytes of an s register. -/
  | st (g : BitVec 3) (d : BitVec 5) (a : BitVec 5) (c : BitVec 3) (e : BitVec 2) (z : BitVec 2) (o : BitVec 5)
  /-- VLD (R263): Loads the active lanes of 64 bytes. -/
  | vld (g : BitVec 3) (d : BitVec 5) (a : BitVec 5) (c : BitVec 3) (e : BitVec 2) (m : BitVec 2) (o : BitVec 5)
  /-- VST (R263): Stores the active lanes of 64 bytes. -/
  | vst (g : BitVec 3) (d : BitVec 5) (a : BitVec 5) (c : BitVec 3) (e : BitVec 2) (m : BitVec 2) (o : BitVec 5)
  /-- ATOM_CAS (R265): Compare-and-swap RMW at the point of coherence. -/
  | atomCas (g : BitVec 3) (d : BitVec 5) (a : BitVec 5) (c : BitVec 3) (e : BitVec 2) (z : BitVec 2) (o : BitVec 5)
  /-- ATOM (R265): Fetch-and-operate RMW at the point of coherence. -/
  | atom (g : BitVec 3) (d : BitVec 5) (a : BitVec 5) (c : BitVec 3) (e : BitVec 2) (z : BitVec 2) (o : BitVec 5)
  /-- ACCESS_PERFORM (R142): An access takes effect at its point of coherence at one instant. Operands: pos slot id. -/
  | accessPerform
  /-- FENCE (R151): Waits for earlier accesses of the masked classes, placing join markers for wide scopes. -/
  | fence (g : BitVec 3) (s : BitVec 3) (m : BitVec 8)
  /-- JOIN_COMPLETE (R73): A fence's markers have arrived on every hawser into a die, which returns an acknowledgement. Operands: pos slot die. -/
  | joinComplete
  /-- COPY (R272): Starts an asynchronous byte copy with optional barrier beats. -/
  | copy (g : BitVec 3) (t : BitVec 5) (a : BitVec 5) (b : BitVec 5) (c : BitVec 3) (s : BitVec 3)
  /-- GATHER (R273): Starts an indexed gather into scratch. -/
  | gather (g : BitVec 3) (t : BitVec 5) (a : BitVec 5) (z : BitVec 2) (c : BitVec 3) (s : BitVec 3)
  /-- SCATTER (R273): Starts an indexed scatter from scratch. -/
  | scatter (g : BitVec 3) (t : BitVec 5) (a : BitVec 5) (z : BitVec 2) (c : BitVec 3) (s : BitVec 3)
  /-- NXCH (R274): Starts a neighbour exchange of strided rows in up to four directions. -/
  | nxch (g : BitVec 3) (t : BitVec 5) (a : BitVec 5) (b : BitVec 5) (c : BitVec 3) (s : BitVec 3)
  /-- ENGINE_OPERATION_COMPLETE (R156): A copy-engine operation finishes, writes its token and frees its lock entries. Operands: pos id. -/
  | engineOperationComplete
  /-- BEAT_SUBTRACTION (R158): The engine subtracts one beat after a destination unit is written, then tests the record. Operands: pos id. -/
  | beatSubtraction
  /-- BARA (R158): Arrives at a barrier record as a release RMW. -/
  | bara (g : BitVec 3) (d : BitVec 5) (a : BitVec 5) (c : BitVec 3)
  /-- BARW (R158): Waits until a barrier record's generation differs from a given value. -/
  | barw (g : BitVec 3) (a : BitVec 5) (b : BitVec 5) (c : BitVec 3)
  /-- BARI (R275): Initialises a barrier record's expected count. -/
  | bari (g : BitVec 3) (a : BitVec 5) (b : BitVec 5) (c : BitVec 3)
  /-- BARRIER_WAKE (R158): A wake message reaches a slot suspended in BARW, which repeats its acquire load. Operands: pos slot. -/
  | barrierWake
  /-- TWAIT (R276): Stalls until a token is written and reads it. -/
  | twait (g : BitVec 3) (a : BitVec 5)
  /-- TTEST (R276): Tests without stalling whether a token is written. -/
  | ttest (g : BitVec 3) (d : BitVec 5) (a : BitVec 5)
  /-- TDRAIN (R276): Stalls until every asynchronous operation of the slot has written its token. -/
  | tdrain (g : BitVec 3)
  /-- MSEND (R277): Sends a task message to an exact or hinted tile. -/
  | msend (g : BitVec 3) (d : BitVec 5) (a : BitVec 5) (n : BitVec 3) (h : BitVec 1)
  /-- COLL (R278): Starts a collective on a group using a descriptor. -/
  | coll (g : BitVec 3) (t : BitVec 5) (a : BitVec 5)
  /-- COLL_COMPLETE (R280): A collective ends at a member with a byte count or negative status in its token. Operands: pos id. -/
  | collComplete
  /-- MEMBER_LOSS (R281): A member lost mid-collective gives -5 to survivors and breaks the group. Operands: part group rank. -/
  | memberLoss
  /-- LAUNCH (R282): Reads, checks and queues a launch record. -/
  | launch (g : BitVec 3) (d : BitVec 5) (a : BitVec 5) (c : BitVec 3)
  /-- TRAP (R297): Raises USER_TRAP with a value and code. -/
  | trap (g : BitVec 3) (a : BitVec 5) (c : BitVec 11)
  /-- SVC (R297): Raises SVC to the supervisor. -/
  | svc (g : BitVec 3) (a : BitVec 5) (c : BitVec 11)
  /-- BREAK (R297): Raises BREAK with its own PC as EPC. -/
  | brk (g : BitVec 3) (a : BitVec 5) (c : BitVec 11)
  /-- URET (R299): Returns from the user handler, clearing UH. -/
  | uret (g : BitVec 3)
  /-- ERET (R328): Returns from the supervisor handler restoring view and IE. -/
  | eret (g : BitVec 3)
  /-- WFI (R328): Suspends the event slot until an event is pending. -/
  | wfi (g : BitVec 3)
  /-- CSRRS (R329): Reads a CSR and sets the bits given in ra. -/
  | csrrs (g : BitVec 3) (d : BitVec 5) (a : BitVec 5) (c : BitVec 11)
  /-- TLBINV_ALL (R330): Invalidates every translation of the package. -/
  | tlbinvAll (g : BitVec 3)
  /-- TLBINV_ASID (R330): Invalidates every translation of one ASID. -/
  | tlbinvAsid (g : BitVec 3) (b : BitVec 5)
  /-- TLBINV_PAGE (R330): Invalidates one page of one ASID. -/
  | tlbinvPage (g : BitVec 3) (a : BitVec 5) (b : BitVec 5) (z : BitVec 2)
  /-- TLBINV_VA (R330): Invalidates one page of any ASID. -/
  | tlbinvVa (g : BitVec 3) (a : BitVec 5) (z : BitVec 2)
  /-- SSAVE (R332): Saves the slot context to the save area. -/
  | ssave (g : BitVec 3)
  /-- SREST (R333): Restores the slot context from the save area. -/
  | srest (g : BitVec 3)
  /-- BINIT (R335): Initialises a seal block to zero under the page's key slot. -/
  | binit (g : BitVec 3) (a : BitVec 5)
  /-- BWB (R336): Writes back and re-seals one block. -/
  | bwb (g : BitVec 3) (a : BitVec 5)
  /-- PWB (R336): Writes back and re-seals every dirty block of the partition's key slots. -/
  | pwb (g : BitVec 3)
  /-- ROUTE (R291): Performs n transfers with one route-table entry. -/
  | route (e : BitVec 4) (n : BitVec 8)
  /-- HOLD (R291): Performs n transfers, dequeuing inputs only at the last. -/
  | hold (e : BitVec 4) (n : BitVec 8)
  /-- ROUTEC (R291): Performs as many transfers as a loop counter holds. -/
  | routec (e : BitVec 4) (c : BitVec 2)
  /-- SWITCH_TRANSFER (R60): One all-or-nothing crossbar transfer once inputs hold words and outputs have room. Operands: e. -/
  | switchTransfer
  /-- SETC (R290): Sets a loop counter to a 10-bit value. -/
  | setc (c : BitVec 2) (v : BitVec 10)
  /-- SETCH (R290): Sets the high bits of a loop counter. -/
  | setch (c : BitVec 2) (v : BitVec 6)
  /-- LDC (R292): Loads a loop counter from a control word. -/
  | ldc (c : BitVec 2) (i : BitVec 5)
  /-- DBNZ (R290): Decrements a counter and branches if non-zero. -/
  | dbnz (c : BitVec 2) (o : BitVec 10)
  /-- BZC (R290): Branches if a counter is zero. -/
  | bzc (c : BitVec 2) (o : BitVec 10)
  /-- BCZ (R292): Dequeues a control word and branches if it is zero. -/
  | bcz (i : BitVec 5) (o : BitVec 7)
  /-- BCNZ (R292): Dequeues a control word and branches if it is non-zero. -/
  | bcnz (i : BitVec 5) (o : BitVec 7)
  /-- JMP (R290): Switch branch. -/
  | jmp (o : BitVec 12)
  /-- WAIT (R290): Waits until an input holds a word. -/
  | wait (i : BitVec 5)
  /-- DROP (R290): Discards n words from an input. -/
  | drop (i : BitVec 5) (n : BitVec 7)
  /-- IEND (R293): Ends a switch iteration or waits at the step boundary. -/
  | iend
  /-- NFC_WRITE (R78): A write to NFC drains the slot and then applies the new value. Operands: x. -/
  | nfcWrite
  /-- FLAGS_ACCESS (R81): A read or write of FLAGS drains before it acts. Operands: wr x. -/
  | flagsAccess
  /-- SEED_ACCESS (R81): A read or write of SEED drains before it acts. Operands: wr x. -/
  | seedAccess
  /-- UNCHK_ACCESS (R210): An access to UNCHK drains before it acts. Operands: wr x. -/
  | unchkAccess
  /-- RNSCFG_WRITE (R108): Slot 0 of a chart writes RNSCFG after draining residue work. Operands: x. -/
  | rnscfgWrite
  /-- RNSCTL_WRITE (R323): Sends a channel retirement to a tile and waits for its acknowledgement. Operands: x. -/
  | rnsctlWrite
  /-- SSTATUS_WRITE (R317): A write of EV = 1 moves the partition's event slot to this slot. Operands: x. -/
  | sstatusWrite
  /-- PMAP_WRITE (R320): Sets or clears poison bits of s and v registers after draining. Operands: x. -/
  | pmapWrite
  /-- PMAPX_WRITE (R320): Sets or clears poison bits of p, m, a and g registers after draining. Operands: x. -/
  | pmapxWrite
  /-- ASID_WRITE (R321): Waits for earlier accesses to be translated and changes the ASID. Operands: x. -/
  | asidWrite
  /-- PTBASE_WRITE (R321): Waits for earlier accesses to be translated and changes the root table. Operands: x. -/
  | ptbaseWrite
  /-- QTIME_WRITE (R324): Sets the quiescence interval, storing at least 1,024. Operands: x. -/
  | qtimeWrite
  /-- BUDGET_SELECT (R324): A BUDGET write with NW = 1 selects a budget entry only. Operands: x. -/
  | budgetSelect
  /-- BUDGET_SET (R324): A BUDGET write with NW = 0 selects an entry and sets its limit. Operands: x. -/
  | budgetSet
  /-- FAULTINJ_ARM (R325): Arms one test fault in test mode. Operands: x. -/
  | faultinjArm
  /-- CSR_WRITE (R209): Write to a CSR without behaviour of its own, under its access codes. Operands: idx x. -/
  | csrWrite
  /-- STEP_INSTALL (R33): The sequencer reads an INSTALL entry and loads a configuration image across the span. Operands: berth. -/
  | stepInstall
  /-- STEP_SELECT (R33): The sequencer makes a resident configuration current. Operands: berth. -/
  | stepSelect
  /-- STEP_COLLECTIVE (R33): The sequencer swaps in the shadow configuration and performs a collective for the berth. Operands: berth. -/
  | stepCollective
  /-- STEP_END (R37): The sequencer arrives on DONE and frees the berth. Operands: berth. -/
  | stepEnd
  /-- STEP_COMPLETE (R35): All completion conditions of a step hold together. Operands: berth. -/
  | stepComplete
  /-- GENERATOR_READ_ISSUE (R69): A generator issues one of up to 16 outstanding relaxed reads. Operands: pos gen. -/
  | generatorReadIssue
  /-- GENERATOR_PUSH (R69): A generator pushes the next word in stream order into its buffer when room exists. Operands: pos gen. -/
  | generatorPush
  /-- QUIESCENT (R53): No movement for QTIME cycles in an incomplete step raises QUIESCENT. Operands: berth. -/
  | quiescent
  /-- TASK_MESSAGE_TAKE (R45): A tile dispatches, queues, spills or holds a task message. Operands: pos. -/
  | taskMessageTake
  /-- HINTED_WALK_STEP (R46): A hinted message tests one tile and moves one step toward its hint. Operands: msg. -/
  | hintedWalkStep
  /-- TASK_DISPATCH (R48): An eligible slot becomes IDLE and takes the oldest queued task. Operands: pos. -/
  | taskDispatch
  /-- SPILL_TO_QUEUE (R48): A freed queue entry takes the oldest spilled message. Operands: pos. -/
  | spillToQueue
  /-- DRAIN_COMPLETE (R51): A DRAINING slot's asynchronous operations finish and it becomes IDLE. Operands: pos slot. -/
  | drainComplete
  /-- COHERENCE_READ (R127): The home serves a read request from a remote RDC. Operands: line rpkg rdie. -/
  | coherenceRead
  /-- OWNERSHIP_REQUEST (R127): The home grants ownership of a line to a remote RDC. Operands: line rpkg rdie. -/
  | ownershipRequest
  /-- HOME_LOAD (R127): The home quay performs a load at the home. Operands: line. -/
  | homeLoad
  /-- HOME_STORE_OR_ATOMIC (R127): The home quay performs a store or atomic at the home. Operands: line. -/
  | homeStoreOrAtomic
  /-- INVALIDATION (R128): A possible holder receives an invalidation or recall and answers. Operands: line target. -/
  | invalidation
  /-- TRANSACTION_END (R126): The last answer arrives and the home releases the next held request. Operands: line. -/
  | transactionEnd
  /-- RDC_EVICTION (R129): An RDC evicts a dirty line and writes it home. Operands: die line. -/
  | rdcEviction
  /-- WRITE_BACK_ACKNOWLEDGEMENT (R129): The home acknowledges a write-back and the buffer frees. Operands: die line. -/
  | writeBackAcknowledgement
  /-- L2_EVICTION (R122): An L2 evicts a dirty line into the seal cache. Operands: line. -/
  | l2Eviction
  /-- SEAL_CACHE_FILL (R135): A seal-cache miss reads, checks, verifies and decrypts a whole block. Operands: block key. -/
  | sealCacheFill
  /-- SEAL_CACHE_EVICTION (R137): A dirty entry is evicted and the whole block re-sealed. Operands: block. -/
  | sealCacheEviction
  /-- PAGE_TABLE_WALK (R361): A walker completes a walk for a TLB miss with its outcome. Operands: pos slot id. -/
  | pageTableWalk
  /-- ACCESS_RETRY (R372): An access answered with retry by a full replay queue is re-sent. Operands: pos slot id. -/
  | accessRetry
  /-- DEFERRED_ACCESS_FAULT (R424): A failed answer to an already-issued access traps at the next instruction boundary. Operands: pos slot. -/
  | deferredAccessFault
  /-- EVENT_TAKE (R326): The event slot takes the oldest queued event at an instruction boundary. Operands: pos slot. -/
  | eventTake
  /-- TASK_OVERRUN (R351): A task's run count passes its limit. Operands: pos slot. -/
  | taskOverrun
  /-- SCHEDULING_PASS (R343): The scheduler selects eligible records by priority and places them. Operands: part. -/
  | schedulingPass
  /-- DISPATCH (R425): The scheduler loads task code and starts the launched work. Operands: part. -/
  | dispatch
  /-- CAPTURE (R353): A stopped chart's state is written to its save record and PREEMPT raised. Operands: berth. -/
  | capture
  /-- DRAIN_LIMIT_EXPIRY (R354): A chart access withheld for DRAINLIM cycles starts an eviction. Operands: berth. -/
  | drainLimitExpiry
  /-- RESUME (R358): A resume record reinstalls and restarts a saved chart. Operands: berth. -/
  | resume
  /-- TASK_GRID_END (R348): All tasks and messages of a grid are done; DONE is arrived. Operands: dom. -/
  | taskGridEnd
  /-- BUDGET_PERIOD (R349): Every 6,000 cycles every budget is refilled. -/
  | budgetPeriod
  /-- CMD_PREEMPTION_SAVE (R359): Scheduler command OP 1 saves a running chart. Operands: part. -/
  | cmdPreemptionSave
  /-- CMD_END_WORK (R359): Scheduler command OP 2 ends a chart or task grid. Operands: part. -/
  | cmdEndWork
  /-- CMD_DISCARD_SAVE (R359): Scheduler command OP 3 discards a saved chart. Operands: part. -/
  | cmdDiscardSave
  /-- CMD_UNKNOWN_OP (R359): A scheduler command with another OP does nothing and acknowledges 3. Operands: part. -/
  | cmdUnknownOp
  /-- SYNDROME_QUEUE_MOVE (R380): A tile moves one syndrome entry to its record destinations. Operands: pos. -/
  | syndromeQueueMove
  /-- LINK_FLIT_REPLAY (R388): A flit failing its CRC is replayed and counted. Operands: die kind index. -/
  | linkFlitReplay
  /-- LINK_FLIT_LOST (R388): A flit is lost and handled by whether its header is recovered. Operands: die headerRecovered flit. -/
  | linkFlitLost
  /-- PORT_RETRAIN (R410): A port leaves UP for TRAINING and returns, moving routes. Operands: port. -/
  | portRetrain
  /-- PORT_TRAINING_COMPLETE (R410): A port learns its peer and becomes UP. Operands: port peerPkg peerPort. -/
  | portTrainingComplete
  /-- PACKAGE_LOST (R394): A viral notice or loss of every pier path marks another package lost. Operands: pkg. -/
  | packageLost
  /-- ROW_ACTIVATION_BACKOFF (R391): A DRAM bank back-off blocks the bank for refreshes and mitigation. Operands: die bank. -/
  | rowActivationBackoff
  /-- WATCHDOG_EXPIRY (R392): The Norre watchdog expires and the package becomes viral. -/
  | watchdogExpiry
  /-- POWER_OR_CLOCK_FAULT (R392): A power or clock fault of a die makes the package viral. Operands: die. -/
  | powerOrClockFault
  /-- BASE_DIE_UNCORRECTABLE (R392): An uncorrectable error in base-die control state makes the package viral. Operands: die. -/
  | baseDieUncorrectable
  /-- POWER_GATE (R418): An idle die is gated after 1 ms and the always-on island takes over. Operands: die. -/
  | powerGate
  /-- DIE_WAKE (R419): A gated die completes its wake. Operands: die. -/
  | dieWake
  /-- KEY_INSTALL (R398): Draws keys for a key slot generation and sets its owner. Operands: c. -/
  | keyInstall
  /-- KEY_DROP (R399): Writes back and drops a key slot generation. Operands: c. -/
  | keyDrop
  /-- KEY_SEAL (R396): Sets the sealing generation of a key slot. Operands: c. -/
  | keySeal
  /-- PART_CREATE (R403): Creates a partition with groups, queues and key slots. Operands: c. -/
  | partCreate
  /-- PART_START (R403): Starts a partition and queues its boot launch record. Operands: c. -/
  | partStart
  /-- PART_DESTROY (R403): Destroys a partition and drops its keys. Operands: c. -/
  | partDestroy
  /-- MODE_SET (R405): Changes the partition mode and group ownership. Operands: c. -/
  | modeSet
  /-- ROUTE_SET (R411): Replaces a partition's link routing entry for one package. Operands: c. -/
  | routeSet
  /-- GROUP_FORM (R413): Installs a pending collective group entry and exchanges its digest. Operands: c. -/
  | groupForm
  /-- GROUP_FORMED (R413): Every package holds the same digest and the group becomes formed. Operands: part group. -/
  | groupFormed
  /-- GROUP_FORM_TIMEOUT (R413): A group not formed within 100 ms is removed. Operands: part group. -/
  | groupFormTimeout
  /-- GROUP_DROP (R396): Removes a collective group entry. Operands: c. -/
  | groupDrop
  /-- BLOCK_INIT (R396): Initialises a range of blocks under a key slot. Operands: c. -/
  | blockInit
  /-- ATTEST_IDENTITY (R414): Writes the identity public key and certificate to REPORT. Operands: c. -/
  | attestIdentity
  /-- ATTEST_REPORT (R414): Writes and signs an attestation report with a fresh leaf. Operands: c. -/
  | attestReport
  /-- KEY_SHARE_GRANT (R400): Grants a key slot to another partition. Operands: c. -/
  | keyShareGrant
  /-- KEY_SHARE_REVOKE (R400): Withdraws a key slot grant. Operands: c. -/
  | keyShareRevoke
  /-- MGMT_UNKNOWN_OP (R396): A management command with an unlisted OP ends with status 2. Operands: c. -/
  | mgmtUnknownOp
  /-- LAUNCH_WINDOW_WRITE (R341): The host writes a launch-record address to a virtual function's window. Operands: vf va. -/
  | launchWindowWrite
  /-- VAPT_ACCESS (R408): A host access through the virtual aperture, translated. Operands: vf h. -/
  | vaptAccess
  /-- PAPT_ACCESS (R408): A host access through the physical aperture. Operands: h. -/
  | paptAccess
  /-- WATCH_VECTOR (R409): A watched barrier record's generation changes and its MSI-X vector fires. Operands: vf k. -/
  | watchVector
  /-- PERST_ASSERT (R416): Assertion of PERST# starts whole-package reset. -/
  | perstAssert
  /-- HOT_RESET (R416): A host-link hot reset starts whole-package reset. -/
  | hotReset
  /-- PF0_FUNCTION_LEVEL_RESET (R416): A Function Level Reset of physical function 0 starts whole-package reset. -/
  | pf0FunctionLevelReset
  /-- VF_FUNCTION_LEVEL_RESET (R416): A Function Level Reset of a virtual function resets its region. Operands: vf. -/
  | vfFunctionLevelReset
  /-- PACKAGE_RESET_REQUEST (R416): A write of PCTL.RST = 1 starts whole-package reset. -/
  | packageResetRequest
  /-- LOG_CLEAR (R415): PCTL.LOGCLR empties every die syndrome log. -/
  | logClear
  /-- CHECKPOINT_SAVE (R420): CKGO with CKDIR = 0 writes all DRAM to host memory. Operands: list. -/
  | checkpointSave
  /-- CHECKPOINT_RESTORE (R422): CKGO with CKDIR = 1 restores DRAM and key state from an image. -/
  | checkpointRestore
  /-- UNDEFINED_ENCODING (R175): A slot issues a word whose major opcode is 0x00, 0x3F or reserved, whose function code is unassigned, or that has a non-zero reserved field, and raises UNDEF_OP or RSVD_FIELD precisely. Operands: w. -/
  | undefinedEncoding
  /-- UNDEFINED_SWITCH_WORD (R294): A switch meets a word with bits [15:12] of 0x0 or 0xF, or a non-zero reserved field, and faults. Operands: w. -/
  | undefinedSwitchWord
  /-- HAWSER_RETRAIN_FAILURE (R392): A hawser path that cannot retrain puts the package into the viral state with source 3. Operands: die. -/
  | hawserRetrainFailure
  /-- PORT_DOWN (R410): A Wiroril port loses its link and enters DOWN, so routes move away from it under R411. Operands: port. -/
  | portDown
  /-- PORT_TRAINING_START (R410): A Wiroril port in DOWN detects a link partner and begins TRAINING. Operands: port. -/
  | portTrainingStart
  /-- CHECKPOINT_COMPLETE (R420): A checkpoint save or restore finishes, sets CK to 3 or 4 and serves the requests it held. -/
  | checkpointComplete
  /-- RESET_PHASE_COMPLETE (R416): A phase of whole-package reset (firmware verification or memory training) ends and BOOT advances, reaching 3 when the lattice clock starts and commands are accepted. Operands: accepted version. -/
  | resetPhaseComplete
  deriving DecidableEq, Repr

end Sys2Proof
end

