-- ==== Sys2Proof/WellFormed.lean ====
section
/-!
DEFINITION. Well-formed instructions: the conditions on fields whose violation raises RSVD_FIELD (08 R171, R173, R175; 07 Table 7-2)
or UNDEF_OP (an unassigned type or relation code). A row without an encoding has no field conditions.
-/
namespace Sys2Proof

/-- A token field names s1 to s29 (08 R171). -/
def tokOk (t : BitVec 5) : Bool := !(t == 0 || t == 30 || t == 31)

/-- The field conditions of every instruction. -/
def Instr.wf : Instr → Bool
  | .add _ _ _ _ => true
  | .sub _ _ _ _ => true
  | .and _ _ _ _ => true
  | .or _ _ _ _ => true
  | .xor _ _ _ _ => true
  | .andn _ _ _ _ => true
  | .sll _ _ _ _ => true
  | .srl _ _ _ _ => true
  | .sra _ _ _ _ => true
  | .min _ _ _ _ => true
  | .max _ _ _ _ => true
  | .minu _ _ _ _ => true
  | .maxu _ _ _ _ => true
  | .mul _ _ _ _ => true
  | .mulh _ _ _ _ => true
  | .mulhu _ _ _ _ => true
  | .div _ _ _ _ => true
  | .divu _ _ _ _ => true
  | .rem _ _ _ _ => true
  | .remu _ _ _ _ => true
  | .clz _ _ _ => true
  | .ctz _ _ _ => true
  | .popc _ _ _ => true
  | .addi _ _ _ _ => true
  | .andi _ _ _ _ => true
  | .ori _ _ _ _ => true
  | .xori _ _ _ _ => true
  | .slli _ _ _ _ => true
  | .srli _ _ _ _ => true
  | .srai _ _ _ _ => true
  | .cmpi _ d _ _ _ => d.toNat < 8
  | .limm _ d p _ => (p == 0 || !(d == 30 || d == 31))
  | .cmp _ d _ _ r => d.toNat < 8 && r != 7
  | .pand _ d a b => d.toNat < 8 && a.toNat < 8 && b.toNat < 8
  | .por _ d a b => d.toNat < 8 && a.toNat < 8 && b.toNat < 8
  | .pxor _ d a b => d.toNat < 8 && a.toNat < 8 && b.toNat < 8
  | .pandn _ d a b => d.toNat < 8 && a.toNat < 8 && b.toNat < 8
  | .pnot _ d a => d.toNat < 8 && a.toNat < 8
  | .pnz _ d _ => d.toNat < 8
  | .pget _ _ a => a.toNat < 8
  | .br _ _ => true
  | .jalr _ _ _ => true
  | .texit _ => true
  | .itend _ => true
  | .csrrw _ _ _ _ => true
  | .csrrc _ _ _ _ => true
  | .widx _ _ a s f => (f.toNat < 6 && (s == 1 || a == 0))
  | .rep _ t _ s _ _ => tokOk t && s != 0
  | .repeatPass => true
  | .lea _ _ _ _ k => k.toNat < 8
  | .lpc _ _ _ => true
  | .lwin _ _ _ w => w.toNat < 6
  | .vaddI32 _ _ _ _ _ => true
  | .vsubI32 _ _ _ _ _ => true
  | .vandI32 _ _ _ _ _ => true
  | .vorI32 _ _ _ _ _ => true
  | .vxorI32 _ _ _ _ _ => true
  | .vandnI32 _ _ _ _ _ => true
  | .vsllI32 _ _ _ _ _ => true
  | .vsrlN32 _ _ _ _ _ => true
  | .vsraI32 _ _ _ _ _ => true
  | .vminI32 _ _ _ _ _ => true
  | .vmaxI32 _ _ _ _ _ => true
  | .vminN32 _ _ _ _ _ => true
  | .vmaxN32 _ _ _ _ _ => true
  | .vmulI32 _ _ _ _ _ => true
  | .vmulhI32 _ _ _ _ _ => true
  | .vmulhN32 _ _ _ _ _ => true
  | .vaddsI32 _ _ _ _ _ => true
  | .vaddsN32 _ _ _ _ _ => true
  | .vsubsI32 _ _ _ _ _ => true
  | .vsubsN32 _ _ _ _ _ => true
  | .vabsI32 _ _ _ _ => true
  | .vclzN32 _ _ _ _ => true
  | .vpopcN32 _ _ _ _ => true
  | .vaddF _ _ _ _ _ t => t != 3
  | .vsubF _ _ _ _ _ t => t != 3
  | .vmulF _ _ _ _ _ t => t != 3
  | .vminF _ _ _ _ _ t => t != 3
  | .vmaxF _ _ _ _ _ t => t != 3
  | .vdiv _ _ _ _ _ t => t != 3
  | .vsqrt _ _ _ _ t => t != 3
  | .vfma _ _ _ _ _ t => t != 3
  | .vfnma _ _ _ _ _ t => t != 3
  | .vdot2 _ _ _ _ _ => true
  | .vdot2n _ _ _ _ _ => true
  | .vcmp _ d _ _ _ t r => d.toNat < 8 && (t != 3 && r != 7 && !(r == 6 && t != 2))
  | .vcvtI32F32 _ _ _ _ => true
  | .vcvtN32F32 _ _ _ _ => true
  | .vcvtF32I32 _ _ _ _ => true
  | .vcvtF32N32 _ _ _ _ => true
  | .vcvtF16F32 _ _ _ _ _ => true
  | .vcvtBf16F32 _ _ _ _ _ => true
  | .vcvtF32F16 _ _ _ _ _ => true
  | .vcvtF32Bf16 _ _ _ _ _ => true
  | .vrint _ _ _ _ => true
  | .vupk4 _ _ _ _ => true
  | .vpk4 _ _ _ _ => true
  | .vupk6 _ _ _ => true
  | .vpk6 _ _ _ => true
  | .vdec _ _ _ _ _ _ => true
  | .vdecs _ _ _ _ _ _ _ => true
  | .venc _ _ _ _ _ _ => true
  | .vtbl _ t _ _ => t.toNat < 4
  | .vbexp _ d _ _ _ _ _ => d.toNat < 8
  | .valign _ _ _ _ _ p => !(p == 2 || p == 3)
  | .vscale _ _ _ _ _ _ => true
  | .vsumF _ _ _ _ t => t != 3
  | .vrminF _ _ _ _ t => t != 3
  | .vrmaxF _ _ _ _ t => t != 3
  | .vsumI32 _ _ _ _ => true
  | .vsumN32 _ _ _ _ => true
  | .vrminI32 _ _ _ _ => true
  | .vrmaxI32 _ _ _ _ => true
  | .vrminN32 _ _ _ _ => true
  | .vrmaxN32 _ _ _ _ => true
  | .vperm _ _ _ _ _ => true
  | .vrot _ _ _ k _ => k.toNat < 16
  | .vslu _ _ _ k _ => k.toNat < 16
  | .vsld _ _ _ k _ => k.toNat < 16
  | .vrev _ _ _ _ => true
  | .vhswap _ _ _ _ => true
  | .vpkl _ _ _ _ _ => true
  | .vpkh _ _ _ _ _ => true
  | .vmov _ _ _ _ => true
  | .vsplatI32 _ _ _ _ => true
  | .vsplatI64 _ _ _ _ => true
  | .vins _ _ _ k => k.toNat < 16
  | .vextN32 _ _ _ k => k.toNat < 16
  | .vextI32 _ _ _ k => k.toNat < 16
  | .vsel _ _ _ _ _ => true
  | .vabsF32 _ _ _ _ => true
  | .vnegF32 _ _ _ _ => true
  | .vabsF16 _ _ _ _ => true
  | .vnegF16 _ _ _ _ => true
  | .gset _ d _ => d.toNat < 8
  | .gget _ _ a => a.toNat < 8
  | .vabsBf16 _ _ _ _ => true
  | .vnegBf16 _ _ _ _ => true
  | .mand _ d a b => d.toNat < 8 && a.toNat < 8 && b.toNat < 8
  | .mor _ d a b => d.toNat < 8 && a.toNat < 8 && b.toNat < 8
  | .mxor _ d a b => d.toNat < 8 && a.toNat < 8 && b.toNat < 8
  | .mandn _ d a b => d.toNat < 8 && a.toNat < 8 && b.toNat < 8
  | .mnot _ d a => d.toNat < 8 && a.toNat < 8
  | .mset _ d _ => d.toNat < 8
  | .mget _ _ a => a.toNat < 8
  | .mpop _ _ a => a.toNat < 8
  | .mfirst _ _ a => a.toNat < 8
  | .mlow _ d _ => d.toNat < 8
  | .rmma _ t a _ _ x y _ _ _ => tokOk t && ((x == 1 || y == 0) && (x == 0 || a == 0))
  | .rmmaStart => true
  | .rmmaComplete => true
  | .rfwd _ d _ _ _ _ _ => d.toNat < 4
  | .rrev _ _ a _ _ => a.toNat < 4
  | .rchk _ _ a => a.toNat < 4
  | .rbnd _ a _ => a.toNat < 4
  | .rzero _ a => a.toNat < 4
  | .rbget _ _ a => a.toNat < 4
  | .radd _ d a b => d.toNat < 4 && a.toNat < 4 && b.toNat < 4
  | .rsub _ d a b => d.toNat < 4 && a.toNat < 4 && b.toNat < 4
  | .rmov _ d a => d.toNat < 4 && a.toNat < 4
  | .rstg _ _ _ => true
  | .rlda _ t _ _ => tokOk t
  | .radds _ t _ _ => tokOk t
  | .rsta _ t _ _ => tokOk t
  | .accumulatorImageComplete => true
  | .obld _ _ _ => true
  | .obst _ _ _ => true
  | .obcp _ t _ _ _ c => tokOk t && c.toNat < 13
  | .ld _ _ _ _ e z x _ => ((e == 0 || e == 1) && !(z == 3 && x == 1))
  | .loadReply => true
  | .st _ _ _ _ e _ _ => (e == 0 || e == 2)
  | .vld _ _ _ _ e _ _ => (e == 0 || e == 1)
  | .vst _ _ _ _ e _ _ => (e == 0 || e == 2)
  | .atomCas _ d _ _ _ _ _ => (d.toNat % 2 == 0 && 2 ≤ d.toNat && d.toNat ≤ 28)
  | .atom _ d _ _ _ _ _ => (d.toNat % 2 == 0 && 2 ≤ d.toNat && d.toNat ≤ 28)
  | .accessPerform => true
  | .fence _ s _ => s.toNat < 6
  | .joinComplete => true
  | .copy _ t a _ _ s => tokOk t && (1 ≤ a.toNat && a.toNat ≤ 27 && s.toNat < 6)
  | .gather _ t a z _ s => tokOk t && (1 ≤ a.toNat && a.toNat ≤ 26 && z != 3 && s.toNat < 6)
  | .scatter _ t a z _ s => tokOk t && (1 ≤ a.toNat && a.toNat ≤ 26 && z != 3 && s.toNat < 6)
  | .nxch _ t _ _ _ s => tokOk t && s.toNat < 6
  | .engineOperationComplete => true
  | .beatSubtraction => true
  | .bara _ _ _ _ => true
  | .barw _ _ _ _ => true
  | .bari _ _ _ _ => true
  | .barrierWake => true
  | .twait _ _ => true
  | .ttest _ d _ => d.toNat < 8
  | .tdrain _ => true
  | .msend _ d _ n _ => (n.toNat ≤ 4 && (n != 0 || d == 0) && (n == 0 || d.toNat + n.toNat ≤ 30))
  | .coll _ t _ => tokOk t
  | .collComplete => true
  | .memberLoss => true
  | .launch _ _ _ _ => true
  | .trap _ _ _ => true
  | .svc _ _ _ => true
  | .brk _ _ _ => true
  | .uret _ => true
  | .eret _ => true
  | .wfi _ => true
  | .csrrs _ _ _ _ => true
  | .tlbinvAll _ => true
  | .tlbinvAsid _ _ => true
  | .tlbinvPage _ _ _ _ => true
  | .tlbinvVa _ _ _ => true
  | .ssave _ => true
  | .srest _ => true
  | .binit _ _ => true
  | .bwb _ _ => true
  | .pwb _ => true
  | .route _ _ => true
  | .hold _ _ => true
  | .routec _ _ => true
  | .switchTransfer => true
  | .setc _ _ => true
  | .setch _ _ => true
  | .ldc _ _ => true
  | .dbnz _ _ => true
  | .bzc _ _ => true
  | .bcz _ _ => true
  | .bcnz _ _ => true
  | .jmp _ => true
  | .wait _ => true
  | .drop _ _ => true
  | .iend => true
  | .nfcWrite => true
  | .flagsAccess => true
  | .seedAccess => true
  | .unchkAccess => true
  | .rnscfgWrite => true
  | .rnsctlWrite => true
  | .sstatusWrite => true
  | .pmapWrite => true
  | .pmapxWrite => true
  | .asidWrite => true
  | .ptbaseWrite => true
  | .qtimeWrite => true
  | .budgetSelect => true
  | .budgetSet => true
  | .faultinjArm => true
  | .csrWrite => true
  | .stepInstall => true
  | .stepSelect => true
  | .stepCollective => true
  | .stepEnd => true
  | .stepComplete => true
  | .generatorReadIssue => true
  | .generatorPush => true
  | .quiescent => true
  | .taskMessageTake => true
  | .hintedWalkStep => true
  | .taskDispatch => true
  | .spillToQueue => true
  | .drainComplete => true
  | .coherenceRead => true
  | .ownershipRequest => true
  | .homeLoad => true
  | .homeStoreOrAtomic => true
  | .invalidation => true
  | .transactionEnd => true
  | .rdcEviction => true
  | .writeBackAcknowledgement => true
  | .l2Eviction => true
  | .sealCacheFill => true
  | .sealCacheEviction => true
  | .pageTableWalk => true
  | .accessRetry => true
  | .deferredAccessFault => true
  | .eventTake => true
  | .taskOverrun => true
  | .schedulingPass => true
  | .dispatch => true
  | .capture => true
  | .drainLimitExpiry => true
  | .resume => true
  | .taskGridEnd => true
  | .budgetPeriod => true
  | .cmdPreemptionSave => true
  | .cmdEndWork => true
  | .cmdDiscardSave => true
  | .cmdUnknownOp => true
  | .syndromeQueueMove => true
  | .linkFlitReplay => true
  | .linkFlitLost => true
  | .portRetrain => true
  | .portTrainingComplete => true
  | .packageLost => true
  | .rowActivationBackoff => true
  | .watchdogExpiry => true
  | .powerOrClockFault => true
  | .baseDieUncorrectable => true
  | .powerGate => true
  | .dieWake => true
  | .keyInstall => true
  | .keyDrop => true
  | .keySeal => true
  | .partCreate => true
  | .partStart => true
  | .partDestroy => true
  | .modeSet => true
  | .routeSet => true
  | .groupForm => true
  | .groupFormed => true
  | .groupFormTimeout => true
  | .groupDrop => true
  | .blockInit => true
  | .attestIdentity => true
  | .attestReport => true
  | .keyShareGrant => true
  | .keyShareRevoke => true
  | .mgmtUnknownOp => true
  | .launchWindowWrite => true
  | .vaptAccess => true
  | .paptAccess => true
  | .watchVector => true
  | .perstAssert => true
  | .hotReset => true
  | .pf0FunctionLevelReset => true
  | .vfFunctionLevelReset => true
  | .packageResetRequest => true
  | .logClear => true
  | .checkpointSave => true
  | .checkpointRestore => true
  | .undefinedEncoding => true
  | .undefinedSwitchWord => true
  | .hawserRetrainFailure => true
  | .portDown => true
  | .portTrainingStart => true
  | .checkpointComplete => true
  | .resetPhaseComplete => true

/-- A core instruction: a row with a 32-bit encoding. -/
def Instr.isCore : Instr → Bool
  | .add .. => true
  | .sub .. => true
  | .and .. => true
  | .or .. => true
  | .xor .. => true
  | .andn .. => true
  | .sll .. => true
  | .srl .. => true
  | .sra .. => true
  | .min .. => true
  | .max .. => true
  | .minu .. => true
  | .maxu .. => true
  | .mul .. => true
  | .mulh .. => true
  | .mulhu .. => true
  | .div .. => true
  | .divu .. => true
  | .rem .. => true
  | .remu .. => true
  | .clz .. => true
  | .ctz .. => true
  | .popc .. => true
  | .addi .. => true
  | .andi .. => true
  | .ori .. => true
  | .xori .. => true
  | .slli .. => true
  | .srli .. => true
  | .srai .. => true
  | .cmpi .. => true
  | .limm .. => true
  | .cmp .. => true
  | .pand .. => true
  | .por .. => true
  | .pxor .. => true
  | .pandn .. => true
  | .pnot .. => true
  | .pnz .. => true
  | .pget .. => true
  | .br .. => true
  | .jalr .. => true
  | .texit .. => true
  | .itend .. => true
  | .csrrw .. => true
  | .csrrc .. => true
  | .widx .. => true
  | .rep .. => true
  | .repeatPass .. => false
  | .lea .. => true
  | .lpc .. => true
  | .lwin .. => true
  | .vaddI32 .. => true
  | .vsubI32 .. => true
  | .vandI32 .. => true
  | .vorI32 .. => true
  | .vxorI32 .. => true
  | .vandnI32 .. => true
  | .vsllI32 .. => true
  | .vsrlN32 .. => true
  | .vsraI32 .. => true
  | .vminI32 .. => true
  | .vmaxI32 .. => true
  | .vminN32 .. => true
  | .vmaxN32 .. => true
  | .vmulI32 .. => true
  | .vmulhI32 .. => true
  | .vmulhN32 .. => true
  | .vaddsI32 .. => true
  | .vaddsN32 .. => true
  | .vsubsI32 .. => true
  | .vsubsN32 .. => true
  | .vabsI32 .. => true
  | .vclzN32 .. => true
  | .vpopcN32 .. => true
  | .vaddF .. => true
  | .vsubF .. => true
  | .vmulF .. => true
  | .vminF .. => true
  | .vmaxF .. => true
  | .vdiv .. => true
  | .vsqrt .. => true
  | .vfma .. => true
  | .vfnma .. => true
  | .vdot2 .. => true
  | .vdot2n .. => true
  | .vcmp .. => true
  | .vcvtI32F32 .. => true
  | .vcvtN32F32 .. => true
  | .vcvtF32I32 .. => true
  | .vcvtF32N32 .. => true
  | .vcvtF16F32 .. => true
  | .vcvtBf16F32 .. => true
  | .vcvtF32F16 .. => true
  | .vcvtF32Bf16 .. => true
  | .vrint .. => true
  | .vupk4 .. => true
  | .vpk4 .. => true
  | .vupk6 .. => true
  | .vpk6 .. => true
  | .vdec .. => true
  | .vdecs .. => true
  | .venc .. => true
  | .vtbl .. => true
  | .vbexp .. => true
  | .valign .. => true
  | .vscale .. => true
  | .vsumF .. => true
  | .vrminF .. => true
  | .vrmaxF .. => true
  | .vsumI32 .. => true
  | .vsumN32 .. => true
  | .vrminI32 .. => true
  | .vrmaxI32 .. => true
  | .vrminN32 .. => true
  | .vrmaxN32 .. => true
  | .vperm .. => true
  | .vrot .. => true
  | .vslu .. => true
  | .vsld .. => true
  | .vrev .. => true
  | .vhswap .. => true
  | .vpkl .. => true
  | .vpkh .. => true
  | .vmov .. => true
  | .vsplatI32 .. => true
  | .vsplatI64 .. => true
  | .vins .. => true
  | .vextN32 .. => true
  | .vextI32 .. => true
  | .vsel .. => true
  | .vabsF32 .. => true
  | .vnegF32 .. => true
  | .vabsF16 .. => true
  | .vnegF16 .. => true
  | .gset .. => true
  | .gget .. => true
  | .vabsBf16 .. => true
  | .vnegBf16 .. => true
  | .mand .. => true
  | .mor .. => true
  | .mxor .. => true
  | .mandn .. => true
  | .mnot .. => true
  | .mset .. => true
  | .mget .. => true
  | .mpop .. => true
  | .mfirst .. => true
  | .mlow .. => true
  | .rmma .. => true
  | .rmmaStart .. => false
  | .rmmaComplete .. => false
  | .rfwd .. => true
  | .rrev .. => true
  | .rchk .. => true
  | .rbnd .. => true
  | .rzero .. => true
  | .rbget .. => true
  | .radd .. => true
  | .rsub .. => true
  | .rmov .. => true
  | .rstg .. => true
  | .rlda .. => true
  | .radds .. => true
  | .rsta .. => true
  | .accumulatorImageComplete .. => false
  | .obld .. => true
  | .obst .. => true
  | .obcp .. => true
  | .ld .. => true
  | .loadReply .. => false
  | .st .. => true
  | .vld .. => true
  | .vst .. => true
  | .atomCas .. => true
  | .atom .. => true
  | .accessPerform .. => false
  | .fence .. => true
  | .joinComplete .. => false
  | .copy .. => true
  | .gather .. => true
  | .scatter .. => true
  | .nxch .. => true
  | .engineOperationComplete .. => false
  | .beatSubtraction .. => false
  | .bara .. => true
  | .barw .. => true
  | .bari .. => true
  | .barrierWake .. => false
  | .twait .. => true
  | .ttest .. => true
  | .tdrain .. => true
  | .msend .. => true
  | .coll .. => true
  | .collComplete .. => false
  | .memberLoss .. => false
  | .launch .. => true
  | .trap .. => true
  | .svc .. => true
  | .brk .. => true
  | .uret .. => true
  | .eret .. => true
  | .wfi .. => true
  | .csrrs .. => true
  | .tlbinvAll .. => true
  | .tlbinvAsid .. => true
  | .tlbinvPage .. => true
  | .tlbinvVa .. => true
  | .ssave .. => true
  | .srest .. => true
  | .binit .. => true
  | .bwb .. => true
  | .pwb .. => true
  | .route .. => false
  | .hold .. => false
  | .routec .. => false
  | .switchTransfer .. => false
  | .setc .. => false
  | .setch .. => false
  | .ldc .. => false
  | .dbnz .. => false
  | .bzc .. => false
  | .bcz .. => false
  | .bcnz .. => false
  | .jmp .. => false
  | .wait .. => false
  | .drop .. => false
  | .iend .. => false
  | .nfcWrite .. => false
  | .flagsAccess .. => false
  | .seedAccess .. => false
  | .unchkAccess .. => false
  | .rnscfgWrite .. => false
  | .rnsctlWrite .. => false
  | .sstatusWrite .. => false
  | .pmapWrite .. => false
  | .pmapxWrite .. => false
  | .asidWrite .. => false
  | .ptbaseWrite .. => false
  | .qtimeWrite .. => false
  | .budgetSelect .. => false
  | .budgetSet .. => false
  | .faultinjArm .. => false
  | .csrWrite .. => false
  | .stepInstall .. => false
  | .stepSelect .. => false
  | .stepCollective .. => false
  | .stepEnd .. => false
  | .stepComplete .. => false
  | .generatorReadIssue .. => false
  | .generatorPush .. => false
  | .quiescent .. => false
  | .taskMessageTake .. => false
  | .hintedWalkStep .. => false
  | .taskDispatch .. => false
  | .spillToQueue .. => false
  | .drainComplete .. => false
  | .coherenceRead .. => false
  | .ownershipRequest .. => false
  | .homeLoad .. => false
  | .homeStoreOrAtomic .. => false
  | .invalidation .. => false
  | .transactionEnd .. => false
  | .rdcEviction .. => false
  | .writeBackAcknowledgement .. => false
  | .l2Eviction .. => false
  | .sealCacheFill .. => false
  | .sealCacheEviction .. => false
  | .pageTableWalk .. => false
  | .accessRetry .. => false
  | .deferredAccessFault .. => false
  | .eventTake .. => false
  | .taskOverrun .. => false
  | .schedulingPass .. => false
  | .dispatch .. => false
  | .capture .. => false
  | .drainLimitExpiry .. => false
  | .resume .. => false
  | .taskGridEnd .. => false
  | .budgetPeriod .. => false
  | .cmdPreemptionSave .. => false
  | .cmdEndWork .. => false
  | .cmdDiscardSave .. => false
  | .cmdUnknownOp .. => false
  | .syndromeQueueMove .. => false
  | .linkFlitReplay .. => false
  | .linkFlitLost .. => false
  | .portRetrain .. => false
  | .portTrainingComplete .. => false
  | .packageLost .. => false
  | .rowActivationBackoff .. => false
  | .watchdogExpiry .. => false
  | .powerOrClockFault .. => false
  | .baseDieUncorrectable .. => false
  | .powerGate .. => false
  | .dieWake .. => false
  | .keyInstall .. => false
  | .keyDrop .. => false
  | .keySeal .. => false
  | .partCreate .. => false
  | .partStart .. => false
  | .partDestroy .. => false
  | .modeSet .. => false
  | .routeSet .. => false
  | .groupForm .. => false
  | .groupFormed .. => false
  | .groupFormTimeout .. => false
  | .groupDrop .. => false
  | .blockInit .. => false
  | .attestIdentity .. => false
  | .attestReport .. => false
  | .keyShareGrant .. => false
  | .keyShareRevoke .. => false
  | .mgmtUnknownOp .. => false
  | .launchWindowWrite .. => false
  | .vaptAccess .. => false
  | .paptAccess .. => false
  | .watchVector .. => false
  | .perstAssert .. => false
  | .hotReset .. => false
  | .pf0FunctionLevelReset .. => false
  | .vfFunctionLevelReset .. => false
  | .packageResetRequest .. => false
  | .logClear .. => false
  | .checkpointSave .. => false
  | .checkpointRestore .. => false
  | .undefinedEncoding .. => false
  | .undefinedSwitchWord .. => false
  | .hawserRetrainFailure .. => false
  | .portDown .. => false
  | .portTrainingStart .. => false
  | .checkpointComplete .. => false
  | .resetPhaseComplete .. => false

/-- A switch word: a row with a 16-bit encoding. -/
def Instr.isSwitch : Instr → Bool
  | .add .. => false
  | .sub .. => false
  | .and .. => false
  | .or .. => false
  | .xor .. => false
  | .andn .. => false
  | .sll .. => false
  | .srl .. => false
  | .sra .. => false
  | .min .. => false
  | .max .. => false
  | .minu .. => false
  | .maxu .. => false
  | .mul .. => false
  | .mulh .. => false
  | .mulhu .. => false
  | .div .. => false
  | .divu .. => false
  | .rem .. => false
  | .remu .. => false
  | .clz .. => false
  | .ctz .. => false
  | .popc .. => false
  | .addi .. => false
  | .andi .. => false
  | .ori .. => false
  | .xori .. => false
  | .slli .. => false
  | .srli .. => false
  | .srai .. => false
  | .cmpi .. => false
  | .limm .. => false
  | .cmp .. => false
  | .pand .. => false
  | .por .. => false
  | .pxor .. => false
  | .pandn .. => false
  | .pnot .. => false
  | .pnz .. => false
  | .pget .. => false
  | .br .. => false
  | .jalr .. => false
  | .texit .. => false
  | .itend .. => false
  | .csrrw .. => false
  | .csrrc .. => false
  | .widx .. => false
  | .rep .. => false
  | .repeatPass .. => false
  | .lea .. => false
  | .lpc .. => false
  | .lwin .. => false
  | .vaddI32 .. => false
  | .vsubI32 .. => false
  | .vandI32 .. => false
  | .vorI32 .. => false
  | .vxorI32 .. => false
  | .vandnI32 .. => false
  | .vsllI32 .. => false
  | .vsrlN32 .. => false
  | .vsraI32 .. => false
  | .vminI32 .. => false
  | .vmaxI32 .. => false
  | .vminN32 .. => false
  | .vmaxN32 .. => false
  | .vmulI32 .. => false
  | .vmulhI32 .. => false
  | .vmulhN32 .. => false
  | .vaddsI32 .. => false
  | .vaddsN32 .. => false
  | .vsubsI32 .. => false
  | .vsubsN32 .. => false
  | .vabsI32 .. => false
  | .vclzN32 .. => false
  | .vpopcN32 .. => false
  | .vaddF .. => false
  | .vsubF .. => false
  | .vmulF .. => false
  | .vminF .. => false
  | .vmaxF .. => false
  | .vdiv .. => false
  | .vsqrt .. => false
  | .vfma .. => false
  | .vfnma .. => false
  | .vdot2 .. => false
  | .vdot2n .. => false
  | .vcmp .. => false
  | .vcvtI32F32 .. => false
  | .vcvtN32F32 .. => false
  | .vcvtF32I32 .. => false
  | .vcvtF32N32 .. => false
  | .vcvtF16F32 .. => false
  | .vcvtBf16F32 .. => false
  | .vcvtF32F16 .. => false
  | .vcvtF32Bf16 .. => false
  | .vrint .. => false
  | .vupk4 .. => false
  | .vpk4 .. => false
  | .vupk6 .. => false
  | .vpk6 .. => false
  | .vdec .. => false
  | .vdecs .. => false
  | .venc .. => false
  | .vtbl .. => false
  | .vbexp .. => false
  | .valign .. => false
  | .vscale .. => false
  | .vsumF .. => false
  | .vrminF .. => false
  | .vrmaxF .. => false
  | .vsumI32 .. => false
  | .vsumN32 .. => false
  | .vrminI32 .. => false
  | .vrmaxI32 .. => false
  | .vrminN32 .. => false
  | .vrmaxN32 .. => false
  | .vperm .. => false
  | .vrot .. => false
  | .vslu .. => false
  | .vsld .. => false
  | .vrev .. => false
  | .vhswap .. => false
  | .vpkl .. => false
  | .vpkh .. => false
  | .vmov .. => false
  | .vsplatI32 .. => false
  | .vsplatI64 .. => false
  | .vins .. => false
  | .vextN32 .. => false
  | .vextI32 .. => false
  | .vsel .. => false
  | .vabsF32 .. => false
  | .vnegF32 .. => false
  | .vabsF16 .. => false
  | .vnegF16 .. => false
  | .gset .. => false
  | .gget .. => false
  | .vabsBf16 .. => false
  | .vnegBf16 .. => false
  | .mand .. => false
  | .mor .. => false
  | .mxor .. => false
  | .mandn .. => false
  | .mnot .. => false
  | .mset .. => false
  | .mget .. => false
  | .mpop .. => false
  | .mfirst .. => false
  | .mlow .. => false
  | .rmma .. => false
  | .rmmaStart .. => false
  | .rmmaComplete .. => false
  | .rfwd .. => false
  | .rrev .. => false
  | .rchk .. => false
  | .rbnd .. => false
  | .rzero .. => false
  | .rbget .. => false
  | .radd .. => false
  | .rsub .. => false
  | .rmov .. => false
  | .rstg .. => false
  | .rlda .. => false
  | .radds .. => false
  | .rsta .. => false
  | .accumulatorImageComplete .. => false
  | .obld .. => false
  | .obst .. => false
  | .obcp .. => false
  | .ld .. => false
  | .loadReply .. => false
  | .st .. => false
  | .vld .. => false
  | .vst .. => false
  | .atomCas .. => false
  | .atom .. => false
  | .accessPerform .. => false
  | .fence .. => false
  | .joinComplete .. => false
  | .copy .. => false
  | .gather .. => false
  | .scatter .. => false
  | .nxch .. => false
  | .engineOperationComplete .. => false
  | .beatSubtraction .. => false
  | .bara .. => false
  | .barw .. => false
  | .bari .. => false
  | .barrierWake .. => false
  | .twait .. => false
  | .ttest .. => false
  | .tdrain .. => false
  | .msend .. => false
  | .coll .. => false
  | .collComplete .. => false
  | .memberLoss .. => false
  | .launch .. => false
  | .trap .. => false
  | .svc .. => false
  | .brk .. => false
  | .uret .. => false
  | .eret .. => false
  | .wfi .. => false
  | .csrrs .. => false
  | .tlbinvAll .. => false
  | .tlbinvAsid .. => false
  | .tlbinvPage .. => false
  | .tlbinvVa .. => false
  | .ssave .. => false
  | .srest .. => false
  | .binit .. => false
  | .bwb .. => false
  | .pwb .. => false
  | .route .. => true
  | .hold .. => true
  | .routec .. => true
  | .switchTransfer .. => false
  | .setc .. => true
  | .setch .. => true
  | .ldc .. => true
  | .dbnz .. => true
  | .bzc .. => true
  | .bcz .. => true
  | .bcnz .. => true
  | .jmp .. => true
  | .wait .. => true
  | .drop .. => true
  | .iend .. => true
  | .nfcWrite .. => false
  | .flagsAccess .. => false
  | .seedAccess .. => false
  | .unchkAccess .. => false
  | .rnscfgWrite .. => false
  | .rnsctlWrite .. => false
  | .sstatusWrite .. => false
  | .pmapWrite .. => false
  | .pmapxWrite .. => false
  | .asidWrite .. => false
  | .ptbaseWrite .. => false
  | .qtimeWrite .. => false
  | .budgetSelect .. => false
  | .budgetSet .. => false
  | .faultinjArm .. => false
  | .csrWrite .. => false
  | .stepInstall .. => false
  | .stepSelect .. => false
  | .stepCollective .. => false
  | .stepEnd .. => false
  | .stepComplete .. => false
  | .generatorReadIssue .. => false
  | .generatorPush .. => false
  | .quiescent .. => false
  | .taskMessageTake .. => false
  | .hintedWalkStep .. => false
  | .taskDispatch .. => false
  | .spillToQueue .. => false
  | .drainComplete .. => false
  | .coherenceRead .. => false
  | .ownershipRequest .. => false
  | .homeLoad .. => false
  | .homeStoreOrAtomic .. => false
  | .invalidation .. => false
  | .transactionEnd .. => false
  | .rdcEviction .. => false
  | .writeBackAcknowledgement .. => false
  | .l2Eviction .. => false
  | .sealCacheFill .. => false
  | .sealCacheEviction .. => false
  | .pageTableWalk .. => false
  | .accessRetry .. => false
  | .deferredAccessFault .. => false
  | .eventTake .. => false
  | .taskOverrun .. => false
  | .schedulingPass .. => false
  | .dispatch .. => false
  | .capture .. => false
  | .drainLimitExpiry .. => false
  | .resume .. => false
  | .taskGridEnd .. => false
  | .budgetPeriod .. => false
  | .cmdPreemptionSave .. => false
  | .cmdEndWork .. => false
  | .cmdDiscardSave .. => false
  | .cmdUnknownOp .. => false
  | .syndromeQueueMove .. => false
  | .linkFlitReplay .. => false
  | .linkFlitLost .. => false
  | .portRetrain .. => false
  | .portTrainingComplete .. => false
  | .packageLost .. => false
  | .rowActivationBackoff .. => false
  | .watchdogExpiry .. => false
  | .powerOrClockFault .. => false
  | .baseDieUncorrectable .. => false
  | .powerGate .. => false
  | .dieWake .. => false
  | .keyInstall .. => false
  | .keyDrop .. => false
  | .keySeal .. => false
  | .partCreate .. => false
  | .partStart .. => false
  | .partDestroy .. => false
  | .modeSet .. => false
  | .routeSet .. => false
  | .groupForm .. => false
  | .groupFormed .. => false
  | .groupFormTimeout .. => false
  | .groupDrop .. => false
  | .blockInit .. => false
  | .attestIdentity .. => false
  | .attestReport .. => false
  | .keyShareGrant .. => false
  | .keyShareRevoke .. => false
  | .mgmtUnknownOp .. => false
  | .launchWindowWrite .. => false
  | .vaptAccess .. => false
  | .paptAccess .. => false
  | .watchVector .. => false
  | .perstAssert .. => false
  | .hotReset .. => false
  | .pf0FunctionLevelReset .. => false
  | .vfFunctionLevelReset .. => false
  | .packageResetRequest .. => false
  | .logClear .. => false
  | .checkpointSave .. => false
  | .checkpointRestore .. => false
  | .undefinedEncoding .. => false
  | .undefinedSwitchWord .. => false
  | .hawserRetrainFailure .. => false
  | .portDown .. => false
  | .portTrainingStart .. => false
  | .checkpointComplete .. => false
  | .resetPhaseComplete .. => false

end Sys2Proof
end

