-- ==== Sys2Proof/Decode.lean ====
section
/-!
DEFINITION. The decoder, total on any word and any bytes, rejecting by name, and the encoder.

A core word is 32 bits (08 R170) and a switch word 16 bits (13 R290), both little-endian in memory (00 R4). A word whose major
opcode or function code is unassigned is rejected as `undefOp`; a word of an assigned code with a non-zero reserved field, a
register that does not exist, a reserved semantics, scope or token value is rejected as `rsvdField` (08 R175, R176 rows 1 and 3).
-/
namespace Sys2Proof

/-- Why a word is no instruction (08 R175; 13 R294). -/
inductive DecodeError where
  /-- UNDEF_OP: an illegal or reserved major opcode or an unassigned function code -/
  | undefOp
  /-- RSVD_FIELD: a non-zero reserved field, a register that does not exist, or a reserved value of a field -/
  | rsvdField
  /-- not 2 or 4 bytes: no instruction word -/
  | badLength
  deriving DecidableEq, Repr

/-- The field of `len` bits from bit `lo` of a word (00 R3). -/
def bits (w lo len : Nat) : Nat := w / 2 ^ lo % 2 ^ len

/-- A field as a bit vector. -/
def field (w lo len : Nat) : BitVec len := BitVec.ofNat len (bits w lo len)

/-- Accept an instruction whose reserved bits are zero and whose fields are well formed. -/
def accept (reservedZero : Bool) (i : Instr) : Except DecodeError Instr :=
  if reservedZero && i.wf then .ok i else .error .rsvdField

/-- Major opcode 0x01 (08 Table 8-6). -/
def decodeOp01 (w : Nat) : Except DecodeError Instr :=
  match bits w 0 8 with
  | 0 => accept (true) (.add (field w 23 3) (field w 18 5) (field w 13 5) (field w 8 5))
  | 1 => accept (true) (.sub (field w 23 3) (field w 18 5) (field w 13 5) (field w 8 5))
  | 2 => accept (true) (.and (field w 23 3) (field w 18 5) (field w 13 5) (field w 8 5))
  | 3 => accept (true) (.or (field w 23 3) (field w 18 5) (field w 13 5) (field w 8 5))
  | 4 => accept (true) (.xor (field w 23 3) (field w 18 5) (field w 13 5) (field w 8 5))
  | 5 => accept (true) (.andn (field w 23 3) (field w 18 5) (field w 13 5) (field w 8 5))
  | 8 => accept (true) (.sll (field w 23 3) (field w 18 5) (field w 13 5) (field w 8 5))
  | 9 => accept (true) (.srl (field w 23 3) (field w 18 5) (field w 13 5) (field w 8 5))
  | 10 => accept (true) (.sra (field w 23 3) (field w 18 5) (field w 13 5) (field w 8 5))
  | 16 => accept (true) (.min (field w 23 3) (field w 18 5) (field w 13 5) (field w 8 5))
  | 17 => accept (true) (.max (field w 23 3) (field w 18 5) (field w 13 5) (field w 8 5))
  | 18 => accept (true) (.minu (field w 23 3) (field w 18 5) (field w 13 5) (field w 8 5))
  | 19 => accept (true) (.maxu (field w 23 3) (field w 18 5) (field w 13 5) (field w 8 5))
  | 24 => accept (true) (.mul (field w 23 3) (field w 18 5) (field w 13 5) (field w 8 5))
  | 25 => accept (true) (.mulh (field w 23 3) (field w 18 5) (field w 13 5) (field w 8 5))
  | 26 => accept (true) (.mulhu (field w 23 3) (field w 18 5) (field w 13 5) (field w 8 5))
  | 28 => accept (true) (.div (field w 23 3) (field w 18 5) (field w 13 5) (field w 8 5))
  | 29 => accept (true) (.divu (field w 23 3) (field w 18 5) (field w 13 5) (field w 8 5))
  | 30 => accept (true) (.rem (field w 23 3) (field w 18 5) (field w 13 5) (field w 8 5))
  | 31 => accept (true) (.remu (field w 23 3) (field w 18 5) (field w 13 5) (field w 8 5))
  | 32 => accept (bits w 8 5 == 0) (.clz (field w 23 3) (field w 18 5) (field w 13 5))
  | 33 => accept (bits w 8 5 == 0) (.ctz (field w 23 3) (field w 18 5) (field w 13 5))
  | 34 => accept (bits w 8 5 == 0) (.popc (field w 23 3) (field w 18 5) (field w 13 5))
  | _ => .error .undefOp

/-- Major opcode 0x02 (08 Table 8-6). -/
def decodeOp02 (w : Nat) : Except DecodeError Instr :=
  accept (true) (.addi (field w 23 3) (field w 18 5) (field w 13 5) (field w 0 13))

/-- Major opcode 0x03 (08 Table 8-6). -/
def decodeOp03 (w : Nat) : Except DecodeError Instr :=
  accept (true) (.andi (field w 23 3) (field w 18 5) (field w 13 5) (field w 0 13))

/-- Major opcode 0x04 (08 Table 8-6). -/
def decodeOp04 (w : Nat) : Except DecodeError Instr :=
  accept (true) (.ori (field w 23 3) (field w 18 5) (field w 13 5) (field w 0 13))

/-- Major opcode 0x05 (08 Table 8-6). -/
def decodeOp05 (w : Nat) : Except DecodeError Instr :=
  accept (true) (.xori (field w 23 3) (field w 18 5) (field w 13 5) (field w 0 13))

/-- Major opcode 0x06 (08 Table 8-6). -/
def decodeOp06 (w : Nat) : Except DecodeError Instr :=
  match bits w 11 2 with
  | 0 => accept (bits w 6 5 == 0) (.slli (field w 23 3) (field w 18 5) (field w 13 5) (field w 0 6))
  | 1 => accept (bits w 6 5 == 0) (.srli (field w 23 3) (field w 18 5) (field w 13 5) (field w 0 6))
  | 2 => accept (bits w 6 5 == 0) (.srai (field w 23 3) (field w 18 5) (field w 13 5) (field w 0 6))
  | _ => .error .undefOp

/-- Major opcode 0x07 (08 Table 8-6). -/
def decodeOp07 (w : Nat) : Except DecodeError Instr :=
  accept (true) (.cmpi (field w 23 3) (field w 18 5) (field w 13 5) (field w 10 3) (field w 0 10))

/-- Major opcode 0x08 (08 Table 8-6). -/
def decodeOp08 (w : Nat) : Except DecodeError Instr :=
  accept (true) (.limm (field w 23 3) (field w 18 5) (field w 16 2) (field w 0 16))

/-- Major opcode 0x09 (08 Table 8-6). -/
def decodeOp09 (w : Nat) : Except DecodeError Instr :=
  match bits w 3 5 with
  | 0 => if bits w 0 3 != 7 then accept (true) (.cmp (field w 23 3) (field w 18 5) (field w 13 5) (field w 8 5) (field w 0 3)) else .error .undefOp
  | _ => .error .undefOp

/-- Major opcode 0x0A (08 Table 8-6). -/
def decodeOp0A (w : Nat) : Except DecodeError Instr :=
  match bits w 0 8 with
  | 0 => accept (true) (.pand (field w 23 3) (field w 18 5) (field w 13 5) (field w 8 5))
  | 1 => accept (true) (.por (field w 23 3) (field w 18 5) (field w 13 5) (field w 8 5))
  | 2 => accept (true) (.pxor (field w 23 3) (field w 18 5) (field w 13 5) (field w 8 5))
  | 3 => accept (true) (.pandn (field w 23 3) (field w 18 5) (field w 13 5) (field w 8 5))
  | 4 => accept (bits w 8 5 == 0) (.pnot (field w 23 3) (field w 18 5) (field w 13 5))
  | 5 => accept (bits w 8 5 == 0) (.pnz (field w 23 3) (field w 18 5) (field w 13 5))
  | 6 => accept (bits w 8 5 == 0) (.pget (field w 23 3) (field w 18 5) (field w 13 5))
  | _ => .error .undefOp

/-- Major opcode 0x0B (08 Table 8-6). -/
def decodeOp0B (w : Nat) : Except DecodeError Instr :=
  accept (true) (.br (field w 23 3) (field w 0 23))

/-- Major opcode 0x0C (08 Table 8-6). -/
def decodeOp0C (w : Nat) : Except DecodeError Instr :=
  match bits w 0 8 with
  | 0 => accept (bits w 8 5 == 0) (.jalr (field w 23 3) (field w 18 5) (field w 13 5))
  | 1 => accept (bits w 8 15 == 0) (.texit (field w 23 3))
  | 2 => accept (bits w 8 15 == 0) (.itend (field w 23 3))
  | _ => .error .undefOp

/-- Major opcode 0x0D (08 Table 8-6). -/
def decodeOp0D (w : Nat) : Except DecodeError Instr :=
  match bits w 11 2 with
  | 0 => accept (true) (.csrrw (field w 23 3) (field w 18 5) (field w 13 5) (field w 0 11))
  | 1 => accept (true) (.csrrc (field w 23 3) (field w 18 5) (field w 13 5) (field w 0 11))
  | 2 => accept (bits w 4 7 == 0) (.widx (field w 23 3) (field w 18 5) (field w 13 5) (field w 3 1) (field w 0 3))
  | _ => .error .undefOp

/-- Major opcode 0x0E (08 Table 8-6). -/
def decodeOp0E (w : Nat) : Except DecodeError Instr :=
  accept (bits w 12 1 == 0) (.rep (field w 23 3) (field w 18 5) (field w 13 5) (field w 8 4) (field w 4 4) (field w 0 4))

/-- Major opcode 0x0F (08 Table 8-6). -/
def decodeOp0F (w : Nat) : Except DecodeError Instr :=
  match bits w 0 3 with
  | 0 => accept (true) (.lea (field w 23 3) (field w 18 5) (field w 13 5) (field w 8 5) (field w 3 5))
  | 1 => accept (true) (.lpc (field w 23 3) (field w 18 5) (field w 3 15))
  | 2 => accept (bits w 8 5 == 0) (.lwin (field w 23 3) (field w 18 5) (field w 13 5) (field w 3 5))
  | _ => .error .undefOp

/-- Major opcode 0x10 (08 Table 8-6). -/
def decodeOp10 (w : Nat) : Except DecodeError Instr :=
  match bits w 0 5 with
  | 0 => accept (true) (.vaddI32 (field w 23 3) (field w 18 5) (field w 13 5) (field w 8 5) (field w 5 3))
  | 1 => accept (true) (.vsubI32 (field w 23 3) (field w 18 5) (field w 13 5) (field w 8 5) (field w 5 3))
  | 2 => accept (true) (.vandI32 (field w 23 3) (field w 18 5) (field w 13 5) (field w 8 5) (field w 5 3))
  | 3 => accept (true) (.vorI32 (field w 23 3) (field w 18 5) (field w 13 5) (field w 8 5) (field w 5 3))
  | 4 => accept (true) (.vxorI32 (field w 23 3) (field w 18 5) (field w 13 5) (field w 8 5) (field w 5 3))
  | 5 => accept (true) (.vandnI32 (field w 23 3) (field w 18 5) (field w 13 5) (field w 8 5) (field w 5 3))
  | 6 => accept (true) (.vsllI32 (field w 23 3) (field w 18 5) (field w 13 5) (field w 8 5) (field w 5 3))
  | 7 => accept (true) (.vsrlN32 (field w 23 3) (field w 18 5) (field w 13 5) (field w 8 5) (field w 5 3))
  | 8 => accept (true) (.vsraI32 (field w 23 3) (field w 18 5) (field w 13 5) (field w 8 5) (field w 5 3))
  | 9 => accept (true) (.vminI32 (field w 23 3) (field w 18 5) (field w 13 5) (field w 8 5) (field w 5 3))
  | 10 => accept (true) (.vmaxI32 (field w 23 3) (field w 18 5) (field w 13 5) (field w 8 5) (field w 5 3))
  | 11 => accept (true) (.vminN32 (field w 23 3) (field w 18 5) (field w 13 5) (field w 8 5) (field w 5 3))
  | 12 => accept (true) (.vmaxN32 (field w 23 3) (field w 18 5) (field w 13 5) (field w 8 5) (field w 5 3))
  | 13 => accept (true) (.vmulI32 (field w 23 3) (field w 18 5) (field w 13 5) (field w 8 5) (field w 5 3))
  | 14 => accept (true) (.vmulhI32 (field w 23 3) (field w 18 5) (field w 13 5) (field w 8 5) (field w 5 3))
  | 15 => accept (true) (.vmulhN32 (field w 23 3) (field w 18 5) (field w 13 5) (field w 8 5) (field w 5 3))
  | 16 => accept (true) (.vaddsI32 (field w 23 3) (field w 18 5) (field w 13 5) (field w 8 5) (field w 5 3))
  | 17 => accept (true) (.vaddsN32 (field w 23 3) (field w 18 5) (field w 13 5) (field w 8 5) (field w 5 3))
  | 18 => accept (true) (.vsubsI32 (field w 23 3) (field w 18 5) (field w 13 5) (field w 8 5) (field w 5 3))
  | 19 => accept (true) (.vsubsN32 (field w 23 3) (field w 18 5) (field w 13 5) (field w 8 5) (field w 5 3))
  | 20 => accept (bits w 8 5 == 0) (.vabsI32 (field w 23 3) (field w 18 5) (field w 13 5) (field w 5 3))
  | 21 => accept (bits w 8 5 == 0) (.vclzN32 (field w 23 3) (field w 18 5) (field w 13 5) (field w 5 3))
  | 22 => accept (bits w 8 5 == 0) (.vpopcN32 (field w 23 3) (field w 18 5) (field w 13 5) (field w 5 3))
  | _ => .error .undefOp

/-- Major opcode 0x11 (08 Table 8-6). -/
def decodeOp11 (w : Nat) : Except DecodeError Instr :=
  match bits w 0 3 with
  | 0 => if bits w 3 2 != 3 then accept (true) (.vaddF (field w 23 3) (field w 18 5) (field w 13 5) (field w 8 5) (field w 5 3) (field w 3 2)) else .error .undefOp
  | 1 => if bits w 3 2 != 3 then accept (true) (.vsubF (field w 23 3) (field w 18 5) (field w 13 5) (field w 8 5) (field w 5 3) (field w 3 2)) else .error .undefOp
  | 2 => if bits w 3 2 != 3 then accept (true) (.vmulF (field w 23 3) (field w 18 5) (field w 13 5) (field w 8 5) (field w 5 3) (field w 3 2)) else .error .undefOp
  | 3 => if bits w 3 2 != 3 then accept (true) (.vminF (field w 23 3) (field w 18 5) (field w 13 5) (field w 8 5) (field w 5 3) (field w 3 2)) else .error .undefOp
  | 4 => if bits w 3 2 != 3 then accept (true) (.vmaxF (field w 23 3) (field w 18 5) (field w 13 5) (field w 8 5) (field w 5 3) (field w 3 2)) else .error .undefOp
  | 5 => if bits w 3 2 != 3 then accept (true) (.vdiv (field w 23 3) (field w 18 5) (field w 13 5) (field w 8 5) (field w 5 3) (field w 3 2)) else .error .undefOp
  | 6 => if bits w 3 2 != 3 then accept (bits w 8 5 == 0) (.vsqrt (field w 23 3) (field w 18 5) (field w 13 5) (field w 5 3) (field w 3 2)) else .error .undefOp
  | _ => .error .undefOp

/-- Major opcode 0x12 (08 Table 8-6). -/
def decodeOp12 (w : Nat) : Except DecodeError Instr :=
  match bits w 0 3 with
  | 6 => accept (bits w 0 3 == 6) (.vdot2 (field w 23 3) (field w 18 5) (field w 13 5) (field w 8 5) (field w 3 5))
  | 7 => accept (bits w 0 3 == 7) (.vdot2n (field w 23 3) (field w 18 5) (field w 13 5) (field w 8 5) (field w 3 5))
  | n => if n % 2 = 0 then if bits w 1 2 != 3 then accept (bits w 0 1 == 0) (.vfma (field w 23 3) (field w 18 5) (field w 13 5) (field w 8 5) (field w 3 5) (field w 1 2)) else .error .undefOp else if bits w 1 2 != 3 then accept (bits w 0 1 == 1) (.vfnma (field w 23 3) (field w 18 5) (field w 13 5) (field w 8 5) (field w 3 5) (field w 1 2)) else .error .undefOp

/-- Major opcode 0x13 (08 Table 8-6). -/
def decodeOp13 (w : Nat) : Except DecodeError Instr :=
  if (bits w 3 2 != 3 && bits w 0 3 != 7 && !(bits w 0 3 == 6 && bits w 3 2 != 2)) then accept (true) (.vcmp (field w 23 3) (field w 18 5) (field w 13 5) (field w 8 5) (field w 5 3) (field w 3 2) (field w 0 3)) else .error .undefOp

/-- Major opcode 0x14 (08 Table 8-6). -/
def decodeOp14 (w : Nat) : Except DecodeError Instr :=
  match bits w 0 5 with
  | 0 => accept (bits w 8 5 == 0) (.vcvtI32F32 (field w 23 3) (field w 18 5) (field w 13 5) (field w 5 3))
  | 1 => accept (bits w 8 5 == 0) (.vcvtN32F32 (field w 23 3) (field w 18 5) (field w 13 5) (field w 5 3))
  | 2 => accept (bits w 8 5 == 0) (.vcvtF32I32 (field w 23 3) (field w 18 5) (field w 13 5) (field w 5 3))
  | 3 => accept (bits w 8 5 == 0) (.vcvtF32N32 (field w 23 3) (field w 18 5) (field w 13 5) (field w 5 3))
  | 4 => accept (bits w 8 5 == 0) (.vcvtF16F32 (field w 23 3) (field w 18 5) (field w 13 5) (field w 5 3) (field w 0 1))
  | 5 => accept (bits w 8 5 == 0) (.vcvtF16F32 (field w 23 3) (field w 18 5) (field w 13 5) (field w 5 3) (field w 0 1))
  | 6 => accept (bits w 8 5 == 0) (.vcvtBf16F32 (field w 23 3) (field w 18 5) (field w 13 5) (field w 5 3) (field w 0 1))
  | 7 => accept (bits w 8 5 == 0) (.vcvtBf16F32 (field w 23 3) (field w 18 5) (field w 13 5) (field w 5 3) (field w 0 1))
  | 8 => accept (bits w 8 5 == 0) (.vcvtF32F16 (field w 23 3) (field w 18 5) (field w 13 5) (field w 5 3) (field w 0 1))
  | 9 => accept (bits w 8 5 == 0) (.vcvtF32F16 (field w 23 3) (field w 18 5) (field w 13 5) (field w 5 3) (field w 0 1))
  | 10 => accept (bits w 8 5 == 0) (.vcvtF32Bf16 (field w 23 3) (field w 18 5) (field w 13 5) (field w 5 3) (field w 0 1))
  | 11 => accept (bits w 8 5 == 0) (.vcvtF32Bf16 (field w 23 3) (field w 18 5) (field w 13 5) (field w 5 3) (field w 0 1))
  | 12 => accept (bits w 8 5 == 0) (.vrint (field w 23 3) (field w 18 5) (field w 13 5) (field w 5 3))
  | 16 => accept (bits w 5 8 == 0) (.vupk4 (field w 23 3) (field w 18 5) (field w 13 5) (field w 0 1))
  | 17 => accept (bits w 5 8 == 0) (.vupk4 (field w 23 3) (field w 18 5) (field w 13 5) (field w 0 1))
  | 18 => accept (bits w 5 8 == 0) (.vpk4 (field w 23 3) (field w 18 5) (field w 13 5) (field w 0 1))
  | 19 => accept (bits w 5 8 == 0) (.vpk4 (field w 23 3) (field w 18 5) (field w 13 5) (field w 0 1))
  | 20 => accept (bits w 5 8 == 0) (.vupk6 (field w 23 3) (field w 18 5) (field w 13 5))
  | 21 => accept (bits w 5 8 == 0) (.vpk6 (field w 23 3) (field w 18 5) (field w 13 5))
  | _ => .error .undefOp

/-- Major opcode 0x15 (08 Table 8-6). -/
def decodeOp15 (w : Nat) : Except DecodeError Instr :=
  match bits w 0 3 with
  | 0 => accept (bits w 8 3 == 0) (.vdec (field w 23 3) (field w 18 5) (field w 13 5) (field w 11 2) (field w 5 3) (field w 3 2))
  | 1 => accept (true) (.vdecs (field w 23 3) (field w 18 5) (field w 13 5) (field w 11 2) (field w 8 3) (field w 5 3) (field w 3 2))
  | 2 => accept (bits w 8 3 == 0) (.venc (field w 23 3) (field w 18 5) (field w 13 5) (field w 11 2) (field w 5 3) (field w 3 2))
  | 3 => accept (bits w 3 5 == 0 && bits w 11 2 == 0) (.vtbl (field w 23 3) (field w 18 5) (field w 13 5) (field w 8 3))
  | _ => .error .undefOp

/-- Major opcode 0x16 (08 Table 8-6). -/
def decodeOp16 (w : Nat) : Except DecodeError Instr :=
  match bits w 0 3 with
  | 0 => accept (bits w 8 3 == 0) (.vbexp (field w 23 3) (field w 18 5) (field w 13 5) (field w 11 2) (field w 5 3) (field w 4 1) (field w 3 1))
  | 1 => accept (bits w 3 2 == 0) (.valign (field w 23 3) (field w 18 5) (field w 13 5) (field w 11 2) (field w 8 3) (field w 5 3))
  | 2 => accept (bits w 3 1 == 0) (.vscale (field w 23 3) (field w 18 5) (field w 13 5) (field w 8 5) (field w 5 3) (field w 4 1))
  | _ => .error .undefOp

/-- Major opcode 0x17 (08 Table 8-6). -/
def decodeOp17 (w : Nat) : Except DecodeError Instr :=
  match bits w 0 5 with
  | 0 => if bits w 3 2 != 3 then accept (bits w 8 5 == 0) (.vsumF (field w 23 3) (field w 18 5) (field w 13 5) (field w 5 3) (field w 3 2)) else .error .undefOp
  | 8 => if bits w 3 2 != 3 then accept (bits w 8 5 == 0) (.vsumF (field w 23 3) (field w 18 5) (field w 13 5) (field w 5 3) (field w 3 2)) else .error .undefOp
  | 16 => if bits w 3 2 != 3 then accept (bits w 8 5 == 0) (.vsumF (field w 23 3) (field w 18 5) (field w 13 5) (field w 5 3) (field w 3 2)) else .error .undefOp
  | 1 => if bits w 3 2 != 3 then accept (bits w 8 5 == 0) (.vrminF (field w 23 3) (field w 18 5) (field w 13 5) (field w 5 3) (field w 3 2)) else .error .undefOp
  | 9 => if bits w 3 2 != 3 then accept (bits w 8 5 == 0) (.vrminF (field w 23 3) (field w 18 5) (field w 13 5) (field w 5 3) (field w 3 2)) else .error .undefOp
  | 17 => if bits w 3 2 != 3 then accept (bits w 8 5 == 0) (.vrminF (field w 23 3) (field w 18 5) (field w 13 5) (field w 5 3) (field w 3 2)) else .error .undefOp
  | 2 => if bits w 3 2 != 3 then accept (bits w 8 5 == 0) (.vrmaxF (field w 23 3) (field w 18 5) (field w 13 5) (field w 5 3) (field w 3 2)) else .error .undefOp
  | 10 => if bits w 3 2 != 3 then accept (bits w 8 5 == 0) (.vrmaxF (field w 23 3) (field w 18 5) (field w 13 5) (field w 5 3) (field w 3 2)) else .error .undefOp
  | 18 => if bits w 3 2 != 3 then accept (bits w 8 5 == 0) (.vrmaxF (field w 23 3) (field w 18 5) (field w 13 5) (field w 5 3) (field w 3 2)) else .error .undefOp
  | 24 => accept (bits w 8 5 == 0) (.vsumI32 (field w 23 3) (field w 18 5) (field w 13 5) (field w 5 3))
  | 25 => accept (bits w 8 5 == 0) (.vsumN32 (field w 23 3) (field w 18 5) (field w 13 5) (field w 5 3))
  | 26 => accept (bits w 8 5 == 0) (.vrminI32 (field w 23 3) (field w 18 5) (field w 13 5) (field w 5 3))
  | 27 => accept (bits w 8 5 == 0) (.vrmaxI32 (field w 23 3) (field w 18 5) (field w 13 5) (field w 5 3))
  | 28 => accept (bits w 8 5 == 0) (.vrminN32 (field w 23 3) (field w 18 5) (field w 13 5) (field w 5 3))
  | 29 => accept (bits w 8 5 == 0) (.vrmaxN32 (field w 23 3) (field w 18 5) (field w 13 5) (field w 5 3))
  | _ => .error .undefOp

/-- Major opcode 0x18 (08 Table 8-6). -/
def decodeOp18 (w : Nat) : Except DecodeError Instr :=
  match bits w 0 5 with
  | 0 => accept (true) (.vperm (field w 23 3) (field w 18 5) (field w 13 5) (field w 8 5) (field w 5 3))
  | 1 => accept (true) (.vrot (field w 23 3) (field w 18 5) (field w 13 5) (field w 8 5) (field w 5 3))
  | 2 => accept (true) (.vslu (field w 23 3) (field w 18 5) (field w 13 5) (field w 8 5) (field w 5 3))
  | 3 => accept (true) (.vsld (field w 23 3) (field w 18 5) (field w 13 5) (field w 8 5) (field w 5 3))
  | 4 => accept (bits w 8 5 == 0) (.vrev (field w 23 3) (field w 18 5) (field w 13 5) (field w 5 3))
  | 5 => accept (bits w 8 5 == 0) (.vhswap (field w 23 3) (field w 18 5) (field w 13 5) (field w 5 3))
  | 6 => accept (true) (.vpkl (field w 23 3) (field w 18 5) (field w 13 5) (field w 8 5) (field w 5 3))
  | 7 => accept (true) (.vpkh (field w 23 3) (field w 18 5) (field w 13 5) (field w 8 5) (field w 5 3))
  | _ => .error .undefOp

/-- Major opcode 0x19 (08 Table 8-6). -/
def decodeOp19 (w : Nat) : Except DecodeError Instr :=
  match bits w 0 5 with
  | 0 => accept (bits w 8 5 == 0) (.vmov (field w 23 3) (field w 18 5) (field w 13 5) (field w 5 3))
  | 1 => accept (bits w 8 5 == 0) (.vsplatI32 (field w 23 3) (field w 18 5) (field w 13 5) (field w 5 3))
  | 2 => accept (bits w 8 5 == 0) (.vsplatI64 (field w 23 3) (field w 18 5) (field w 13 5) (field w 5 3))
  | 3 => accept (bits w 5 3 == 0) (.vins (field w 23 3) (field w 18 5) (field w 13 5) (field w 8 5))
  | 4 => accept (bits w 5 3 == 0) (.vextN32 (field w 23 3) (field w 18 5) (field w 13 5) (field w 8 5))
  | 5 => accept (bits w 5 3 == 0) (.vextI32 (field w 23 3) (field w 18 5) (field w 13 5) (field w 8 5))
  | 6 => accept (true) (.vsel (field w 23 3) (field w 18 5) (field w 13 5) (field w 8 5) (field w 5 3))
  | 7 => accept (bits w 8 5 == 0) (.vabsF32 (field w 23 3) (field w 18 5) (field w 13 5) (field w 5 3))
  | 8 => accept (bits w 8 5 == 0) (.vnegF32 (field w 23 3) (field w 18 5) (field w 13 5) (field w 5 3))
  | 9 => accept (bits w 8 5 == 0) (.vabsF16 (field w 23 3) (field w 18 5) (field w 13 5) (field w 5 3))
  | 10 => accept (bits w 8 5 == 0) (.vnegF16 (field w 23 3) (field w 18 5) (field w 13 5) (field w 5 3))
  | 11 => accept (bits w 5 8 == 0) (.gset (field w 23 3) (field w 18 5) (field w 13 5))
  | 12 => accept (bits w 5 8 == 0) (.gget (field w 23 3) (field w 18 5) (field w 13 5))
  | 13 => accept (bits w 8 5 == 0) (.vabsBf16 (field w 23 3) (field w 18 5) (field w 13 5) (field w 5 3))
  | 14 => accept (bits w 8 5 == 0) (.vnegBf16 (field w 23 3) (field w 18 5) (field w 13 5) (field w 5 3))
  | _ => .error .undefOp

/-- Major opcode 0x1A (08 Table 8-6). -/
def decodeOp1A (w : Nat) : Except DecodeError Instr :=
  match bits w 0 5 with
  | 0 => accept (bits w 5 3 == 0) (.mand (field w 23 3) (field w 18 5) (field w 13 5) (field w 8 5))
  | 1 => accept (bits w 5 3 == 0) (.mor (field w 23 3) (field w 18 5) (field w 13 5) (field w 8 5))
  | 2 => accept (bits w 5 3 == 0) (.mxor (field w 23 3) (field w 18 5) (field w 13 5) (field w 8 5))
  | 3 => accept (bits w 5 3 == 0) (.mandn (field w 23 3) (field w 18 5) (field w 13 5) (field w 8 5))
  | 4 => accept (bits w 5 8 == 0) (.mnot (field w 23 3) (field w 18 5) (field w 13 5))
  | 5 => accept (bits w 5 8 == 0) (.mset (field w 23 3) (field w 18 5) (field w 13 5))
  | 6 => accept (bits w 5 8 == 0) (.mget (field w 23 3) (field w 18 5) (field w 13 5))
  | 7 => accept (bits w 5 8 == 0) (.mpop (field w 23 3) (field w 18 5) (field w 13 5))
  | 8 => accept (bits w 5 8 == 0) (.mfirst (field w 23 3) (field w 18 5) (field w 13 5))
  | 9 => accept (bits w 5 8 == 0) (.mlow (field w 23 3) (field w 18 5) (field w 13 5))
  | _ => .error .undefOp

/-- Major opcode 0x20 (08 Table 8-6). -/
def decodeOp20 (w : Nat) : Except DecodeError Instr :=
  accept (bits w 0 1 == 0) (.rmma (field w 23 3) (field w 18 5) (field w 13 5) (field w 8 5) (field w 6 2) (field w 5 1) (field w 4 1) (field w 3 1) (field w 2 1) (field w 1 1))

/-- Major opcode 0x21 (08 Table 8-6). -/
def decodeOp21 (w : Nat) : Except DecodeError Instr :=
  accept (bits w 0 4 == 0) (.rfwd (field w 23 3) (field w 18 5) (field w 13 5) (field w 8 5) (field w 6 2) (field w 5 1) (field w 4 1))

/-- Major opcode 0x22 (08 Table 8-6). -/
def decodeOp22 (w : Nat) : Except DecodeError Instr :=
  accept (bits w 1 7 == 0) (.rrev (field w 23 3) (field w 18 5) (field w 13 5) (field w 8 5) (field w 0 1))

/-- Major opcode 0x23 (08 Table 8-6). -/
def decodeOp23 (w : Nat) : Except DecodeError Instr :=
  match bits w 0 8 with
  | 0 => accept (bits w 8 5 == 0) (.rchk (field w 23 3) (field w 18 5) (field w 13 5))
  | 1 => accept (bits w 18 5 == 0) (.rbnd (field w 23 3) (field w 13 5) (field w 8 5))
  | 2 => accept (bits w 8 5 == 0 && bits w 18 5 == 0) (.rzero (field w 23 3) (field w 13 5))
  | 3 => accept (bits w 8 5 == 0) (.rbget (field w 23 3) (field w 18 5) (field w 13 5))
  | _ => .error .undefOp

/-- Major opcode 0x24 (08 Table 8-6). -/
def decodeOp24 (w : Nat) : Except DecodeError Instr :=
  match bits w 5 3 with
  | 0 => accept (bits w 0 5 == 0) (.radd (field w 23 3) (field w 18 5) (field w 13 5) (field w 8 5))
  | 1 => accept (bits w 0 5 == 0) (.rsub (field w 23 3) (field w 18 5) (field w 13 5) (field w 8 5))
  | 2 => accept (bits w 0 5 == 0 && bits w 8 5 == 0) (.rmov (field w 23 3) (field w 18 5) (field w 13 5))
  | 3 => accept (bits w 1 4 == 0 && bits w 8 5 == 0 && bits w 18 5 == 0) (.rstg (field w 23 3) (field w 13 5) (field w 0 1))
  | 4 => accept (bits w 2 3 == 0 && bits w 8 5 == 0) (.rlda (field w 23 3) (field w 18 5) (field w 13 5) (field w 0 2))
  | 5 => accept (bits w 2 3 == 0 && bits w 8 5 == 0) (.radds (field w 23 3) (field w 18 5) (field w 13 5) (field w 0 2))
  | 6 => accept (bits w 2 3 == 0 && bits w 8 5 == 0) (.rsta (field w 23 3) (field w 18 5) (field w 13 5) (field w 0 2))
  | _ => .error .undefOp

/-- Major opcode 0x25 (08 Table 8-6). -/
def decodeOp25 (w : Nat) : Except DecodeError Instr :=
  match bits w 6 2 with
  | 0 => accept (bits w 0 6 == 0 && bits w 8 5 == 0) (.obld (field w 23 3) (field w 18 5) (field w 13 5))
  | 1 => accept (bits w 0 6 == 0 && bits w 8 5 == 0) (.obst (field w 23 3) (field w 18 5) (field w 13 5))
  | 2 => accept (true) (.obcp (field w 23 3) (field w 18 5) (field w 13 5) (field w 8 5) (field w 5 1) (field w 0 5))
  | _ => .error .undefOp

/-- Major opcode 0x28 (08 Table 8-6). -/
def decodeOp28 (w : Nat) : Except DecodeError Instr :=
  accept (true) (.ld (field w 23 3) (field w 18 5) (field w 13 5) (field w 10 3) (field w 8 2) (field w 6 2) (field w 5 1) (field w 0 5))

/-- Major opcode 0x29 (08 Table 8-6). -/
def decodeOp29 (w : Nat) : Except DecodeError Instr :=
  accept (bits w 5 1 == 0) (.st (field w 23 3) (field w 18 5) (field w 13 5) (field w 10 3) (field w 8 2) (field w 6 2) (field w 0 5))

/-- Major opcode 0x2A (08 Table 8-6). -/
def decodeOp2A (w : Nat) : Except DecodeError Instr :=
  accept (bits w 5 1 == 0) (.vld (field w 23 3) (field w 18 5) (field w 13 5) (field w 10 3) (field w 8 2) (field w 6 2) (field w 0 5))

/-- Major opcode 0x2B (08 Table 8-6). -/
def decodeOp2B (w : Nat) : Except DecodeError Instr :=
  accept (bits w 5 1 == 0) (.vst (field w 23 3) (field w 18 5) (field w 13 5) (field w 10 3) (field w 8 2) (field w 6 2) (field w 0 5))

/-- Major opcode 0x2C (08 Table 8-6). -/
def decodeOp2C (w : Nat) : Except DecodeError Instr :=
  match bits w 5 1 with
  | 1 => accept (true) (.atomCas (field w 23 3) (field w 18 5) (field w 13 5) (field w 10 3) (field w 8 2) (field w 6 2) (field w 0 5))
  | 0 => accept (true) (.atom (field w 23 3) (field w 18 5) (field w 13 5) (field w 10 3) (field w 8 2) (field w 6 2) (field w 0 5))
  | _ => .error .undefOp

/-- Major opcode 0x2D (08 Table 8-6). -/
def decodeOp2D (w : Nat) : Except DecodeError Instr :=
  accept (bits w 11 12 == 0) (.fence (field w 23 3) (field w 8 3) (field w 0 8))

/-- Major opcode 0x2E (08 Table 8-6). -/
def decodeOp2E (w : Nat) : Except DecodeError Instr :=
  accept (bits w 0 2 == 0) (.copy (field w 23 3) (field w 18 5) (field w 13 5) (field w 8 5) (field w 5 3) (field w 2 3))

/-- Major opcode 0x2F (08 Table 8-6). -/
def decodeOp2F (w : Nat) : Except DecodeError Instr :=
  match bits w 0 1 with
  | 0 => accept (bits w 1 1 == 0 && bits w 8 3 == 0) (.gather (field w 23 3) (field w 18 5) (field w 13 5) (field w 11 2) (field w 5 3) (field w 2 3))
  | 1 => accept (bits w 1 1 == 0 && bits w 8 3 == 0) (.scatter (field w 23 3) (field w 18 5) (field w 13 5) (field w 11 2) (field w 5 3) (field w 2 3))
  | _ => .error .undefOp

/-- Major opcode 0x30 (08 Table 8-6). -/
def decodeOp30 (w : Nat) : Except DecodeError Instr :=
  accept (bits w 0 2 == 0) (.nxch (field w 23 3) (field w 18 5) (field w 13 5) (field w 8 5) (field w 5 3) (field w 2 3))

/-- Major opcode 0x31 (08 Table 8-6). -/
def decodeOp31 (w : Nat) : Except DecodeError Instr :=
  match bits w 3 2 with
  | 0 => accept (bits w 0 3 == 0 && bits w 8 5 == 0) (.bara (field w 23 3) (field w 18 5) (field w 13 5) (field w 5 3))
  | 1 => accept (bits w 0 3 == 0 && bits w 18 5 == 0) (.barw (field w 23 3) (field w 13 5) (field w 8 5) (field w 5 3))
  | 2 => accept (bits w 0 3 == 0 && bits w 18 5 == 0) (.bari (field w 23 3) (field w 13 5) (field w 8 5) (field w 5 3))
  | _ => .error .undefOp

/-- Major opcode 0x32 (08 Table 8-6). -/
def decodeOp32 (w : Nat) : Except DecodeError Instr :=
  match bits w 0 2 with
  | 0 => accept (bits w 2 11 == 0 && bits w 18 5 == 0) (.twait (field w 23 3) (field w 13 5))
  | 1 => accept (bits w 2 11 == 0) (.ttest (field w 23 3) (field w 18 5) (field w 13 5))
  | 2 => accept (bits w 2 21 == 0) (.tdrain (field w 23 3))
  | _ => .error .undefOp

/-- Major opcode 0x33 (08 Table 8-6). -/
def decodeOp33 (w : Nat) : Except DecodeError Instr :=
  accept (bits w 0 4 == 0 && bits w 8 5 == 0) (.msend (field w 23 3) (field w 18 5) (field w 13 5) (field w 5 3) (field w 4 1))

/-- Major opcode 0x34 (08 Table 8-6). -/
def decodeOp34 (w : Nat) : Except DecodeError Instr :=
  accept (bits w 0 13 == 0) (.coll (field w 23 3) (field w 18 5) (field w 13 5))

/-- Major opcode 0x35 (08 Table 8-6). -/
def decodeOp35 (w : Nat) : Except DecodeError Instr :=
  accept (bits w 0 5 == 0 && bits w 8 5 == 0) (.launch (field w 23 3) (field w 18 5) (field w 13 5) (field w 5 3))

/-- Major opcode 0x38 (08 Table 8-6). -/
def decodeOp38 (w : Nat) : Except DecodeError Instr :=
  match bits w 11 2 with
  | 0 => accept (bits w 18 5 == 0) (.trap (field w 23 3) (field w 13 5) (field w 0 11))
  | 1 => accept (bits w 18 5 == 0) (.svc (field w 23 3) (field w 13 5) (field w 0 11))
  | 2 => accept (bits w 18 5 == 0) (.brk (field w 23 3) (field w 13 5) (field w 0 11))
  | 3 => accept (bits w 0 11 == 0 && bits w 13 10 == 0) (.uret (field w 23 3))
  | _ => .error .undefOp

/-- Major opcode 0x39 (08 Table 8-6). -/
def decodeOp39 (w : Nat) : Except DecodeError Instr :=
  match bits w 0 8 with
  | 0 => accept (bits w 8 15 == 0) (.eret (field w 23 3))
  | 1 => accept (bits w 8 15 == 0) (.wfi (field w 23 3))
  | _ => .error .undefOp

/-- Major opcode 0x3A (08 Table 8-6). -/
def decodeOp3A (w : Nat) : Except DecodeError Instr :=
  accept (bits w 11 2 == 0) (.csrrs (field w 23 3) (field w 18 5) (field w 13 5) (field w 0 11))

/-- Major opcode 0x3B (08 Table 8-6). -/
def decodeOp3B (w : Nat) : Except DecodeError Instr :=
  match bits w 0 2 with
  | 0 => accept (bits w 2 21 == 0) (.tlbinvAll (field w 23 3))
  | 1 => accept (bits w 2 6 == 0 && bits w 13 10 == 0) (.tlbinvAsid (field w 23 3) (field w 8 5))
  | 2 => accept (bits w 4 4 == 0 && bits w 18 5 == 0) (.tlbinvPage (field w 23 3) (field w 13 5) (field w 8 5) (field w 2 2))
  | 3 => accept (bits w 4 9 == 0 && bits w 18 5 == 0) (.tlbinvVa (field w 23 3) (field w 13 5) (field w 2 2))
  | _ => .error .undefOp

/-- Major opcode 0x3C (08 Table 8-6). -/
def decodeOp3C (w : Nat) : Except DecodeError Instr :=
  match bits w 0 8 with
  | 0 => accept (bits w 8 15 == 0) (.ssave (field w 23 3))
  | 1 => accept (bits w 8 15 == 0) (.srest (field w 23 3))
  | _ => .error .undefOp

/-- Major opcode 0x3D (08 Table 8-6). -/
def decodeOp3D (w : Nat) : Except DecodeError Instr :=
  match bits w 0 8 with
  | 0 => accept (bits w 8 5 == 0 && bits w 18 5 == 0) (.binit (field w 23 3) (field w 13 5))
  | 1 => accept (bits w 8 5 == 0 && bits w 18 5 == 0) (.bwb (field w 23 3) (field w 13 5))
  | 2 => accept (bits w 8 15 == 0) (.pwb (field w 23 3))
  | _ => .error .undefOp

/-- A core word by its major opcode (08 R174, Table 8-6). -/
def decodeCore (w : Nat) : Except DecodeError Instr :=
  match bits w 26 6 with
  | 1 => decodeOp01 w
  | 2 => decodeOp02 w
  | 3 => decodeOp03 w
  | 4 => decodeOp04 w
  | 5 => decodeOp05 w
  | 6 => decodeOp06 w
  | 7 => decodeOp07 w
  | 8 => decodeOp08 w
  | 9 => decodeOp09 w
  | 10 => decodeOp0A w
  | 11 => decodeOp0B w
  | 12 => decodeOp0C w
  | 13 => decodeOp0D w
  | 14 => decodeOp0E w
  | 15 => decodeOp0F w
  | 16 => decodeOp10 w
  | 17 => decodeOp11 w
  | 18 => decodeOp12 w
  | 19 => decodeOp13 w
  | 20 => decodeOp14 w
  | 21 => decodeOp15 w
  | 22 => decodeOp16 w
  | 23 => decodeOp17 w
  | 24 => decodeOp18 w
  | 25 => decodeOp19 w
  | 26 => decodeOp1A w
  | 32 => decodeOp20 w
  | 33 => decodeOp21 w
  | 34 => decodeOp22 w
  | 35 => decodeOp23 w
  | 36 => decodeOp24 w
  | 37 => decodeOp25 w
  | 40 => decodeOp28 w
  | 41 => decodeOp29 w
  | 42 => decodeOp2A w
  | 43 => decodeOp2B w
  | 44 => decodeOp2C w
  | 45 => decodeOp2D w
  | 46 => decodeOp2E w
  | 47 => decodeOp2F w
  | 48 => decodeOp30 w
  | 49 => decodeOp31 w
  | 50 => decodeOp32 w
  | 51 => decodeOp33 w
  | 52 => decodeOp34 w
  | 53 => decodeOp35 w
  | 56 => decodeOp38 w
  | 57 => decodeOp39 w
  | 58 => decodeOp3A w
  | 59 => decodeOp3B w
  | 60 => decodeOp3C w
  | 61 => decodeOp3D w
  | _ => .error .undefOp

/-- A switch word by its bits [15:12] (13 R290, Table 13-3). -/
def decodeSwitch (w : Nat) : Except DecodeError Instr :=
  match bits w 12 4 with
  | 1 => accept (true) (.route (field w 8 4) (field w 0 8))
  | 2 => accept (true) (.hold (field w 8 4) (field w 0 8))
  | 3 => accept (bits w 0 6 == 0) (.routec (field w 8 4) (field w 6 2))
  | 4 => accept (true) (.setc (field w 10 2) (field w 0 10))
  | 5 => accept (bits w 6 4 == 0) (.setch (field w 10 2) (field w 0 6))
  | 6 => accept (bits w 0 5 == 0) (.ldc (field w 10 2) (field w 5 5))
  | 7 => accept (true) (.dbnz (field w 10 2) (field w 0 10))
  | 8 => accept (true) (.bzc (field w 10 2) (field w 0 10))
  | 9 => accept (true) (.bcz (field w 7 5) (field w 0 7))
  | 10 => accept (true) (.bcnz (field w 7 5) (field w 0 7))
  | 11 => accept (true) (.jmp (field w 0 12))
  | 12 => accept (bits w 0 7 == 0) (.wait (field w 7 5))
  | 13 => accept (true) (.drop (field w 7 5) (field w 0 7))
  | 14 => accept (bits w 0 12 == 0) .iend
  | _ => .error .undefOp

/-- The value of little-endian bytes (00 R4). -/
def leNat : List Byte → Nat
  | [] => 0
  | b :: bs => b.toNat + 256 * leNat bs

/-- `n` little-endian bytes of a value (00 R4). -/
def leBytes : Nat → Nat → List Byte
  | 0, _ => []
  | n + 1, v => BitVec.ofNat 8 (v % 256) :: leBytes n (v / 256)

/-- The instruction that bytes stand for: four bytes a core word, two a switch word. -/
def decodeBytes (bs : List Byte) : Except DecodeError Instr :=
  if bs.length = 4 then decodeCore (leNat bs) else if bs.length = 2 then decodeSwitch (leNat bs) else .error .badLength

/-- The host's question: the instruction of a word of `nbits` bits, laid out in memory order. -/
def decodeTableWord (nbits w : Nat) : Option Instr :=
  match decodeBytes (leBytes (nbits / 8) w) with
  | .ok i => some i
  | .error _ => none

/-- The word of a core instruction or of a switch word, from the encoding tables; 0 for a row without an encoding. -/
def encode : Instr → Nat
  | .add g d a b => 0x4000000 + g.toNat * 8388608 + d.toNat * 262144 + a.toNat * 8192 + b.toNat * 256
  | .sub g d a b => 0x4000001 + g.toNat * 8388608 + d.toNat * 262144 + a.toNat * 8192 + b.toNat * 256
  | .and g d a b => 0x4000002 + g.toNat * 8388608 + d.toNat * 262144 + a.toNat * 8192 + b.toNat * 256
  | .or g d a b => 0x4000003 + g.toNat * 8388608 + d.toNat * 262144 + a.toNat * 8192 + b.toNat * 256
  | .xor g d a b => 0x4000004 + g.toNat * 8388608 + d.toNat * 262144 + a.toNat * 8192 + b.toNat * 256
  | .andn g d a b => 0x4000005 + g.toNat * 8388608 + d.toNat * 262144 + a.toNat * 8192 + b.toNat * 256
  | .sll g d a b => 0x4000008 + g.toNat * 8388608 + d.toNat * 262144 + a.toNat * 8192 + b.toNat * 256
  | .srl g d a b => 0x4000009 + g.toNat * 8388608 + d.toNat * 262144 + a.toNat * 8192 + b.toNat * 256
  | .sra g d a b => 0x400000A + g.toNat * 8388608 + d.toNat * 262144 + a.toNat * 8192 + b.toNat * 256
  | .min g d a b => 0x4000010 + g.toNat * 8388608 + d.toNat * 262144 + a.toNat * 8192 + b.toNat * 256
  | .max g d a b => 0x4000011 + g.toNat * 8388608 + d.toNat * 262144 + a.toNat * 8192 + b.toNat * 256
  | .minu g d a b => 0x4000012 + g.toNat * 8388608 + d.toNat * 262144 + a.toNat * 8192 + b.toNat * 256
  | .maxu g d a b => 0x4000013 + g.toNat * 8388608 + d.toNat * 262144 + a.toNat * 8192 + b.toNat * 256
  | .mul g d a b => 0x4000018 + g.toNat * 8388608 + d.toNat * 262144 + a.toNat * 8192 + b.toNat * 256
  | .mulh g d a b => 0x4000019 + g.toNat * 8388608 + d.toNat * 262144 + a.toNat * 8192 + b.toNat * 256
  | .mulhu g d a b => 0x400001A + g.toNat * 8388608 + d.toNat * 262144 + a.toNat * 8192 + b.toNat * 256
  | .div g d a b => 0x400001C + g.toNat * 8388608 + d.toNat * 262144 + a.toNat * 8192 + b.toNat * 256
  | .divu g d a b => 0x400001D + g.toNat * 8388608 + d.toNat * 262144 + a.toNat * 8192 + b.toNat * 256
  | .rem g d a b => 0x400001E + g.toNat * 8388608 + d.toNat * 262144 + a.toNat * 8192 + b.toNat * 256
  | .remu g d a b => 0x400001F + g.toNat * 8388608 + d.toNat * 262144 + a.toNat * 8192 + b.toNat * 256
  | .clz g d a => 0x4000020 + g.toNat * 8388608 + d.toNat * 262144 + a.toNat * 8192
  | .ctz g d a => 0x4000021 + g.toNat * 8388608 + d.toNat * 262144 + a.toNat * 8192
  | .popc g d a => 0x4000022 + g.toNat * 8388608 + d.toNat * 262144 + a.toNat * 8192
  | .addi g d a i => 0x8000000 + g.toNat * 8388608 + d.toNat * 262144 + a.toNat * 8192 + i.toNat
  | .andi g d a i => 0xC000000 + g.toNat * 8388608 + d.toNat * 262144 + a.toNat * 8192 + i.toNat
  | .ori g d a i => 0x10000000 + g.toNat * 8388608 + d.toNat * 262144 + a.toNat * 8192 + i.toNat
  | .xori g d a i => 0x14000000 + g.toNat * 8388608 + d.toNat * 262144 + a.toNat * 8192 + i.toNat
  | .slli g d a k => 0x18000000 + g.toNat * 8388608 + d.toNat * 262144 + a.toNat * 8192 + k.toNat
  | .srli g d a k => 0x18000800 + g.toNat * 8388608 + d.toNat * 262144 + a.toNat * 8192 + k.toNat
  | .srai g d a k => 0x18001000 + g.toNat * 8388608 + d.toNat * 262144 + a.toNat * 8192 + k.toNat
  | .cmpi g d a r i => 0x1C000000 + g.toNat * 8388608 + d.toNat * 262144 + a.toNat * 8192 + r.toNat * 1024 + i.toNat
  | .limm g d p i => 0x20000000 + g.toNat * 8388608 + d.toNat * 262144 + p.toNat * 65536 + i.toNat
  | .cmp g d a b r => 0x24000000 + g.toNat * 8388608 + d.toNat * 262144 + a.toNat * 8192 + b.toNat * 256 + r.toNat
  | .pand g d a b => 0x28000000 + g.toNat * 8388608 + d.toNat * 262144 + a.toNat * 8192 + b.toNat * 256
  | .por g d a b => 0x28000001 + g.toNat * 8388608 + d.toNat * 262144 + a.toNat * 8192 + b.toNat * 256
  | .pxor g d a b => 0x28000002 + g.toNat * 8388608 + d.toNat * 262144 + a.toNat * 8192 + b.toNat * 256
  | .pandn g d a b => 0x28000003 + g.toNat * 8388608 + d.toNat * 262144 + a.toNat * 8192 + b.toNat * 256
  | .pnot g d a => 0x28000004 + g.toNat * 8388608 + d.toNat * 262144 + a.toNat * 8192
  | .pnz g d a => 0x28000005 + g.toNat * 8388608 + d.toNat * 262144 + a.toNat * 8192
  | .pget g d a => 0x28000006 + g.toNat * 8388608 + d.toNat * 262144 + a.toNat * 8192
  | .br g o => 0x2C000000 + g.toNat * 8388608 + o.toNat
  | .jalr g d a => 0x30000000 + g.toNat * 8388608 + d.toNat * 262144 + a.toNat * 8192
  | .texit g => 0x30000001 + g.toNat * 8388608
  | .itend g => 0x30000002 + g.toNat * 8388608
  | .csrrw g d a c => 0x34000000 + g.toNat * 8388608 + d.toNat * 262144 + a.toNat * 8192 + c.toNat
  | .csrrc g d a c => 0x34000800 + g.toNat * 8388608 + d.toNat * 262144 + a.toNat * 8192 + c.toNat
  | .widx g d a s f => 0x34001000 + g.toNat * 8388608 + d.toNat * 262144 + a.toNat * 8192 + s.toNat * 8 + f.toNat
  | .rep g t a s m l => 0x38000000 + g.toNat * 8388608 + t.toNat * 262144 + a.toNat * 8192 + s.toNat * 256 + m.toNat * 16 + l.toNat
  | .repeatPass => 0
  | .lea g d a b k => 0x3C000000 + g.toNat * 8388608 + d.toNat * 262144 + a.toNat * 8192 + b.toNat * 256 + k.toNat * 8
  | .lpc g d o => 0x3C000001 + g.toNat * 8388608 + d.toNat * 262144 + o.toNat * 8
  | .lwin g d a w => 0x3C000002 + g.toNat * 8388608 + d.toNat * 262144 + a.toNat * 8192 + w.toNat * 8
  | .vaddI32 g d a b m => 0x40000000 + g.toNat * 8388608 + d.toNat * 262144 + a.toNat * 8192 + b.toNat * 256 + m.toNat * 32
  | .vsubI32 g d a b m => 0x40000001 + g.toNat * 8388608 + d.toNat * 262144 + a.toNat * 8192 + b.toNat * 256 + m.toNat * 32
  | .vandI32 g d a b m => 0x40000002 + g.toNat * 8388608 + d.toNat * 262144 + a.toNat * 8192 + b.toNat * 256 + m.toNat * 32
  | .vorI32 g d a b m => 0x40000003 + g.toNat * 8388608 + d.toNat * 262144 + a.toNat * 8192 + b.toNat * 256 + m.toNat * 32
  | .vxorI32 g d a b m => 0x40000004 + g.toNat * 8388608 + d.toNat * 262144 + a.toNat * 8192 + b.toNat * 256 + m.toNat * 32
  | .vandnI32 g d a b m => 0x40000005 + g.toNat * 8388608 + d.toNat * 262144 + a.toNat * 8192 + b.toNat * 256 + m.toNat * 32
  | .vsllI32 g d a b m => 0x40000006 + g.toNat * 8388608 + d.toNat * 262144 + a.toNat * 8192 + b.toNat * 256 + m.toNat * 32
  | .vsrlN32 g d a b m => 0x40000007 + g.toNat * 8388608 + d.toNat * 262144 + a.toNat * 8192 + b.toNat * 256 + m.toNat * 32
  | .vsraI32 g d a b m => 0x40000008 + g.toNat * 8388608 + d.toNat * 262144 + a.toNat * 8192 + b.toNat * 256 + m.toNat * 32
  | .vminI32 g d a b m => 0x40000009 + g.toNat * 8388608 + d.toNat * 262144 + a.toNat * 8192 + b.toNat * 256 + m.toNat * 32
  | .vmaxI32 g d a b m => 0x4000000A + g.toNat * 8388608 + d.toNat * 262144 + a.toNat * 8192 + b.toNat * 256 + m.toNat * 32
  | .vminN32 g d a b m => 0x4000000B + g.toNat * 8388608 + d.toNat * 262144 + a.toNat * 8192 + b.toNat * 256 + m.toNat * 32
  | .vmaxN32 g d a b m => 0x4000000C + g.toNat * 8388608 + d.toNat * 262144 + a.toNat * 8192 + b.toNat * 256 + m.toNat * 32
  | .vmulI32 g d a b m => 0x4000000D + g.toNat * 8388608 + d.toNat * 262144 + a.toNat * 8192 + b.toNat * 256 + m.toNat * 32
  | .vmulhI32 g d a b m => 0x4000000E + g.toNat * 8388608 + d.toNat * 262144 + a.toNat * 8192 + b.toNat * 256 + m.toNat * 32
  | .vmulhN32 g d a b m => 0x4000000F + g.toNat * 8388608 + d.toNat * 262144 + a.toNat * 8192 + b.toNat * 256 + m.toNat * 32
  | .vaddsI32 g d a b m => 0x40000010 + g.toNat * 8388608 + d.toNat * 262144 + a.toNat * 8192 + b.toNat * 256 + m.toNat * 32
  | .vaddsN32 g d a b m => 0x40000011 + g.toNat * 8388608 + d.toNat * 262144 + a.toNat * 8192 + b.toNat * 256 + m.toNat * 32
  | .vsubsI32 g d a b m => 0x40000012 + g.toNat * 8388608 + d.toNat * 262144 + a.toNat * 8192 + b.toNat * 256 + m.toNat * 32
  | .vsubsN32 g d a b m => 0x40000013 + g.toNat * 8388608 + d.toNat * 262144 + a.toNat * 8192 + b.toNat * 256 + m.toNat * 32
  | .vabsI32 g d a m => 0x40000014 + g.toNat * 8388608 + d.toNat * 262144 + a.toNat * 8192 + m.toNat * 32
  | .vclzN32 g d a m => 0x40000015 + g.toNat * 8388608 + d.toNat * 262144 + a.toNat * 8192 + m.toNat * 32
  | .vpopcN32 g d a m => 0x40000016 + g.toNat * 8388608 + d.toNat * 262144 + a.toNat * 8192 + m.toNat * 32
  | .vaddF g d a b m t => 0x44000000 + g.toNat * 8388608 + d.toNat * 262144 + a.toNat * 8192 + b.toNat * 256 + m.toNat * 32 + t.toNat * 8
  | .vsubF g d a b m t => 0x44000001 + g.toNat * 8388608 + d.toNat * 262144 + a.toNat * 8192 + b.toNat * 256 + m.toNat * 32 + t.toNat * 8
  | .vmulF g d a b m t => 0x44000002 + g.toNat * 8388608 + d.toNat * 262144 + a.toNat * 8192 + b.toNat * 256 + m.toNat * 32 + t.toNat * 8
  | .vminF g d a b m t => 0x44000003 + g.toNat * 8388608 + d.toNat * 262144 + a.toNat * 8192 + b.toNat * 256 + m.toNat * 32 + t.toNat * 8
  | .vmaxF g d a b m t => 0x44000004 + g.toNat * 8388608 + d.toNat * 262144 + a.toNat * 8192 + b.toNat * 256 + m.toNat * 32 + t.toNat * 8
  | .vdiv g d a b m t => 0x44000005 + g.toNat * 8388608 + d.toNat * 262144 + a.toNat * 8192 + b.toNat * 256 + m.toNat * 32 + t.toNat * 8
  | .vsqrt g d a m t => 0x44000006 + g.toNat * 8388608 + d.toNat * 262144 + a.toNat * 8192 + m.toNat * 32 + t.toNat * 8
  | .vfma g d a b c t => 0x48000000 + g.toNat * 8388608 + d.toNat * 262144 + a.toNat * 8192 + b.toNat * 256 + c.toNat * 8 + t.toNat * 2
  | .vfnma g d a b c t => 0x48000001 + g.toNat * 8388608 + d.toNat * 262144 + a.toNat * 8192 + b.toNat * 256 + c.toNat * 8 + t.toNat * 2
  | .vdot2 g d a b c => 0x48000006 + g.toNat * 8388608 + d.toNat * 262144 + a.toNat * 8192 + b.toNat * 256 + c.toNat * 8
  | .vdot2n g d a b c => 0x48000007 + g.toNat * 8388608 + d.toNat * 262144 + a.toNat * 8192 + b.toNat * 256 + c.toNat * 8
  | .vcmp g d a b m t r => 0x4C000000 + g.toNat * 8388608 + d.toNat * 262144 + a.toNat * 8192 + b.toNat * 256 + m.toNat * 32 + t.toNat * 8 + r.toNat
  | .vcvtI32F32 g d a m => 0x50000000 + g.toNat * 8388608 + d.toNat * 262144 + a.toNat * 8192 + m.toNat * 32
  | .vcvtN32F32 g d a m => 0x50000001 + g.toNat * 8388608 + d.toNat * 262144 + a.toNat * 8192 + m.toNat * 32
  | .vcvtF32I32 g d a m => 0x50000002 + g.toNat * 8388608 + d.toNat * 262144 + a.toNat * 8192 + m.toNat * 32
  | .vcvtF32N32 g d a m => 0x50000003 + g.toNat * 8388608 + d.toNat * 262144 + a.toNat * 8192 + m.toNat * 32
  | .vcvtF16F32 g d a m h => 0x50000004 + g.toNat * 8388608 + d.toNat * 262144 + a.toNat * 8192 + m.toNat * 32 + h.toNat
  | .vcvtBf16F32 g d a m h => 0x50000006 + g.toNat * 8388608 + d.toNat * 262144 + a.toNat * 8192 + m.toNat * 32 + h.toNat
  | .vcvtF32F16 g d a m h => 0x50000008 + g.toNat * 8388608 + d.toNat * 262144 + a.toNat * 8192 + m.toNat * 32 + h.toNat
  | .vcvtF32Bf16 g d a m h => 0x5000000A + g.toNat * 8388608 + d.toNat * 262144 + a.toNat * 8192 + m.toNat * 32 + h.toNat
  | .vrint g d a m => 0x5000000C + g.toNat * 8388608 + d.toNat * 262144 + a.toNat * 8192 + m.toNat * 32
  | .vupk4 g d a h => 0x50000010 + g.toNat * 8388608 + d.toNat * 262144 + a.toNat * 8192 + h.toNat
  | .vpk4 g d a h => 0x50000012 + g.toNat * 8388608 + d.toNat * 262144 + a.toNat * 8192 + h.toNat
  | .vupk6 g d a => 0x50000014 + g.toNat * 8388608 + d.toNat * 262144 + a.toNat * 8192
  | .vpk6 g d a => 0x50000015 + g.toNat * 8388608 + d.toNat * 262144 + a.toNat * 8192
  | .vdec g d a t m p => 0x54000000 + g.toNat * 8388608 + d.toNat * 262144 + a.toNat * 8192 + t.toNat * 2048 + m.toNat * 32 + p.toNat * 8
  | .vdecs g d a t s m p => 0x54000001 + g.toNat * 8388608 + d.toNat * 262144 + a.toNat * 8192 + t.toNat * 2048 + s.toNat * 256 + m.toNat * 32 + p.toNat * 8
  | .venc g d a t m p => 0x54000002 + g.toNat * 8388608 + d.toNat * 262144 + a.toNat * 8192 + t.toNat * 2048 + m.toNat * 32 + p.toNat * 8
  | .vtbl g t a c => 0x54000003 + g.toNat * 8388608 + t.toNat * 262144 + a.toNat * 8192 + c.toNat * 256
  | .vbexp g d a j m q c => 0x58000000 + g.toNat * 8388608 + d.toNat * 262144 + a.toNat * 8192 + j.toNat * 2048 + m.toNat * 32 + q.toNat * 16 + c.toNat * 8
  | .valign g d a j s p => 0x58000001 + g.toNat * 8388608 + d.toNat * 262144 + a.toNat * 8192 + j.toNat * 2048 + s.toNat * 256 + p.toNat * 32
  | .vscale g d a b m h => 0x58000002 + g.toNat * 8388608 + d.toNat * 262144 + a.toNat * 8192 + b.toNat * 256 + m.toNat * 32 + h.toNat * 16
  | .vsumF g d a m t => 0x5C000000 + g.toNat * 8388608 + d.toNat * 262144 + a.toNat * 8192 + m.toNat * 32 + t.toNat * 8
  | .vrminF g d a m t => 0x5C000001 + g.toNat * 8388608 + d.toNat * 262144 + a.toNat * 8192 + m.toNat * 32 + t.toNat * 8
  | .vrmaxF g d a m t => 0x5C000002 + g.toNat * 8388608 + d.toNat * 262144 + a.toNat * 8192 + m.toNat * 32 + t.toNat * 8
  | .vsumI32 g d a m => 0x5C000018 + g.toNat * 8388608 + d.toNat * 262144 + a.toNat * 8192 + m.toNat * 32
  | .vsumN32 g d a m => 0x5C000019 + g.toNat * 8388608 + d.toNat * 262144 + a.toNat * 8192 + m.toNat * 32
  | .vrminI32 g d a m => 0x5C00001A + g.toNat * 8388608 + d.toNat * 262144 + a.toNat * 8192 + m.toNat * 32
  | .vrmaxI32 g d a m => 0x5C00001B + g.toNat * 8388608 + d.toNat * 262144 + a.toNat * 8192 + m.toNat * 32
  | .vrminN32 g d a m => 0x5C00001C + g.toNat * 8388608 + d.toNat * 262144 + a.toNat * 8192 + m.toNat * 32
  | .vrmaxN32 g d a m => 0x5C00001D + g.toNat * 8388608 + d.toNat * 262144 + a.toNat * 8192 + m.toNat * 32
  | .vperm g d a b m => 0x60000000 + g.toNat * 8388608 + d.toNat * 262144 + a.toNat * 8192 + b.toNat * 256 + m.toNat * 32
  | .vrot g d a k m => 0x60000001 + g.toNat * 8388608 + d.toNat * 262144 + a.toNat * 8192 + k.toNat * 256 + m.toNat * 32
  | .vslu g d a k m => 0x60000002 + g.toNat * 8388608 + d.toNat * 262144 + a.toNat * 8192 + k.toNat * 256 + m.toNat * 32
  | .vsld g d a k m => 0x60000003 + g.toNat * 8388608 + d.toNat * 262144 + a.toNat * 8192 + k.toNat * 256 + m.toNat * 32
  | .vrev g d a m => 0x60000004 + g.toNat * 8388608 + d.toNat * 262144 + a.toNat * 8192 + m.toNat * 32
  | .vhswap g d a m => 0x60000005 + g.toNat * 8388608 + d.toNat * 262144 + a.toNat * 8192 + m.toNat * 32
  | .vpkl g d a b m => 0x60000006 + g.toNat * 8388608 + d.toNat * 262144 + a.toNat * 8192 + b.toNat * 256 + m.toNat * 32
  | .vpkh g d a b m => 0x60000007 + g.toNat * 8388608 + d.toNat * 262144 + a.toNat * 8192 + b.toNat * 256 + m.toNat * 32
  | .vmov g d a m => 0x64000000 + g.toNat * 8388608 + d.toNat * 262144 + a.toNat * 8192 + m.toNat * 32
  | .vsplatI32 g d a m => 0x64000001 + g.toNat * 8388608 + d.toNat * 262144 + a.toNat * 8192 + m.toNat * 32
  | .vsplatI64 g d a m => 0x64000002 + g.toNat * 8388608 + d.toNat * 262144 + a.toNat * 8192 + m.toNat * 32
  | .vins g d a k => 0x64000003 + g.toNat * 8388608 + d.toNat * 262144 + a.toNat * 8192 + k.toNat * 256
  | .vextN32 g d a k => 0x64000004 + g.toNat * 8388608 + d.toNat * 262144 + a.toNat * 8192 + k.toNat * 256
  | .vextI32 g d a k => 0x64000005 + g.toNat * 8388608 + d.toNat * 262144 + a.toNat * 8192 + k.toNat * 256
  | .vsel g d a b m => 0x64000006 + g.toNat * 8388608 + d.toNat * 262144 + a.toNat * 8192 + b.toNat * 256 + m.toNat * 32
  | .vabsF32 g d a m => 0x64000007 + g.toNat * 8388608 + d.toNat * 262144 + a.toNat * 8192 + m.toNat * 32
  | .vnegF32 g d a m => 0x64000008 + g.toNat * 8388608 + d.toNat * 262144 + a.toNat * 8192 + m.toNat * 32
  | .vabsF16 g d a m => 0x64000009 + g.toNat * 8388608 + d.toNat * 262144 + a.toNat * 8192 + m.toNat * 32
  | .vnegF16 g d a m => 0x6400000A + g.toNat * 8388608 + d.toNat * 262144 + a.toNat * 8192 + m.toNat * 32
  | .gset g d a => 0x6400000B + g.toNat * 8388608 + d.toNat * 262144 + a.toNat * 8192
  | .gget g d a => 0x6400000C + g.toNat * 8388608 + d.toNat * 262144 + a.toNat * 8192
  | .vabsBf16 g d a m => 0x6400000D + g.toNat * 8388608 + d.toNat * 262144 + a.toNat * 8192 + m.toNat * 32
  | .vnegBf16 g d a m => 0x6400000E + g.toNat * 8388608 + d.toNat * 262144 + a.toNat * 8192 + m.toNat * 32
  | .mand g d a b => 0x68000000 + g.toNat * 8388608 + d.toNat * 262144 + a.toNat * 8192 + b.toNat * 256
  | .mor g d a b => 0x68000001 + g.toNat * 8388608 + d.toNat * 262144 + a.toNat * 8192 + b.toNat * 256
  | .mxor g d a b => 0x68000002 + g.toNat * 8388608 + d.toNat * 262144 + a.toNat * 8192 + b.toNat * 256
  | .mandn g d a b => 0x68000003 + g.toNat * 8388608 + d.toNat * 262144 + a.toNat * 8192 + b.toNat * 256
  | .mnot g d a => 0x68000004 + g.toNat * 8388608 + d.toNat * 262144 + a.toNat * 8192
  | .mset g d a => 0x68000005 + g.toNat * 8388608 + d.toNat * 262144 + a.toNat * 8192
  | .mget g d a => 0x68000006 + g.toNat * 8388608 + d.toNat * 262144 + a.toNat * 8192
  | .mpop g d a => 0x68000007 + g.toNat * 8388608 + d.toNat * 262144 + a.toNat * 8192
  | .mfirst g d a => 0x68000008 + g.toNat * 8388608 + d.toNat * 262144 + a.toNat * 8192
  | .mlow g d a => 0x68000009 + g.toNat * 8388608 + d.toNat * 262144 + a.toNat * 8192
  | .rmma g t a b c x y w u v => 0x80000000 + g.toNat * 8388608 + t.toNat * 262144 + a.toNat * 8192 + b.toNat * 256 + c.toNat * 64 + x.toNat * 32 + y.toNat * 16 + w.toNat * 8 + u.toNat * 4 + v.toNat * 2
  | .rmmaStart => 0
  | .rmmaComplete => 0
  | .rfwd g d a b w u i => 0x84000000 + g.toNat * 8388608 + d.toNat * 262144 + a.toNat * 8192 + b.toNat * 256 + w.toNat * 64 + u.toNat * 32 + i.toNat * 16
  | .rrev g d a b i => 0x88000000 + g.toNat * 8388608 + d.toNat * 262144 + a.toNat * 8192 + b.toNat * 256 + i.toNat
  | .rchk g d a => 0x8C000000 + g.toNat * 8388608 + d.toNat * 262144 + a.toNat * 8192
  | .rbnd g a b => 0x8C000001 + g.toNat * 8388608 + a.toNat * 8192 + b.toNat * 256
  | .rzero g a => 0x8C000002 + g.toNat * 8388608 + a.toNat * 8192
  | .rbget g d a => 0x8C000003 + g.toNat * 8388608 + d.toNat * 262144 + a.toNat * 8192
  | .radd g d a b => 0x90000000 + g.toNat * 8388608 + d.toNat * 262144 + a.toNat * 8192 + b.toNat * 256
  | .rsub g d a b => 0x90000020 + g.toNat * 8388608 + d.toNat * 262144 + a.toNat * 8192 + b.toNat * 256
  | .rmov g d a => 0x90000040 + g.toNat * 8388608 + d.toNat * 262144 + a.toNat * 8192
  | .rstg g a s => 0x90000060 + g.toNat * 8388608 + a.toNat * 8192 + s.toNat
  | .rlda g t a c => 0x90000080 + g.toNat * 8388608 + t.toNat * 262144 + a.toNat * 8192 + c.toNat
  | .radds g t a c => 0x900000A0 + g.toNat * 8388608 + t.toNat * 262144 + a.toNat * 8192 + c.toNat
  | .rsta g t a c => 0x900000C0 + g.toNat * 8388608 + t.toNat * 262144 + a.toNat * 8192 + c.toNat
  | .accumulatorImageComplete => 0
  | .obld g d a => 0x94000000 + g.toNat * 8388608 + d.toNat * 262144 + a.toNat * 8192
  | .obst g d a => 0x94000040 + g.toNat * 8388608 + d.toNat * 262144 + a.toNat * 8192
  | .obcp g t a b r c => 0x94000080 + g.toNat * 8388608 + t.toNat * 262144 + a.toNat * 8192 + b.toNat * 256 + r.toNat * 32 + c.toNat
  | .ld g d a c e z x o => 0xA0000000 + g.toNat * 8388608 + d.toNat * 262144 + a.toNat * 8192 + c.toNat * 1024 + e.toNat * 256 + z.toNat * 64 + x.toNat * 32 + o.toNat
  | .loadReply => 0
  | .st g d a c e z o => 0xA4000000 + g.toNat * 8388608 + d.toNat * 262144 + a.toNat * 8192 + c.toNat * 1024 + e.toNat * 256 + z.toNat * 64 + o.toNat
  | .vld g d a c e m o => 0xA8000000 + g.toNat * 8388608 + d.toNat * 262144 + a.toNat * 8192 + c.toNat * 1024 + e.toNat * 256 + m.toNat * 64 + o.toNat
  | .vst g d a c e m o => 0xAC000000 + g.toNat * 8388608 + d.toNat * 262144 + a.toNat * 8192 + c.toNat * 1024 + e.toNat * 256 + m.toNat * 64 + o.toNat
  | .atomCas g d a c e z o => 0xB0000020 + g.toNat * 8388608 + d.toNat * 262144 + a.toNat * 8192 + c.toNat * 1024 + e.toNat * 256 + z.toNat * 64 + o.toNat
  | .atom g d a c e z o => 0xB0000000 + g.toNat * 8388608 + d.toNat * 262144 + a.toNat * 8192 + c.toNat * 1024 + e.toNat * 256 + z.toNat * 64 + o.toNat
  | .accessPerform => 0
  | .fence g s m => 0xB4000000 + g.toNat * 8388608 + s.toNat * 256 + m.toNat
  | .joinComplete => 0
  | .copy g t a b c s => 0xB8000000 + g.toNat * 8388608 + t.toNat * 262144 + a.toNat * 8192 + b.toNat * 256 + c.toNat * 32 + s.toNat * 4
  | .gather g t a z c s => 0xBC000000 + g.toNat * 8388608 + t.toNat * 262144 + a.toNat * 8192 + z.toNat * 2048 + c.toNat * 32 + s.toNat * 4
  | .scatter g t a z c s => 0xBC000001 + g.toNat * 8388608 + t.toNat * 262144 + a.toNat * 8192 + z.toNat * 2048 + c.toNat * 32 + s.toNat * 4
  | .nxch g t a b c s => 0xC0000000 + g.toNat * 8388608 + t.toNat * 262144 + a.toNat * 8192 + b.toNat * 256 + c.toNat * 32 + s.toNat * 4
  | .engineOperationComplete => 0
  | .beatSubtraction => 0
  | .bara g d a c => 0xC4000000 + g.toNat * 8388608 + d.toNat * 262144 + a.toNat * 8192 + c.toNat * 32
  | .barw g a b c => 0xC4000008 + g.toNat * 8388608 + a.toNat * 8192 + b.toNat * 256 + c.toNat * 32
  | .bari g a b c => 0xC4000010 + g.toNat * 8388608 + a.toNat * 8192 + b.toNat * 256 + c.toNat * 32
  | .barrierWake => 0
  | .twait g a => 0xC8000000 + g.toNat * 8388608 + a.toNat * 8192
  | .ttest g d a => 0xC8000001 + g.toNat * 8388608 + d.toNat * 262144 + a.toNat * 8192
  | .tdrain g => 0xC8000002 + g.toNat * 8388608
  | .msend g d a n h => 0xCC000000 + g.toNat * 8388608 + d.toNat * 262144 + a.toNat * 8192 + n.toNat * 32 + h.toNat * 16
  | .coll g t a => 0xD0000000 + g.toNat * 8388608 + t.toNat * 262144 + a.toNat * 8192
  | .collComplete => 0
  | .memberLoss => 0
  | .launch g d a c => 0xD4000000 + g.toNat * 8388608 + d.toNat * 262144 + a.toNat * 8192 + c.toNat * 32
  | .trap g a c => 0xE0000000 + g.toNat * 8388608 + a.toNat * 8192 + c.toNat
  | .svc g a c => 0xE0000800 + g.toNat * 8388608 + a.toNat * 8192 + c.toNat
  | .brk g a c => 0xE0001000 + g.toNat * 8388608 + a.toNat * 8192 + c.toNat
  | .uret g => 0xE0001800 + g.toNat * 8388608
  | .eret g => 0xE4000000 + g.toNat * 8388608
  | .wfi g => 0xE4000001 + g.toNat * 8388608
  | .csrrs g d a c => 0xE8000000 + g.toNat * 8388608 + d.toNat * 262144 + a.toNat * 8192 + c.toNat
  | .tlbinvAll g => 0xEC000000 + g.toNat * 8388608
  | .tlbinvAsid g b => 0xEC000001 + g.toNat * 8388608 + b.toNat * 256
  | .tlbinvPage g a b z => 0xEC000002 + g.toNat * 8388608 + a.toNat * 8192 + b.toNat * 256 + z.toNat * 4
  | .tlbinvVa g a z => 0xEC000003 + g.toNat * 8388608 + a.toNat * 8192 + z.toNat * 4
  | .ssave g => 0xF0000000 + g.toNat * 8388608
  | .srest g => 0xF0000001 + g.toNat * 8388608
  | .binit g a => 0xF4000000 + g.toNat * 8388608 + a.toNat * 8192
  | .bwb g a => 0xF4000001 + g.toNat * 8388608 + a.toNat * 8192
  | .pwb g => 0xF4000002 + g.toNat * 8388608
  | .route e n => 0x1000 + e.toNat * 256 + n.toNat
  | .hold e n => 0x2000 + e.toNat * 256 + n.toNat
  | .routec e c => 0x3000 + e.toNat * 256 + c.toNat * 64
  | .switchTransfer => 0
  | .setc c v => 0x4000 + c.toNat * 1024 + v.toNat
  | .setch c v => 0x5000 + c.toNat * 1024 + v.toNat
  | .ldc c i => 0x6000 + c.toNat * 1024 + i.toNat * 32
  | .dbnz c o => 0x7000 + c.toNat * 1024 + o.toNat
  | .bzc c o => 0x8000 + c.toNat * 1024 + o.toNat
  | .bcz i o => 0x9000 + i.toNat * 128 + o.toNat
  | .bcnz i o => 0xA000 + i.toNat * 128 + o.toNat
  | .jmp o => 0xB000 + o.toNat
  | .wait i => 0xC000 + i.toNat * 128
  | .drop i n => 0xD000 + i.toNat * 128 + n.toNat
  | .iend => 0xE000
  | .nfcWrite => 0
  | .flagsAccess => 0
  | .seedAccess => 0
  | .unchkAccess => 0
  | .rnscfgWrite => 0
  | .rnsctlWrite => 0
  | .sstatusWrite => 0
  | .pmapWrite => 0
  | .pmapxWrite => 0
  | .asidWrite => 0
  | .ptbaseWrite => 0
  | .qtimeWrite => 0
  | .budgetSelect => 0
  | .budgetSet => 0
  | .faultinjArm => 0
  | .csrWrite => 0
  | .stepInstall => 0
  | .stepSelect => 0
  | .stepCollective => 0
  | .stepEnd => 0
  | .stepComplete => 0
  | .generatorReadIssue => 0
  | .generatorPush => 0
  | .quiescent => 0
  | .taskMessageTake => 0
  | .hintedWalkStep => 0
  | .taskDispatch => 0
  | .spillToQueue => 0
  | .drainComplete => 0
  | .coherenceRead => 0
  | .ownershipRequest => 0
  | .homeLoad => 0
  | .homeStoreOrAtomic => 0
  | .invalidation => 0
  | .transactionEnd => 0
  | .rdcEviction => 0
  | .writeBackAcknowledgement => 0
  | .l2Eviction => 0
  | .sealCacheFill => 0
  | .sealCacheEviction => 0
  | .pageTableWalk => 0
  | .accessRetry => 0
  | .deferredAccessFault => 0
  | .eventTake => 0
  | .taskOverrun => 0
  | .schedulingPass => 0
  | .dispatch => 0
  | .capture => 0
  | .drainLimitExpiry => 0
  | .resume => 0
  | .taskGridEnd => 0
  | .budgetPeriod => 0
  | .cmdPreemptionSave => 0
  | .cmdEndWork => 0
  | .cmdDiscardSave => 0
  | .cmdUnknownOp => 0
  | .syndromeQueueMove => 0
  | .linkFlitReplay => 0
  | .linkFlitLost => 0
  | .portRetrain => 0
  | .portTrainingComplete => 0
  | .packageLost => 0
  | .rowActivationBackoff => 0
  | .watchdogExpiry => 0
  | .powerOrClockFault => 0
  | .baseDieUncorrectable => 0
  | .powerGate => 0
  | .dieWake => 0
  | .keyInstall => 0
  | .keyDrop => 0
  | .keySeal => 0
  | .partCreate => 0
  | .partStart => 0
  | .partDestroy => 0
  | .modeSet => 0
  | .routeSet => 0
  | .groupForm => 0
  | .groupFormed => 0
  | .groupFormTimeout => 0
  | .groupDrop => 0
  | .blockInit => 0
  | .attestIdentity => 0
  | .attestReport => 0
  | .keyShareGrant => 0
  | .keyShareRevoke => 0
  | .mgmtUnknownOp => 0
  | .launchWindowWrite => 0
  | .vaptAccess => 0
  | .paptAccess => 0
  | .watchVector => 0
  | .perstAssert => 0
  | .hotReset => 0
  | .pf0FunctionLevelReset => 0
  | .vfFunctionLevelReset => 0
  | .packageResetRequest => 0
  | .logClear => 0
  | .checkpointSave => 0
  | .checkpointRestore => 0
  | .undefinedEncoding => 0
  | .undefinedSwitchWord => 0
  | .hawserRetrainFailure => 0
  | .portDown => 0
  | .portTrainingStart => 0
  | .checkpointComplete => 0
  | .resetPhaseComplete => 0

/-- The bytes of an instruction in memory order: four for a core word, two for a switch word. -/
def encodeBytes (i : Instr) : List Byte := leBytes (if i.isSwitch then 2 else 4) (encode i)

end Sys2Proof
end

