-- ==== Sys2Proof/Config.lean ====
section
/-!
DEFINITION. What is fixed for the machine, and the free values: constants without a body, of which nothing can be proved.
-/
namespace Sys2Proof.Config

open Sys2Proof

/-- The first address of the local window (06 R114). -/
def localBase : Nat := 0xF0000000000000

/-- Bytes of scratch (01 Table 1-4). -/
def scratchSize : Nat := 262144

/-- Bytes of an operand bank (01 Table 1-4). -/
def bankSize : Nat := 1048576

/-- Window offset of the operand bank (06 Table 6-2). -/
def bankOff : Nat := 0x10000000

/-- Window offset of the neighbour in direction d (06 Table 6-2). -/
def neighbourOff (d : Nat) : Nat := 0x20000000 + d * 0x1000000

/-- The scratch offset of the spill region (02 R49). -/
def spillOff : Nat := 0x3C000

/-- Cycles of a budget period (00 Table 0-3). -/
def budgetPeriod : Nat := 6000

/-- Cycles GROUP_FORM waits (22 R413). -/
def groupFormLimit : Nat := 60000000

/-- Idle cycles before a die is power-gated (23 R418). -/
def gateCycles : Nat := 600000

/-- The moduli of the residue channels (05 Table 5-1). -/
def moduli : List Nat := [256, 255, 253, 251, 247, 241, 239, 233, 229, 227]

/-- The modulus of channel c. -/
def modulus (c : Nat) : Nat := moduli.getD c 256

/-- A value the specification leaves undefined (00 R2), by a counter of the state (log entry 4). -/
opaque freeVec : Nat → Vec

/-- An undefined word (00 R2; log entry 4). -/
opaque freeWord : Nat → Word

/-- The code and the flags of encoding a non-zero value into a table whose only finite value is zero: 04 R82 defines no virtual step there
(log entry 10). -/
opaque freeCode : Bool → Nat → Nat → BitVec 8 × BitVec 6

/-- A choice the specification leaves to other agents (log entry 4). -/
opaque freeBool : Nat → Bool

/-- The 128 bytes of a line written by another package (06 R121; log entry 5). -/
opaque freeLine : Nat → BitVec 1024

/-- A key drawn from the random bit generator of the Norre controller (22 R398; log entry 6). -/
opaque drawKey : Nat → BitVec 256

/-- The XMSS signature of a report under a leaf of the identity key, and the public key with its certificate (22 R414; log entry 6). -/
opaque xmssSign : Nat → List Byte → List Byte

/-- The 68-byte public key followed by the certificate (22 R414; log entry 6). -/
opaque identity : List Byte

/-- The package checkpoint key (22 R397; 23 R420; log entry 6). -/
opaque ckKey : BitVec 256

/-- The DRAM bank in which a block lies: no rule maps them (21 R391; log entry 121). -/
opaque bankOf : Nat → BitVec 8

end Sys2Proof.Config
end

