-- ==== Sys2Proof/Machine/State.lean ====
section
/-!
DEFINITION. The state of a Duquin N8 package as plain data, and the state after reset.

A place of the lattice is named by `pos = 128 * y + x` in package coordinates (01 R14). Every store of bytes is a `Mem`: a
list of cells with strictly rising addresses that lists no zero byte; an unlisted address reads 0 (06, 23 R416; log entries 1, 2).
Tables keyed by numbers are `Tbl`s: lists of key and value pairs.
-/
namespace Sys2Proof.Machine

open Sys2Proof

/-- Bytes by address: strictly rising addresses, no listed byte equal to 0, which is what an unlisted address reads as. -/
abbrev Mem := List Host.Cell

/-- A table: a list of key and value pairs. -/
abbrev Tbl (α : Type) := List (Nat × α)

/-! ### The slot -/

/-- What a slot is doing (02 Table 2-1). READY and STALLED are both `running`: which of them holds is computed. -/
inductive Phase where
  /-- holds no context -/
  | idle
  /-- READY or STALLED -/
  | running
  /-- SUSPENDED in BARW on the record at `va`, waiting for a generation other than `gen` (07 R158) -/
  | barw (va : Word) (gen : BitVec 32) (cls : BitVec 3)
  /-- SUSPENDED in WFI (18 R328) -/
  | wfi
  /-- slot 0 of a chart SUSPENDED at a step boundary (02 R34) -/
  | boundary
  /-- waits for its asynchronous operations, having executed TEXIT (02 R51) or, with `texit` false, ended by the scheduler (19 R359) -/
  | draining (texit : Bool)
  deriving DecidableEq, Repr

/-- The slot is DRAINING (02 Table 2-1). -/
def Phase.isDraining : Phase → Bool
  | .draining _ => true
  | _ => false

/-- The repeat state of a slot (08 Table 8-8); `susp` is the suspension of R180. -/
structure Rep where
  active : Bool := false
  susp : Bool := false
  base : BitVec 13 := 0
  len : BitVec 5 := 0
  count : BitVec 32 := 0
  pass : BitVec 32 := 0
  idx : BitVec 4 := 0
  mask : BitVec 4 := 0
  stride : BitVec 4 := 0
  tok : BitVec 5 := 0
  resume : BitVec 14 := 0
  deriving DecidableEq, Repr

/-- For whom an access to memory is made: an outstanding access of a slot, an access that keeps its slot STALLED, an asynchronous operation, a generator of a
quay, a berth sequencer, a task domain, a partition's scheduler, a virtual function, or hardware at a physical address; and what a home or a cache sends by itself:
an invalidation or recall of a line to a target, its answer, and the write-back of a line by a die. -/
inductive Agent where
  | access (pos slot id : Nat)
  | inline (pos slot : Nat)
  | op (pos id : Nat)
  | gen (pos i : Nat)
  | berth (id : Nat)
  | domain (id : Nat)
  | sched (part : Nat)
  | host (vf : Nat)
  | hw
  | inval (line target : Nat)
  | answer (line target : Nat)
  | wback (die line : Nat)
  deriving DecidableEq, Repr

/-- What an access does when it is performed. -/
inductive AccKind where
  /-- LD into s register `rd` -/
  | load (rd : BitVec 5) (sx : Bool)
  /-- VLD of the active lanes into v register `rd` -/
  | vload (rd : BitVec 5) (lanes : BitVec 16)
  /-- ST or VST: the bytes `mask` names are written -/
  | store (data : Vec) (mask : BitVec 64) (poison : Bool)
  /-- ATOM, sx = 0: operation word and operand (12 R265) -/
  | atom (rd : BitVec 5) (op : Word) (opPoison : Bool) (operand : Word) (poison : Bool)
  /-- ATOM, sx = 1: compare-and-swap -/
  | cas (rd : BitVec 5) (old new : Word) (poison : Bool)
  /-- BARA (12 R275) -/
  | bara (rd : BitVec 5)
  /-- BARI with its expected count and the poison of its source -/
  | bari (n : BitVec 32) (poison : Bool)
  deriving DecidableEq, Repr

/-- How far an outstanding access has come (07 R162; 20 Table 20-5). -/
inductive Stage where
  /-- issued; nothing is known of its translation -/
  | issued
  /-- missed the TLB; waits for a walk -/
  | walking
  /-- ABSENT: held in a replay queue, its PAGE_FAULT raised -/
  | faultHeld
  /-- MIGRATING: held in a replay queue -/
  | migHeld
  /-- answered with a retry by a full replay queue (20 R372); the outcome of its walk -/
  | retry (migrating : Bool)
  deriving DecidableEq, Repr

/-- An access of the same slot that has been performed while another was outstanding: its virtual page, where it was made, its bytes, and whether it wrote
(20 R368). -/
structure Passed where
  page : Nat
  pa : Nat
  len : Nat
  write : Bool
  deriving DecidableEq, Repr

/-- An outstanding access of a slot: issued and not performed (07 R140, R146). -/
structure Access where
  id : Nat
  kind : AccKind
  va : Word
  size : Nat
  cls : BitVec 3
  acq : Bool
  rel : Bool
  /-- ASID, root and view of the issuing slot at issue (20 R360, R365) -/
  asid : BitVec 9
  root : Word
  sup : Bool
  stage : Stage
  /-- the cycle in which it first translated ABSENT, plus 1; 0 while it has not (20 R375) -/
  since : Nat
  /-- issued ahead of passes that remain, and so later in program order than their accesses (07 R145) -/
  late : Bool := false
  /-- global accesses of its slot through other pages that have been performed since it was issued (20 R368) -/
  passed : List Passed := []
  deriving DecidableEq, Repr

/-- The answer of a performed access, not yet written to its register (12 R262). -/
structure Reply where
  /-- the number of the access -/
  id : Nat := 0
  rd : BitVec 5
  vector : Bool
  data : Vec
  lanes : BitVec 16
  poison : Bool
  deriving DecidableEq, Repr

/-- A failed answer, taken at the next instruction boundary (12 R424). -/
structure Deferred where
  cause : Nat
  tval : Word
  deriving DecidableEq, Repr

/-- A FENCE whose slot is still STALLED (07 R151): classes, scope code, and whose join acknowledgement is awaited: dies, and 256 + p for package p
(03 R73, R74). -/
structure FenceWait where
  mask : BitVec 8
  scope : BitVec 3
  dies : List Nat
  deriving DecidableEq, Repr

/-- A token register that holds a negative status not yet read, with the cause the read raises (12 R271). -/
structure TokenErr where
  reg : BitVec 5
  cause : Nat
  tval : Word
  deriving DecidableEq, Repr

/-- An access that keeps its slot STALLED and is withheld (07 R162): its address, address space and why. -/
structure Blocked where
  va : Word
  asid : BitVec 9
  migrating : Bool
  write : Bool
  /-- the cycle in which it first translated ABSENT, plus 1; 0 while it has not (20 R375) -/
  since : Nat
  /-- a TLBINV has released it (20 R374) -/
  released : Bool := false
  /-- a full replay queue has answered it with a retry: it is re-sent (20 R372) -/
  retry : Bool := false
  /-- the table root and the quay of its translation (20 R374) -/
  root : Word := 0
  quay : Nat := 0
  deriving DecidableEq, Repr

/-- What an instruction that keeps its slot STALLED has done so far: the stores it has made, whether its beats have been added, whether an access of it
has been asked for and not yet answered, and the table that it loads (02 R53; 04 R89; 07 R158; 12 R267; 18 R332). -/
structure Busy where
  stored : Nat := 0
  beats : Bool := false
  asking : Bool := false
  /-- the physical decode table that a VTBL loads (04 R89) -/
  table : Option Nat := none
  deriving DecidableEq, Repr

/-- A run of instruction words that is undefined for a slot: an INSTALL has overwritten it while its task ran, or a changed image has supplied it at a resume
(08 R189; 19 R355). Its words are the free values from `seed` on. -/
structure Torn where
  start : Nat
  len : Nat
  seed : Nat
  deriving DecidableEq, Repr

/-- One of the four hardware contexts of a tile (02 R24; 08 Table 8-1; 18 Table 18-1). -/
structure Slot where
  s : Vector Word 32
  sP : BitVec 32
  sPend : BitVec 32
  v : Vector Vec 32
  vP : BitVec 32
  vPend : BitVec 32
  p : BitVec 8
  pP : BitVec 8
  pPend : BitVec 8
  m : Vector (BitVec 16) 8
  mP : BitVec 8
  mPend : BitVec 8
  g : Vector Word 8
  gP : BitVec 8
  gPend : BitVec 8
  pc : BitVec 14
  phase : Phase
  rep : Rep
  nfc : Word
  flags : Word
  seed : Word
  wid : Word
  widf : Word
  unchk : Word
  utvec : Word
  uepc : Word
  ucause : Word
  utval : Word
  sstatus : Word
  scause : Word
  sepc : Word
  stval : Word
  stvec : Word
  sscratch : Word
  asid : Word
  ptbase : Word
  rnsX : BitVec 7
  rnsY : BitVec 7
  hnd : BitVec 6
  isTask : Bool
  isChart : Bool
  budget : BitVec 4
  runCount : Nat
  outs : List Access
  nextId : Nat
  replies : List Reply
  answers : List Deferred
  fence : Option FenceWait
  blocked : Option Blocked
  busy : Option Busy
  /-- the physical address of the record at whose home quay a slot SUSPENDED in BARW has registered (07 R158) -/
  barPa : Option Nat
  tokErr : List TokenErr
  torn : List Torn
  deriving DecidableEq, Repr

/-! ### The tile -/

/-- A physical decode table: valid bit and 1 KiB of contents (04 R87, R89). -/
structure DTable where
  valid : Bool
  data : Mem
  deriving DecidableEq, Repr

/-- An accumulator: 768 cells of ten bytes, its bound exponent and poison bit (05 R105; 11 R237). -/
structure Acc where
  cells : Mem
  beta : BitVec 7
  poison : Bool
  deriving DecidableEq, Repr

/-- An A stage: 1,536 bytes, fill pointer and poison bit (11 R242). -/
structure AStage where
  data : Mem
  fp : Nat
  poison : Bool
  deriving DecidableEq, Repr

/-- A lock-table entry (07 R154). -/
structure LockEnt where
  start : Nat
  len : Nat
  dest : Bool
  slot : Nat
  tok : BitVec 5
  op : Nat
  deriving DecidableEq, Repr

/-- One direction of an NXCH descriptor (12 Table 12-5). -/
structure NxDir where
  dir : Nat
  src : Nat
  dst : Nat
  rows : Nat
  rowLen : Nat
  sstr : Nat
  dstr : Nat
  deriving DecidableEq, Repr

/-- A collective descriptor (12 Table 12-10). -/
structure CollDesc where
  op : Nat
  red : Nat
  ty : Nat
  group : Nat
  ctl : Nat
  root : Nat
  inp : Nat
  out : Nat
  count : Nat
  deriving DecidableEq, Repr

/-- What an asynchronous operation does (07 R154; 11 R243, R254, R255; 12 R272 to R278). -/
inductive OpKind where
  | copy (dst src len : Nat)
  | gather (dst base idx n z : Nat)
  | scatter (src base idx n z : Nat)
  | nxch (dirs : List NxDir)
  /-- RMMA: accumulator, the stage of A with the poison bit it had at issue or the scratch offset of A, B offset, W, AU, BU -/
  | rmma (acc : Nat) (stage : Option (Nat × Bool)) (aAddr bOff : Nat) (w au bu : Bool)
  | rlda (acc addr : Nat)
  | radds (acc addr : Nat)
  | rsta (acc addr : Nat)
  | obcp (scratch bank len : Nat) (toScratch : Bool)
  | coll (d : CollDesc) (desc : Nat) (seq rank n : Nat)
  deriving DecidableEq, Repr

/-- An asynchronous operation in flight (07 R156): its view of memory is that of the issuing slot at issue. -/
structure AsyncOp where
  id : Nat
  slot : Nat
  tok : BitVec 5
  kind : OpKind
  cls : BitVec 3
  scope : BitVec 3
  /-- the barrier record the operation counts beats on (12 R270) -/
  record : Option Word
  /-- beats added at issue and not yet subtracted -/
  owed : Nat
  /-- of these, beats whose destination unit has been written -/
  landed : Nat
  /-- units, elements or rows moved so far -/
  progress : Nat
  /-- a write to a failed, frozen or Broken block has been discarded (12 Table 12-4: −2) -/
  discarded : Bool
  /-- elements that SCATTER skipped (12 R273) -/
  skipped : Nat
  /-- their numbers -/
  skips : List Nat := []
  /-- POISON for a poisoned index unit has been raised (12 R273) -/
  told : Bool
  /-- 64-byte halves of Poisoned lines written whole and unpoisoned by this operation, as address / 64 (06 R130) -/
  clean : List Nat
  /-- RMMA: runs, rather than waits (11 R246) -/
  started : Bool
  /-- the token has been written; beats are still owed -/
  finished : Bool
  asid : BitVec 9
  root : Word
  sup : Bool
  /-- the data of the unit or element at `progress`, read and not yet written, with its poison (07 R140) -/
  got : Option (Nat × Bool) := none
  /-- units or elements after `progress` that have been moved already: no order is kept among them (07 R140) -/
  moved : List Nat := []
  /-- 64-byte units that a matrix operation has read and not yet used, by their number among those it reads (07 R140) -/
  read : List (Nat × Nat × Bool) := []
  /-- withheld on this address (20 Table 20-5) -/
  held : Option Blocked
  /-- the accesses of the slot older than the operation, as ids below this one (07 R156) -/
  before : Nat
  /-- the retired channels of sets A and B when it issued (05 R110) -/
  ret : BitVec 4 × BitVec 4 := (0xF, 0xF)
  /-- issued as a pass of the repeat buffer, and so older in program order than accesses issued ahead of it (07 R145) -/
  pass : Bool := false
  /-- global accesses of its slot through other pages that have been performed since it was issued (20 R368) -/
  passed : List Passed := []
  deriving DecidableEq, Repr

/-- A task message (12 R277; 02 R46): target, payload with poison, sender's TILEID, WID, WIDF, budget class, domain. -/
structure Msg where
  hnd : BitVec 6
  payload : List (Word × Bool)
  sender : Word
  wid : Word
  widf : Word
  budget : BitVec 4
  dom : Nat
  hinted : Bool
  tx : Nat
  ty : Nat
  rad : Nat
  deriving DecidableEq, Repr

/-- A message on the task network: where it is (02 R46). -/
structure NetMsg where
  msg : Msg
  pos : Nat
  /-- it has reached the tile that takes it -/
  arrived : Bool
  deriving DecidableEq, Repr

/-- An event of the tile syndrome queue: a record of kind RNS_CORR or SHADOW not yet moved (21 R380, Table 21-2). -/
structure SynEvent where
  kind : Nat
  slot : Nat
  /-- the partition of the slot (21 R380) -/
  part : Option Nat
  cycle : Word
  addr : Word
  lo : Word
  deriving DecidableEq, Repr

/-- A compute tile (01 Table 1-4). -/
structure Tile where
  slots : Vector Slot 4
  last : BitVec 2
  scratch : Mem
  scratchP : Mem
  bank : Mem
  bankP : Mem
  imem : Mem
  dtab : Vector DTable 4
  acc : Vector Acc 4
  stage : Vector AStage 2
  rnsMode : BitVec 1
  reta : BitVec 4
  retb : BitVec 4
  lock : List LockEnt
  ops : List AsyncOp
  nextOp : Nat
  msgOut : List Msg
  runq : List Msg
  spill : List Msg
  heldMsg : Option Msg
  htab : Mem
  stk : BitVec 16
  hNfc : Word
  hSeed : Word
  fBase : Vector Word 6
  fExt : Vector Word 6
  dom : Option Nat
  berth : Option Nat
  coit : Nat
  centry : BitVec 13
  faultinj : Word
  synq : List SynEvent
  deriving DecidableEq, Repr

/-! ### Switches and quays -/

/-- A word of the static fabric with its poison bit (03 R56); a control word uses the low 64 bits. -/
structure TWord where
  data : Vec
  poison : Bool
  deriving DecidableEq, Repr

/-- A generator descriptor (03 Table 3-4). -/
structure GenDesc where
  base : Nat
  c0 : Nat
  c1 : Nat
  c2 : Nat
  c3 : Nat
  s1 : Int
  s2 : Int
  s3 : Int
  rng : Nat
  oc : BitVec 3
  en : Bool
  deriving DecidableEq, Repr

/-- A stream range entry (20 Table 20-4). -/
structure RangeEnt where
  vbase : Nat
  len : Nat
  pbase : Nat
  key : BitVec 7
  r : Bool
  v : Bool
  deriving DecidableEq, Repr

/-- A resident configuration at one position (02 R31). -/
structure Conf where
  installed : Bool
  centry : BitVec 13
  rentry : BitVec 13
  rtab : Vector (BitVec 32) 16
  gens : List GenDesc
  ranges : List RangeEnt
  deriving DecidableEq, Repr

/-- What a switch is doing. -/
inductive SwPhase where
  | idle
  | running
  /-- at the step boundary, or waiting at the IEND of a shadow program (13 R293) -/
  | boundary
  deriving DecidableEq, Repr

/-- What fills a reserved entry of a core port: an access of the slot or the token of an operation of the tile, by its number, the token of REP, or the word
of an instruction that has been written back. -/
inductive PortFor where
  | access (id : Nat)
  | op (id : Nat)
  | rep
  | word
  deriving DecidableEq, Repr

/-- An entry of a core port reserved by an instruction that has issued (03 R59): the slot, what fills the entry, and its word, which stands behind the entries
reserved before it. -/
structure PortRes where
  slot : Nat
  id : PortFor
  word : Option TWord
  deriving DecidableEq, Repr

/-- A switch (13 Table 13-1; 03 R58, R65, R66). -/
structure Switch where
  pc : BitVec 14
  c : Vector (BitVec 16) 4
  iter : BitVec 32
  rem : BitVec 16
  tab : BitVec 1
  spc : BitVec 14
  sc : Vector (BitVec 16) 4
  flt : Bool
  phase : SwPhase
  rentry : BitVec 13
  rtab : Vector (BitVec 32) 16
  /-- entry of the shadow route program (03 R66; log entry 17) -/
  shEntry : BitVec 13
  shTab : Vector (BitVec 32) 16
  rmem : Mem
  /-- buffer i: inputs 0 to 14; 15, 16, 17 are the port buffers 28, 29, 30 (the numbering of 02 Table 2-10) -/
  bufs : Vector (List TWord) 18
  /-- entries of inputs 12, 13, 14 reserved by instructions not yet written back, and the words behind them, in issue order (03 R59) -/
  reserved : Vector (List PortRes) 3
  /-- a word has entered or left a buffer in this lattice cycle (02 R53) -/
  moved : Bool
  confs : Vector Conf 4
  deriving DecidableEq, Repr

/-- A generator's progress (03 R69): words issued, words read and not yet pushed by index, words pushed. -/
structure Gen where
  desc : GenDesc
  ended : Bool
  blocked : Bool
  held : Option Blocked
  issued : Nat
  arrived : List (Nat × TWord)
  pushed : Nat
  asid : BitVec 9
  root : Word
  deriving DecidableEq, Repr

/-- A TLB entry (20 R366): page base, log2 of its size, ASID, global, physical base and the leaf's bits. -/
structure TlbEnt where
  vbase : Nat
  lg : Nat
  asid : BitVec 9
  leaf : BitVec 64
  deriving DecidableEq, Repr

/-- The page that a walk is for: every miss of the quay on it shares the walk (20 R367). -/
structure WalkRef where
  asid : BitVec 9
  root : Word
  granule : Nat
  deriving DecidableEq, Repr

/-- How a walk that found no leaf has ended (20 Table 20-5). -/
inductive WalkEnd where
  | absent | migrating | malformed
  deriving DecidableEq, Repr

/-- A walk that has started at a quay and been charged: its page, whose misses share it, and, once it has ended without a leaf, its outcome, until each of them
has learnt it (20 R367). -/
structure WalkRun where
  page : WalkRef
  agents : List Agent
  out : Option WalkEnd
  deriving DecidableEq, Repr

/-- A quay (01 Table 1-5). -/
structure Quay where
  tlb : List TlbEnt
  /-- whose accesses are held, oldest first (20 R372) -/
  replay : List Agent
  walks : List WalkRun
  gens : Vector Gen 2
  deriving DecidableEq, Repr

/-! ### The die -/

/-- ST of the coherence metadata (06 Table 6-4). -/
inductive LineSt where
  | I | S | E | O | M | broken | poisoned
  deriving DecidableEq, Repr

/-- Coherence metadata of a line (06 Table 6-4). -/
structure LineMeta where
  st : LineSt
  xd : Bool
  hint : BitVec 16
  opkg : BitVec 8
  odie : BitVec 3
  deriving DecidableEq, Repr

/-- What the data of a line in a cache comes from: the order class, partition and budget class of the access, and the key slot of its page
(03 R72; 19 R349; 21 Table 21-2). -/
structure Origin where
  oc : Nat := 0
  part : Option Nat := none
  cls : Nat := 0
  key : Option Nat := none
  deriving DecidableEq, Repr

/-- A cached line: 128 bytes, dirty, poison. -/
structure LineBuf where
  data : BitVec 1024
  dirty : Bool
  poison : Bool
  orig : Origin := {}
  deriving DecidableEq, Repr

/-- A line in a remote-data cache with its MOESI state (06 R121), and the agent whose store it was granted for and that has still to be performed (06 R126). -/
structure RdcLine where
  st : LineSt
  data : BitVec 1024
  poison : Bool
  owed : Option Agent := none
  orig : Origin := {}
  deriving DecidableEq, Repr

/-- Seal metadata of a block (06 Table 6-7). -/
structure SealMeta where
  tag : BitVec 128
  count : BitVec 32
  key : BitVec 8
  /-- bytes 21 to 63, which a block that verifies has zero (06 R132) -/
  rsv : BitVec 344 := 0
  /-- its re-seal was cut off by the viral state: the next opening fails (21 R393) -/
  cut : Bool := false
  deriving DecidableEq, Repr

/-- A seal-cache entry (06 R122, R136, R138): sixteen lines with valid and dirty bits, whether the block has been filled, its count, key slot and generation. -/
structure ScEnt where
  lines : Vector (BitVec 1024) 16
  valid : BitVec 16
  dirty : BitVec 16
  filled : Bool
  count : BitVec 32
  key : BitVec 7
  gen : BitVec 1
  failed : Bool
  frozen : Bool
  deriving DecidableEq, Repr

/-- The kind of request a home quay serves (06 Table 6-5). -/
inductive ReqKind where
  | read | own | homeLoad | homeStore
  deriving DecidableEq, Repr

/-- A request for a line, on its way to the home quay or held in its comparator (06 R126): who asks, with the order class, partition, budget class and key slot
of the access that caused it. An agent that asks anew in every cycle keeps its place while it does: `seen` is the cycle in which it last asked. -/
structure CmpReq where
  line : Nat
  kind : ReqKind
  pkg : Nat
  die : Nat
  agent : Agent := .hw
  oc : Nat := 0
  part : Option Nat := none
  cls : Nat := 0
  key : Option Nat := none
  seen : Nat := 0
  deriving DecidableEq, Repr

/-- What lies in a hawser, or on the path from a die through a pier to another package (03 R72 to R74): the beats of message `msg` of an agent, which have left
the hawser or have not, until what they are for has been performed; or the marker of a fence, named by its slot, and whether it has joined. `dst` is a die, or
256 + p for package p; `h` the class modulo 4. -/
inductive HawEnt where
  | beat (src dst h : Nat) (agent : Agent) (msg : Nat) (out : Bool)
  | marker (src dst h pos slot : Nat) (joined : Bool)
  deriving DecidableEq, Repr

/-- Units of activity that a message of an agent is charged, one by one as far as the budget reaches: what it is charged in all, and what is left of it, as pairs of
ACT and units (19 R349, R350). -/
structure Bill where
  agent : Agent
  msg : Nat
  want : List (Nat × Nat)
  left : List (Nat × Nat)
  deriving DecidableEq, Repr

/-- A part of an operation of several accesses that has been performed: whose, at what address, and what it read (19 R350). -/
structure Fetched where
  agent : Agent
  va : Nat
  data : Nat
  poison : Bool
  deriving DecidableEq, Repr

/-- A running transaction on a line: the targets that have still to answer, those whose answer is under way, and the dirty data answered (06 R126, R128). A target
below 8 is a die of the home package, 8 + g the packages 16g to 16g + 15, 256 + p the owner's package p. -/
structure Trans where
  req : CmpReq
  awaiting : List Nat
  answer : Option (BitVec 1024 × Bool)
  flying : List Nat := []
  deriving DecidableEq, Repr

/-- An error record (21 Table 21-1). -/
structure ErrRec where
  kind : Nat
  fl : BitVec 8
  count : Nat
  cycle : Word
  place : Word
  addr : Word
  lo : Word
  hi : Word
  deriving DecidableEq, Repr

/-- A DRAM bank under refresh back-off (21 R391): refreshes owed, cycle until which it is blocked, back-offs queued, and the blocks that wait for it, each with
the cycle in which it was last asked for. -/
structure Bank where
  /-- refreshes that the controller has postponed -/
  owed : Nat
  until_ : Nat
  queued : Nat
  waiting : List (Nat × Nat) := []
  deriving DecidableEq, Repr

/-- A die: DRAM, sidebands, caches, comparator and log. Lines are keyed by physical line address, blocks by physical block address. -/
structure Die where
  dram : Mem
  line : Tbl LineMeta
  sealMeta : Tbl SealMeta
  /-- DRAM lines with their symbols in error: one is corrected, more are not (06 R123, R131) -/
  ecc : Tbl (List Nat)
  sc : Tbl ScEnt
  l2 : Tbl LineBuf
  rdc : Tbl RdcLine
  wbuf : Tbl LineBuf
  /-- requests of this die's cache that have been sent and not yet served -/
  sent : List CmpReq
  /-- requests at this die's home quays, in order of arrival (06 R126) -/
  cmp : List CmpReq
  trans : Tbl Trans
  /-- lines with the partitions whose COHERENCE_LOST has been raised (21 R389) -/
  lostTold : List (Nat × Nat)
  /-- blocks with the partitions whose engines' SEAL_TAG has been raised (06 R136) -/
  sealTold : List (Nat × Nat)
  /-- Poisoned lines that have been read since they became so (21 R387) -/
  poisonSeen : List Nat
  log : List ErrRec
  logLost : Nat
  fsrc : Nat
  viralBit : Bool
  gated : Bool
  waking : Bool
  idle : Nat
  banks : Tbl Bank
  deriving DecidableEq, Repr

/-! ### Partitions and work -/

/-- State of a partition (22 R403). -/
inductive PartSt where
  | none | created | running
  deriving DecidableEq, Repr

/-- One entry of the budget table (18 Table 18-16; 19 R349). -/
structure BudgetEnt where
  limit : BitVec 32
  left : Nat
  deriving DecidableEq, Repr

/-- A queued event: cause code and STVAL (18 R318). -/
structure Event where
  cause : Nat
  tval : Word
  deriving DecidableEq, Repr

/-- A queued launch (19 R341, R342): the 384 bytes of its record; a resume record names its saved chart; the boot record of PART_START. -/
structure Launch where
  lrec : Mem
  saved : Option Nat
  boot : Bool
  /-- a read of one of its wait records is withheld (19 R344) -/
  held : Option Blocked
  /-- the physical address of the wait record at whose home quay it has registered: its generation has not changed since (19 R344) -/
  wait : Option Nat := none
  /-- the work it has been placed as; the record is held until that has been dispatched (19 R342) -/
  placed : Option Nat := none
  /-- PREEMPT with STVAL 0 has been raised for it (19 R353) -/
  noPool : Bool := false
  deriving DecidableEq, Repr

/-- What a scheduling pass looks at besides the memory it reads: queues, saves, berths with what they may yield, task domains, gated dies, and whether there is
an event slot. A pass is made when one of these has changed (19 R343). -/
structure PassView where
  queues : Vector (List Launch) 4
  saves : List Nat
  berths : List (Nat × Bool × Bool)
  domains : List Nat
  gated : List Bool
  events : Bool
  deriving DecidableEq, Repr

/-- A member of a collective group (22 Table 22-9). -/
structure Member where
  mkey : Word
  parent : Nat
  pkg : Nat
  port : Nat
  deriving DecidableEq, Repr

/-- A collective group entry (22 R412, R413; 12 R281); `seqs` holds the sequence number of each member of this package. -/
structure Group where
  epoch : BitVec 32
  members : List Member
  formed : Bool
  broken : Bool
  seqs : Tbl Nat
  since : Nat
  /-- the SEQ of the GROUP_FORM command that waits -/
  cmdSeq : BitVec 32
  deriving DecidableEq, Repr

/-- The phase of a berth sequencer (02 R33). -/
inductive SeqPhase where
  /-- waits for slot 0 of every tile to be IDLE (02 R29) -/
  | starting
  /-- reads the next step entry -/
  | fetch
  /-- an INSTALL or SELECT step runs -/
  | step
  /-- a COLLECTIVE step runs -/
  | collective
  /-- the COLLECTIVE step ended with a negative status and does not complete (12 R281) -/
  | stuck
  /-- a save has been captured or the chart has ended -/
  | ended
  deriving DecidableEq, Repr

/-- A saved chart (19 R355 to R358): everything its position records hold, as the fields they were captured from. -/
structure Saved where
  id : Nat
  kind : Nat
  header : Word
  lrec : Mem
  w : Nat
  h : Nat
  tx : Nat
  ty : Nat
  step : Nat
  seq : SeqPhase
  conf : Nat
  t : Nat
  imgs : Vector Word 4
  count : Nat
  /-- the tiles, switches and quays of the span, keyed by their number in it: tiles row by row, from 8192 on quays line by line -/
  tiles : List (Nat × Tile)
  switches : List (Nat × Switch)
  quays : List (Nat × Quay)
  /-- the positions whose operand bank the chart still holds, each with the relative index of its tile record (19 R357) -/
  banks : List (Nat × Nat)
  /-- the pool space of its record: die, address, bytes (19 R355) -/
  pool : List (Nat × Nat × Nat)
  /-- what slot 0 of a tile, by its number, has read of an operation of several accesses that it has not ended (07 R163) -/
  fetched : List (Nat × Fetched)
  /-- the tiles, by number, whose operand bank a resume has read back from the record (19 R358) -/
  banked : List Nat
  deriving DecidableEq, Repr

/-- A partition (22 R403; 18 R316). -/
structure Part where
  st : PartSt
  groups : BitVec 32
  nvf : Nat
  sblk : Word
  tkey : BitVec 7
  errq : Word
  errKey : BitVec 7
  deleg : Word
  qtime : BitVec 32
  drainlim : BitVec 32
  bact : BitVec 4
  bcls : BitVec 4
  budget : Tbl BudgetEnt
  evq : List Event
  evWait : List Event
  /-- an activity has been held at its source in this cycle, since its event found the queue full (18 R318; log entry 111) -/
  evHeld : Bool
  queues : Vector (List Launch) 4
  saved : List Saved
  routes : Tbl (List (Option Nat))
  /-- the port that beats take now, by 4 * package + h (22 R411) -/
  via : Tbl Nat
  grps : Tbl Group
  epochs : Tbl (BitVec 32)
  cmdSeq : BitVec 32
  errLost : Nat
  /-- a placed launch whose dispatch is still owed (19 R343, R425): the work's id -/
  pendDispatch : List Nat
  /-- what the last scheduling pass that placed nothing looked at; none where a pass is due (19 R343) -/
  passed : Option PassView
  /-- (ASID, granule) pairs whose PAGE_FAULT has been raised since their last re-walk (20 R373; log entry 21) -/
  pfSeen : List (Nat × Nat)
  deriving DecidableEq, Repr

/-- A berth with its chart (02 R30 to R37; 19 R345 to R354). -/
structure Berth where
  id : Nat
  part : Nat
  tx : Nat
  ty : Nat
  w : Nat
  h : Nat
  prio : Nat
  budget : BitVec 4
  lrec : Mem
  seq : SeqPhase
  dispatched : Bool
  stepIdx : Nat
  conf : Nat
  count : Nat
  imgs : Vector Word 4
  installed : Vector Bool 4
  asid : BitVec 9
  root : Word
  /-- cycles without movement (02 R53), and whether QUIESCENT has been raised for the interval (R55) -/
  still : Nat
  told : Bool
  /-- a pre-emption save has been requested with this common count T (19 R352) -/
  saveT : Option Nat
  /-- an eviction is in progress (19 R354) -/
  evict : Bool
  /-- a resume restores this saved chart -/
  resume : Option Nat
  /-- the descriptor address of the current COLLECTIVE step -/
  desc : Nat
  /-- the pool space of the save record under way: die, address, bytes (19 R355) -/
  pool : List (Nat × Nat × Nat)
  /-- 64-byte units of a save record, or of a bank that goes into one, written or read so far -/
  cap : Nat
  held : Option Blocked
  /-- PREEMPT with STVAL 0 has been raised for its eviction (19 R353) -/
  noPool : Bool := false
  /-- the snapshot taken when quiescence was detected, until QUIESCENT has been raised (02 R54) -/
  snap : List Nat := []
  /-- placed from the boot record, no task of its domain having been dispatched yet (22 R403; log entry 118) -/
  boot : Bool := false
  deriving DecidableEq, Repr

/-- A task domain of a grid (02 R43; 19 R348). -/
structure Domain where
  id : Nat
  part : Nat
  tx : Nat
  ty : Nat
  w : Nat
  h : Nat
  budget : BitVec 4
  lrec : Mem
  boot : Bool
  dispatched : Bool
  held : Option Blocked
  /-- a chart that has ended while tasks of its domain still run (02 R37), or a grid that OP 2 has ended (19 R359) -/
  dead : Bool
  /-- ended by OP 2: its draining abandons withheld accesses (19 R359) -/
  cut : Bool
  /-- tasks of a grid not yet created, and the identifier of the next (02 R41) -/
  left : Nat
  wid : Word
  deriving DecidableEq, Repr

/-- Who takes part in a collective: a COLL of a slot, as its operation, or a berth sequencer (02 R33; 12 R279). -/
inductive CollAgent where
  | op (pos id : Nat)
  | berth (id : Nat)
  deriving DecidableEq, Repr

/-- How a collective ends at a member: the token value, its cause, the bytes of OUT with their poison, and how many have been written. -/
structure CollRes where
  status : Int
  cause : Option (Nat × Word)
  bytes : List (Byte × Bool)
  moved : Nat
  deriving DecidableEq, Repr

/-- A member's part in a collective (12 R280): partition, group, sequence number, rank, descriptor; its result once the collective has ended. -/
structure CollMember where
  part : Nat
  group : Nat
  seq : Nat
  rank : Nat
  desc : CollDesc
  agent : CollAgent
  res : Option CollRes
  /-- a beat of its contribution was lost: it arrives poisoned (21 R388) -/
  poison : Bool := false
  deriving DecidableEq, Repr

/-! ### The package -/

/-- A key slot (22 Table 22-4): owner, installed generations with KE and KT, sealing generation, users. -/
structure KeySlot where
  owner : Option Nat
  inst0 : Option (BitVec 256 × BitVec 256)
  inst1 : Option (BitVec 256 × BitVec 256)
  cg : BitVec 1
  users : List Nat
  deriving DecidableEq, Repr

/-- State of a Wiroril port (22 Table 22-7). -/
inductive PortSt where
  | down | training | up | notice
  deriving DecidableEq, Repr

/-- A Wiroril port (22 R410). -/
structure Port where
  st : PortSt
  peerPkg : BitVec 8
  peerPort : BitVec 4
  /-- the peer has been learnt in TRAINING -/
  known : Bool := false
  deriving DecidableEq, Repr

/-- An entry of the MSI-X table: message address and data, and vector control, whose bit 0 masks the vector (22 Table 22-8; log entry 122). -/
structure MsixEnt where
  addr : Word
  data : BitVec 32
  ctrl : BitVec 32
  deriving DecidableEq, Repr

/-- A virtual function (22 Table 22-8). -/
structure Vf where
  served : BitVec 32
  status : BitVec 32
  apbase : Word
  watch : Vector Word 3
  /-- the generation last seen of each watched record (22 R409) -/
  seen : Vector (Option (BitVec 32)) 3
  /-- the physical address of each watched record at whose home quay the function has registered (22 R409) -/
  reg : Vector (Option Nat) 3
  /-- changes of generation for which vectors 1 to 3 have still to fire -/
  due : Vector Nat 3
  msix : Vector MsixEnt 4
  /-- the pending-bit array -/
  pending : BitVec 4
  /-- launch-window writes held (22 R405; 20 R374; 23 R420) -/
  heldWrites : List Word
  deriving DecidableEq, Repr

/-- The management region (22 Table 22-1, R414). -/
structure Mgmt where
  /-- the command block -/
  cmd : Vector Word 32
  seq : BitVec 32
  mstatSeq : BitVec 32
  mstat : BitVec 8
  paw : Word
  report : List Byte
  leaf : Nat
  leavesLeft : Nat
  deriving DecidableEq, Repr

/-- A firmware image in a flash slot: whether its signature verifies, its security version and its digest (23 R417; log entry 85). -/
structure FlashImg where
  signed : Bool
  version : Nat
  digest : BitVec 256
  deriving DecidableEq, Repr

/-- The control region (23 Tables 23-1, 23-2), the two flash slots, and the digest of the firmware that runs (23 R417). -/
structure Ctl where
  pkgid : BitVec 8
  test : Bool
  ckdir : Bool
  cklist : Word
  ckn : BitVec 32
  ckerr : BitVec 4
  ck : BitVec 4
  boot : BitVec 4
  /-- no management command has been accepted since the reset (23 R422) -/
  fresh : Bool
  minVersion : Nat
  flash : Vector FlashImg 2
  fwdig : BitVec 256
  deriving DecidableEq, Repr

/-- A checkpoint image in host memory (23 Table 23-4): its header, the encrypted bundle, and the sealed DRAM with metadata and the masks of its lines. -/
structure CkImage where
  magic : BitVec 32
  ver : Nat
  ckn : BitVec 32
  digest : BitVec 256
  len : Nat
  tag : BitVec 256
  bundle : List Byte
  dram : Vector Mem 8
  sealMeta : Vector (Tbl SealMeta) 8
  line : Vector (Tbl LineMeta) 8
  deriving DecidableEq, Repr

/-- An answer the host receives for an aperture or window access (22 R406, R408). -/
inductive HostAnswer where
  | data (bs : List Byte)
  | done
  | completerAbort
  | unsupported
  deriving DecidableEq, Repr

/-- What runs next (log entry 3): a tile issues for one slot, a switch executes one word, or one row without an encoding happens. -/
inductive Activity where
  | tile (pos : Nat)
  | switch (pos : Nat)
  | event (i : Instr) (a : Arg)
  deriving DecidableEq, Repr

/-- The agent that the instruction being executed acts for: position, slot, the word index it was taken from, whether it is a pass of the
repeat buffer, and whether it has been found STALLED (02 Table 2-1). -/
structure Cur where
  pos : Nat
  slot : Nat
  pc : BitVec 14
  pass : Bool
  stalled : Bool
  deriving DecidableEq, Repr

/-- The package. -/
structure State where
  cycle : Word
  agenda : List Activity
  /-- rows that wait for the next lattice cycle (log entry 3) -/
  deferred : List Activity
  /-- the operands of the row that happens -/
  arg : Arg
  cur : Cur
  fresh : Nat
  pkg : BitVec 8
  testMode : Bool
  viral : Bool
  pmode : Nat
  tiles : Tbl Tile
  switches : Tbl Switch
  quays : Tbl Quay
  dies : Vector Die 8
  parts : Tbl Part
  keys : Tbl KeySlot
  berths : List Berth
  domains : List Domain
  nextWork : Nat
  net : List NetMsg
  colls : List CollMember
  ports : Vector Port 12
  lostPkgs : List Nat
  ctl : Ctl
  mgmt : Mgmt
  vfs : Tbl Vf
  irqs : List (Nat × Nat)
  hostOut : List HostAnswer
  image : Option CkImage
  /-- error records on their way to the error queues of partitions, oldest first (21 R383) -/
  recs : List (Nat × ErrRec)
  /-- what lies in the hawsers and pier paths, in the order in which it entered (03 R72 to R74) -/
  hawsers : List HawEnt
  /-- what messages have still to be charged before they set out (19 R350) -/
  bills : List Bill
  /-- what agents with several accesses have done of them (19 R350) -/
  fetched : List Fetched
  deriving DecidableEq, Repr

/-! ### Reset (23 R416) -/

/-- A repeat state with no passes. -/
def Rep.reset : Rep := {}

/-- A slot after reset: NFC 0xE400 (04 Table 4-3), the other CSRs 0; the registers hold 0 (log entry 1). -/
def Slot.reset : Slot where
  s := Vector.replicate 32 0
  sP := 0
  sPend := 0
  v := Vector.replicate 32 0
  vP := 0
  vPend := 0
  p := 0
  pP := 0
  pPend := 0
  m := Vector.replicate 8 0
  mP := 0
  mPend := 0
  g := Vector.replicate 8 0
  gP := 0
  gPend := 0
  pc := 0
  phase := .idle
  rep := Rep.reset
  nfc := 0xE400
  flags := 0
  seed := 0
  wid := 0
  widf := 0
  unchk := 0
  utvec := 0
  uepc := 0
  ucause := 0
  utval := 0
  sstatus := 0
  scause := 0
  sepc := 0
  stval := 0
  stvec := 0
  sscratch := 0
  asid := 0
  ptbase := 0
  rnsX := 0
  rnsY := 0
  hnd := 0
  isTask := false
  isChart := false
  budget := 0
  runCount := 0
  outs := []
  nextId := 0
  replies := []
  answers := []
  fence := none
  blocked := none
  busy := none
  barPa := none
  tokErr := []
  torn := []

/-- A decode table after reset: valid bit clear (04 R89). -/
def DTable.reset : DTable := { valid := false, data := [] }

/-- An accumulator after reset: zero, bound 0 (05 R106, 23 R416). -/
def Acc.reset : Acc := { cells := [], beta := 0, poison := false }

/-- A stage after reset: empty (11 R242). -/
def AStage.reset : AStage := { data := [], fp := 0, poison := false }

/-- A tile after reset: storage zero and unpoisoned, RNSCFG wide with no channel retired (23 R416; 05 Table 5-9). -/
def Tile.reset : Tile where
  slots := Vector.replicate 4 Slot.reset
  last := 0
  scratch := []
  scratchP := []
  bank := []
  bankP := []
  imem := []
  dtab := Vector.replicate 4 DTable.reset
  acc := Vector.replicate 4 Acc.reset
  stage := Vector.replicate 2 AStage.reset
  rnsMode := 0
  reta := 0xF
  retb := 0xF
  lock := []
  ops := []
  nextOp := 0
  msgOut := []
  runq := []
  spill := []
  heldMsg := none
  htab := []
  stk := 0
  hNfc := 0
  hSeed := 0
  fBase := Vector.replicate 6 0
  fExt := Vector.replicate 6 0
  dom := none
  berth := none
  coit := 0
  centry := 0
  faultinj := 0
  synq := []

/-- A resident configuration that is not installed. -/
def Conf.reset : Conf :=
  { installed := false, centry := 0, rentry := 0, rtab := Vector.replicate 16 0xFFFFFFFF, gens := [], ranges := [] }

/-- A switch after reset. -/
def Switch.reset : Switch where
  pc := 0
  c := Vector.replicate 4 0
  iter := 0
  rem := 0
  tab := 0
  spc := 0
  sc := Vector.replicate 4 0
  flt := false
  phase := .idle
  rentry := 0
  rtab := Vector.replicate 16 0
  shEntry := 0
  shTab := Vector.replicate 16 0
  rmem := []
  bufs := Vector.replicate 18 []
  reserved := Vector.replicate 3 []
  moved := false
  confs := Vector.replicate 4 Conf.reset

/-- A descriptor of a generator that does not run. -/
def GenDesc.none : GenDesc :=
  { base := 0, c0 := 0, c1 := 0, c2 := 0, c3 := 0, s1 := 0, s2 := 0, s3 := 0, rng := 0, oc := 0, en := false }

/-- A generator that has ended. -/
def Gen.reset : Gen :=
  { desc := GenDesc.none, ended := true, blocked := false, held := none, issued := 0, arrived := [], pushed := 0, asid := 0,
    root := 0 }

/-- A quay after reset. -/
def Quay.reset : Quay := { tlb := [], replay := [], walks := [], gens := Vector.replicate 2 Gen.reset }

/-- Metadata of a line no cache holds (06 R125). -/
def LineMeta.idle : LineMeta := { st := .I, xd := false, hint := 0, opkg := 0, odie := 0 }

/-- Seal metadata of a block never sealed (log entry 2). -/
def SealMeta.reset : SealMeta := { tag := 0, count := 0, key := 0 }

/-- A die at the first power-on (21 R384; log entry 2). -/
def Die.reset : Die where
  dram := []
  line := []
  sealMeta := []
  ecc := []
  sc := []
  l2 := []
  rdc := []
  wbuf := []
  sent := []
  cmp := []
  trans := []
  lostTold := []
  sealTold := []
  poisonSeen := []
  log := []
  logLost := 0
  fsrc := 0
  viralBit := false
  gated := false
  waking := false
  idle := 0
  banks := []

/-- A partition in NONE, its controls at the reset values of Tables 18-12 to 18-16. -/
def Part.reset : Part where
  st := .none
  groups := 0
  nvf := 0
  sblk := 0
  tkey := 0
  errq := 0
  errKey := 0
  deleg := 0
  qtime := 0x10000
  drainlim := 0x1D4C0
  bact := 0
  bcls := 0
  budget := []
  evq := []
  evWait := []
  evHeld := false
  queues := Vector.replicate 4 []
  saved := []
  routes := []
  via := []
  grps := []
  epochs := []
  cmdSeq := 0
  errLost := 0
  pendDispatch := []
  passed := none
  pfSeen := []

/-- A key slot with no owner and no generation (22 R397); CG, for which no reset value is given, is 0: the model's choice (log entry 1). -/
def KeySlot.reset : KeySlot := { owner := none, inst0 := none, inst1 := none, cg := 0, users := [] }

/-- A port that is DOWN (23 R416). -/
def Port.reset : Port := { st := .down, peerPkg := 0, peerPort := 0 }

/-- An MSI-X table entry after reset: masked (log entry 122). -/
def MsixEnt.reset : MsixEnt := { addr := 0, data := 0, ctrl := 1 }

/-- A virtual function after reset (22 Table 22-8). -/
def Vf.reset : Vf :=
  { served := 0, status := 0, apbase := 0, watch := Vector.replicate 3 0, seen := Vector.replicate 3 none, reg := Vector.replicate 3 none
    due := Vector.replicate 3 0, msix := Vector.replicate 4 MsixEnt.reset, pending := 0, heldWrites := [] }

/-- The management region after reset; the XMSS key has all its leaves at the first power-on (22 R414). Table 22-1 gives no reset values: that the command block, PAW,
MSTAT, REPORT and the last SEQ are 0 is the model's choice (log entry 105). -/
def Mgmt.reset : Mgmt :=
  { cmd := Vector.replicate 32 0, seq := 0, mstatSeq := 0, mstat := 0, paw := 0, report := [], leaf := 0, leavesLeft := 2 ^ 20 }

/-- The flash slots at the first power-on: an accepted image in slot 0 and none in slot 1 (log entry 85). -/
def flashReset : Vector FlashImg 2 := #v[{ signed := true, version := 0, digest := 0 }, { signed := false, version := 0, digest := 0 }]

/-- The control region after the phases of a reset (23 Table 23-3): BOOT 3. -/
def Ctl.reset : Ctl :=
  { pkgid := 0, test := false, ckdir := false, cklist := 0, ckn := 0, ckerr := 0, ck := 0, boot := 3, fresh := true, minVersion := 0
    flash := flashReset, fwdig := 0 }

/-- The package right after whole-package reset at the first power-on: no partition, every slot IDLE, CYCLE 0, BOOT 3. -/
def State.reset : State where
  cycle := 0
  agenda := []
  deferred := []
  arg := .none
  cur := { pos := 128, slot := 0, pc := 0, pass := false, stalled := false }
  fresh := 0
  pkg := 0
  testMode := false
  viral := false
  pmode := 0
  tiles := []
  switches := []
  quays := []
  dies := Vector.replicate 8 Die.reset
  parts := []
  keys := []
  berths := []
  domains := []
  nextWork := 0
  net := []
  colls := []
  ports := Vector.replicate 12 Port.reset
  lostPkgs := []
  ctl := Ctl.reset
  mgmt := Mgmt.reset
  vfs := []
  irqs := []
  hostOut := []
  image := none
  recs := []
  hawsers := []
  bills := []
  fetched := []

/-! ### How a step can stop -/

/-- Why the machine stops with a fault. No instruction of the specification stops the machine: every cause is taken as an exception. -/
inductive Fault where
  /-- A tile or a switch is asked to issue while firmware stands rejected (23 R417, BOOT 4), when no lattice clock runs: raised by `step`. No run reaches it, since a
  reset empties the agenda, and no row of the opcode table ends so. Safe. -/
  | firmwareRejected
  deriving DecidableEq, Repr

/-- Why an instruction has no meaning. -/
inductive Refusal where
  /-- The instruction is not modelled. Raised by an arm of `exec` only. Safe. -/
  | notModelled (mnemonic : String)
  deriving DecidableEq, Repr

end Sys2Proof.Machine
end

