-- ==== Sys2Proof/Machine/Mem.lean ====
section
/-!
DEFINITION. Memories and tables: bytes by address in canonical form, and association lists with rising keys.
-/
namespace Sys2Proof.Machine

open Sys2Proof

/-- What an address that a memory does not list reads as (log entry 2). -/
def memDefault : Byte := 0

/-- The byte at an address. -/
def memGet : Mem → Nat → Byte
  | [], _ => memDefault
  | (k, b) :: m, a => if a = k then b else if a < k then memDefault else memGet m a

/-- Put a byte in front of the cells above it, listing no default. -/
def memCons (a : Nat) (b : Byte) (m : Mem) : Mem := if b = memDefault then m else (a, b) :: m

/-- The memory with the byte at one address replaced. -/
def memSet : Mem → Nat → Byte → Mem
  | [], a, b => memCons a b []
  | (k, c) :: m, a, b =>
    if a = k then memCons a b m
    else if a < k then memCons a b ((k, c) :: m)
    else (k, c) :: memSet m a b

/-- Addresses strictly rise from above `lo` (none: from anywhere) and no listed byte is the default. -/
def memWfFrom : Option Nat → Mem → Bool
  | _, [] => true
  | none, (k, b) :: m => b != memDefault && memWfFrom (some k) m
  | some l, (k, b) :: m => decide (l < k) && b != memDefault && memWfFrom (some k) m

/-- The canonical form of a memory. -/
def Mem.wf (m : Mem) : Bool := memWfFrom none m

/-- `n` bytes from an address as a little-endian number (00 R4). -/
def memRead (m : Mem) : Nat → Nat → Nat
  | _, 0 => 0
  | a, n + 1 => (memGet m a).toNat + 256 * memRead m (a + 1) n

/-- Write the low `n` bytes of a number, little-endian (00 R4). -/
def memWrite (m : Mem) : Nat → Nat → Nat → Mem
  | _, 0, _ => m
  | a, n + 1, v => memWrite (memSet m a (BitVec.ofNat 8 (v % 256))) (a + 1) n (v / 256)

/-- `n` bytes from an address, lowest first. -/
def memBytes (m : Mem) : Nat → Nat → List Byte
  | _, 0 => []
  | a, n + 1 => memGet m a :: memBytes m (a + 1) n

/-- Write a list of bytes from an address. -/
def memPut (m : Mem) : Nat → List Byte → Mem
  | _, [] => m
  | a, b :: bs => memPut (memSet m a b) (a + 1) bs

/-- Write the bytes of `v` whose bit of `mask` is set; bit i of `mask` is byte i. -/
def memWriteMask (m : Mem) : Nat → Nat → Nat → Nat → Mem
  | _, 0, _, _ => m
  | a, n + 1, mask, v =>
    memWriteMask (if mask % 2 = 1 then memSet m a (BitVec.ofNat 8 (v % 256)) else m) (a + 1) n (mask / 2) (v / 256)

/-- The next `n` bytes from an address below which the memory lists nothing. -/
def memRunFrom : Nat → Mem → Nat → List Byte
  | 0, _, _ => []
  | n + 1, [], a => memDefault :: memRunFrom n [] (a + 1)
  | n + 1, (k, b) :: m, a => if k = a then b :: memRunFrom n m (a + 1) else memDefault :: memRunFrom n ((k, b) :: m) (a + 1)

/-- `n` bytes from an address, lowest first, in one walk. -/
def memRun (m : Mem) (a n : Nat) : List Byte := memRunFrom n (m.dropWhile (fun c => decide (c.1 < a))) a

/-- The cells of a list of bytes from an address. -/
def cellsFrom : Nat → List Byte → Mem
  | _, [] => []
  | a, b :: bs => memCons a b (cellsFrom (a + 1) bs)

/-- The memory with a list of bytes written from an address, in one walk. -/
def memSplice (m : Mem) (a : Nat) (bs : List Byte) : Mem :=
  m.takeWhile (fun c => decide (c.1 < a)) ++ cellsFrom a bs ++ m.dropWhile (fun c => decide (c.1 < a + bs.length))

/-- Every byte from `a` on, `n` of them, back to the default. -/
def memClear (m : Mem) (a n : Nat) : Mem := m.filter (fun c => decide (c.1 < a) || decide (a + n ≤ c.1))

/-- Some byte of `n` from `a` is listed. -/
def memAny (m : Mem) (a n : Nat) : Bool := m.any (fun c => decide (a ≤ c.1) && decide (c.1 < a + n))

/-- The value of a key. -/
def tblGet? {α : Type} : Tbl α → Nat → Option α
  | [], _ => none
  | (k, v) :: t, a => if a = k then some v else if a < k then none else tblGet? t a

/-- The value of a key, or a default. -/
def tblGet {α : Type} (d : α) (t : Tbl α) (a : Nat) : α := (tblGet? t a).getD d

/-- The table with the value of one key set. -/
def tblSet {α : Type} : Tbl α → Nat → α → Tbl α
  | [], a, v => [(a, v)]
  | (k, w) :: t, a, v => if a = k then (a, v) :: t else if a < k then (a, v) :: (k, w) :: t else (k, w) :: tblSet t a v

/-- The table without a key. -/
def tblErase {α : Type} (t : Tbl α) (a : Nat) : Tbl α := t.filter (fun e => e.1 != a)

/-- Element `i` of a vector, or a default. -/
def vget {α : Type} {n : Nat} (d : α) (v : Vector α n) (i : Nat) : α := v.getD i d

/-- The vector with element `i` replaced; out of range it is unchanged. -/
def vset {α : Type} {n : Nat} (v : Vector α n) (i : Nat) (x : α) : Vector α n := v.setIfInBounds i x

/-- Bit `i` of a bit vector set to `b`. -/
def bitSet {w : Nat} (x : BitVec w) (i : Nat) (b : Bool) : BitVec w :=
  if b then x ||| (1#w <<< i) else x &&& ~~~(1#w <<< i)

/-- Bits [hi:lo] of a value, as a number (00 R3). -/
def bitsOf {w : Nat} (x : BitVec w) (hi lo : Nat) : Nat := x.toNat / 2 ^ lo % 2 ^ (hi + 1 - lo)

/-- The low `w` bits of an integer (00 R8). -/
def ofInt (w : Nat) (x : Int) : BitVec w := BitVec.ofInt w x

end Sys2Proof.Machine
end

