-- ==== Sys2Proof/Machine/Ops.lean ====
section
/-!
DEFINITION. The named operations over places, registers, ports and the partition's events; taking an exception and returning from it.
-/
namespace Sys2Proof.Machine

open Sys2Proof

/-- The outcome of an instruction. -/
abbrev Out := Host.Outcome State Fault Refusal

/-! ### Places of the lattice (01 R12 to R17; 02 R44) -/

/-- Column of a position. -/
def posX (pos : Nat) : Nat := pos % 128

/-- Row of a position. -/
def posY (pos : Nat) : Nat := pos / 128

/-- The position at a column and a row. -/
def mkPos (x y : Nat) : Nat := 128 * y + x

/-- The die of a position (01 R14). -/
def dieOf (pos : Nat) : Nat := 4 * (posY pos / 37) + posX pos / 32

/-- The row of a position within its die (01 R14). -/
def dieRow (pos : Nat) : Nat := posY pos % 37

/-- A quay, not a tile (01 R11). -/
def isQuay (pos : Nat) : Bool := dieRow pos % 9 == 0

/-- A position of the lattice that holds a tile. -/
def isTilePos (pos : Nat) : Bool := decide (pos < 9472) && !isQuay pos

/-- The package band of a position (01 R12, R14). -/
def bandOf (pos : Nat) : Nat := 4 * dieOf pos + min (dieRow pos / 9) 3

/-- The tile-grid row of a tile (02 R44). -/
def gridY (pos : Nat) : Nat := 32 * (posY pos / 37) + 8 * (dieRow pos / 9) + dieRow pos % 9 - 1

/-- The tile at a tile-grid column and row (02 R44). -/
def gridPos (tx ty : Nat) : Nat := mkPos tx (37 * (ty / 32) + 9 * (ty % 32 / 8) + ty % 8 + 1)

/-- Tile-grid distance of two tiles (02 R44). -/
def gridDist (p q : Nat) : Nat :=
  (posX p - posX q) + (posX q - posX p) + ((gridY p - gridY q) + (gridY q - gridY p))

/-- The neighbour tile in direction 0 north, 1 east, 2 south, 3 west; none at the package edge (01 R15). -/
def neighbour (pos d : Nat) : Option Nat :=
  match d with
  | 0 => if gridY pos = 0 then none else some (gridPos (posX pos) (gridY pos - 1))
  | 1 => if posX pos = 127 then none else some (pos + 1)
  | 2 => if gridY pos = 63 then none else some (gridPos (posX pos) (gridY pos + 1))
  | _ => if posX pos = 0 then none else some (pos - 1)

/-- The lattice position joined by the link on a side (03 R57). -/
def linkPos (pos side : Nat) : Option Nat :=
  match side with
  | 0 => if posY pos = 0 then none else some (pos - 128)
  | 1 => if posX pos = 127 then none else some (pos + 1)
  | 2 => if posY pos = 73 then none else some (pos + 128)
  | _ => if posX pos = 0 then none else some (pos - 1)

/-- TILEID of a tile of package `pkg` (01 R17, Table 1-3). -/
def tileId (pkg : BitVec 8) (pos : Nat) : Word :=
  BitVec.ofNat 64 (pkg.toNat * 2 ^ 40 + dieOf pos * 2 ^ 32 + bandOf pos * 2 ^ 24 + posY pos * 2 ^ 16 + posX pos)

/-! ### Reading and replacing parts of the state -/

/-- The tile at a position. -/
def tileAt (s : State) (pos : Nat) : Tile := tblGet Tile.reset s.tiles pos

/-- Replace a tile. -/
def setTile (s : State) (pos : Nat) (t : Tile) : State := { s with tiles := tblSet s.tiles pos t }

/-- A slot of a tile. -/
def slotAt (s : State) (pos k : Nat) : Slot := vget Slot.reset (tileAt s pos).slots k

/-- Replace a slot. -/
def setSlot (s : State) (pos k : Nat) (x : Slot) : State :=
  setTile s pos { tileAt s pos with slots := vset (tileAt s pos).slots k x }

/-- The switch at a position. -/
def switchAt (s : State) (pos : Nat) : Switch := tblGet Switch.reset s.switches pos

/-- Replace a switch. -/
def setSwitch (s : State) (pos : Nat) (w : Switch) : State := { s with switches := tblSet s.switches pos w }

/-- The quay at a position. -/
def quayAt (s : State) (pos : Nat) : Quay := tblGet Quay.reset s.quays pos

/-- Replace a quay. -/
def setQuay (s : State) (pos : Nat) (q : Quay) : State := { s with quays := tblSet s.quays pos q }

/-- A die. -/
def dieAt (s : State) (d : Nat) : Die := vget Die.reset s.dies d

/-- Replace a die. -/
def setDie (s : State) (d : Nat) (x : Die) : State := { s with dies := vset s.dies d x }

/-- A partition. -/
def partAt (s : State) (p : Nat) : Part := tblGet Part.reset s.parts p

/-- Replace a partition. -/
def setPart (s : State) (p : Nat) (x : Part) : State := { s with parts := tblSet s.parts p x }

/-- The slot the instruction acts for. -/
def me (s : State) : Slot := slotAt s s.cur.pos s.cur.slot

/-- Replace the slot the instruction acts for. -/
def setMe (s : State) (x : Slot) : State := setSlot s s.cur.pos s.cur.slot x

/-- The tile the instruction acts for. -/
def myTile (s : State) : Tile := tileAt s s.cur.pos

/-- Replace the tile the instruction acts for. -/
def setMyTile (s : State) (t : Tile) : State := setTile s s.cur.pos t

/-- The slot is slot 0 of an installed chart (02 R28). -/
def chartSlot (s : State) : Bool := s.cur.slot == 0 && (me s).isChart

/-- Put a row with its operands into the agenda, after what already stands there (log entry 3). -/
def later (s : State) (i : Instr) (a : Arg) : State := { s with agenda := s.agenda ++ [.event i a] }

/-- Put off a row to the next lattice cycle. -/
def nextCycle (s : State) (i : Instr) (a : Arg) : State := { s with deferred := s.deferred ++ [.event i a] }

/-- A row with one operand; without it nothing happens. -/
def with1 (s : State) (f : Nat → Out) : Out :=
  match s.arg with
  | .one a => f a
  | _ => .next s

/-- A row with two operands. -/
def with2 (s : State) (f : Nat → Nat → Out) : Out :=
  match s.arg with
  | .two a b => f a b
  | _ => .next s

/-- A row with three operands. -/
def with3 (s : State) (f : Nat → Nat → Nat → Out) : Out :=
  match s.arg with
  | .three a b c => f a b c
  | _ => .next s

/-- A row whose operand is the value written to a CSR. -/
def withValue (s : State) (f : Word → Out) : Out :=
  match s.arg with
  | .value x => f x
  | _ => .next s

/-- A row that reads or writes a CSR. -/
def withAccess (s : State) (f : Bool → Word → Out) : Out :=
  match s.arg with
  | .access wr x => f wr x
  | _ => .next s

/-- Take the next free value's number (log entry 4). -/
def nextFresh (s : State) : State := { s with fresh := s.fresh + 1 }

/-- A slot whose context has ended: IDLE, with nothing under way; its registers keep their values until work begins in it (02 R24, R50, R51). -/
def Slot.ended (x : Slot) : Slot :=
  { x with
    phase := .idle, sPend := 0, vPend := 0, pPend := 0, mPend := 0, gPend := 0, outs := [], replies := [], answers := [], fence := none, blocked := none
    busy := none, barPa := none, tokErr := [], torn := [], isTask := false, isChart := false }

/-! ### Partitions -/

/-- The group of the current mode that a band belongs to (22 R402, Table 22-6). -/
def groupOfBand (mode band : Nat) : Nat := band * 2 ^ mode / 32

/-- The partition that owns a group, if one does (22 R402). -/
def groupOwner (s : State) (g : Nat) : Option Nat :=
  (s.parts.find? (fun e => e.2.st != .none && e.2.groups.getLsbD g)).map (·.1)

/-- The partition of a position. -/
def partOf (s : State) (pos : Nat) : Option Nat := groupOwner s (groupOfBand s.pmode (bandOf pos))

/-- The supervisor CSRs of the partition of a position; the reset values where no partition owns it. -/
def myPart (s : State) : Part :=
  match partOf s s.cur.pos with
  | some p => partAt s p
  | none => Part.reset

/-- The capacity of an event queue (18 R318). -/
def eventQueueSize : Nat := 256

/-- Raise a cause to the supervisor of a partition (18 R318, R326): merged with an equal queued entry, appended, or waiting while the queue is full; the
activity that raised it is then held at its source (`heldAtSource`; log entry 111). -/
def raiseEvent (s : State) (p cause : Nat) (tval : Word) : State :=
  let x := partAt s p
  let e : Event := { cause := cause, tval := tval }
  if x.evq.contains e then s
  else if x.evq.length < eventQueueSize && x.evWait.isEmpty then setPart s p { x with evq := x.evq ++ [e] }
  else setPart s p { x with evWait := x.evWait ++ [e] }

/-- Events that wait for a partition's full queue, but for PAGE_FAULTs: the access that one was raised for is withheld in any case, until a TLBINV (20 R373). -/
def lateEvents (x : Part) : Nat := (x.evWait.filter (fun e => e.cause != 0x07)).length

/-- An activity has raised an event that found its partition's queue full. -/
def raisedLate (s s1 : State) : Bool := s1.parts.any (fun e => decide (lateEvents (partAt s e.1) < lateEvents e.2))

/-- The source holds the activity that raised an event into a full queue, and nothing else: the activity has done nothing, and is tried again (18 R318;
log entry 111). -/
def heldAtSource (s s1 : State) : State :=
  { s with parts := s.parts.map (fun e => (e.1, { e.2 with evHeld := e.2.evHeld || decide (lateEvents e.2 < lateEvents (partAt s1 e.1)) })) }

/-- Raise a cause to the supervisor of the partition of a position. -/
def raiseAt (s : State) (pos cause : Nat) (tval : Word) : State :=
  match partOf s pos with
  | some p => raiseEvent s p cause tval
  | none => s

/-! ### Cause codes (18 Table 18-23) -/

def cUNDEF : Nat := 0x01
def cRSVD : Nat := 0x02
def cPRIV : Nat := 0x03
def cMISALIGN : Nat := 0x04
def cPORT : Nat := 0x05
def cRANGE : Nat := 0x06
def cPAGE : Nat := 0x07
def cACCESS : Nat := 0x08
def cPOISON : Nat := 0x09
def cRNSOVF : Nat := 0x0A
def cRNSCH : Nat := 0x0B
def cRNSUNC : Nat := 0x0C
def cNONFINITE : Nat := 0x0D
def cFMT : Nat := 0x0E
def cSEALTAG : Nat := 0x0F
def cSEALWRAP : Nat := 0x10
def cCOLLMIS : Nat := 0x11
def cCOLLLOST : Nat := 0x12
def cCOLLNF : Nat := 0x13
def cQUIESCENT : Nat := 0x14
def cBARRIER : Nat := 0x15
def cOVERFLOW : Nat := 0x16
def cUSERTRAP : Nat := 0x17
def cSVC : Nat := 0x18
def cBREAK : Nat := 0x19
def cPREEMPT : Nat := 0x1A
def cCOHLOST : Nat := 0x1B
def cSHADOW : Nat := 0x1C
def cOVERRUN : Nat := 0x1D

/-- The delegable set (13 R298). -/
def delegable (cause : Nat) : Bool := [0x06, 0x0A, 0x0D, 0x0E, 0x11, 0x13, 0x15, 0x17].contains cause

/-! ### Words of the two memories of a tile -/

/-- The run of undefined words of a slot that holds a word index. -/
def Slot.tornAt (t : Slot) (idx : Nat) : Option Torn := t.torn.find? (fun x => decide (x.start ≤ idx) && decide (idx < x.start + x.len))

/-- The instruction word that slot `k` of a tile fetches at a word index: of its memory, or a free value where its code is undefined (08 R189; 19 R355). -/
def Tile.wordAt (t : Tile) (k idx : Nat) : Nat :=
  match (vget Slot.reset t.slots k).tornAt idx with
  | some x => (Config.freeWord (x.seed + (idx - x.start))).toNat % 2 ^ 32
  | none => memRead t.imem (4 * idx) 4

/-- The instruction word that a slot of the package fetches. -/
def codeWord (s : State) (pos k idx : Nat) : Nat := (tileAt s pos).wordAt k idx

/-- The word of the instruction being executed. -/
def curWord (s : State) : Word := BitVec.ofNat 64 (codeWord s s.cur.pos s.cur.slot s.cur.pc.toNat)

/-! ### Switch buffers (03 R58, R59) -/

/-- The words of a buffer: inputs 0 to 14, port buffers 15 to 17. -/
def bufOf (w : Switch) (b : Nat) : List TWord := vget [] w.bufs b

/-- Replace the words of a buffer: a word has entered or left it. -/
def setBuf (w : Switch) (b : Nat) (ws : List TWord) : Switch := { w with bufs := vset w.bufs b ws, moved := true }

/-- Append a word to a buffer of a switch. -/
def pushBuf (s : State) (pos b : Nat) (x : TWord) : State :=
  let w := switchAt s pos
  setSwitch s pos (setBuf w b (bufOf w b ++ [x]))

/-- The words at the head of a port's reserved entries that have been filled enter the port (03 R59). -/
def drainPort (s : State) (pos k : Nat) : State :=
  let w := switchAt s pos
  let q := vget [] w.reserved k
  let ready := q.takeWhile (fun r => r.word.isSome)
  if ready = [] then s
  else setSwitch s pos (setBuf { w with reserved := vset w.reserved k (q.drop ready.length) } (12 + k) (bufOf w (12 + k) ++ ready.filterMap (·.word)))

/-- An instruction writes a word into a port: behind the entries that are reserved before it, or at once. -/
def portWrite (s : State) (pos slot k : Nat) (x : TWord) : State :=
  let w := switchAt s pos
  let q := vget [] w.reserved k
  if q = [] then pushBuf s pos (12 + k) x
  else setSwitch s pos { w with reserved := vset w.reserved k (q ++ [{ slot := slot, id := .word, word := some x }]) }

/-- An instruction whose result comes later reserves an entry of a port. -/
def portReserve (s : State) (pos slot k : Nat) (id : PortFor) : State :=
  let w := switchAt s pos
  setSwitch s pos { w with reserved := vset w.reserved k (vget [] w.reserved k ++ [{ slot := slot, id := id, word := none }]) }

/-- The first entry reserved for a result is filled. -/
def fillFirst (slot : Nat) (id : PortFor) (x : TWord) : List PortRes → List PortRes
  | [] => []
  | r :: rs => if r.slot = slot ∧ r.id = id ∧ r.word = none then { r with word := some x } :: rs else r :: fillFirst slot id x rs

/-- A result fills its entry. -/
def portFill (s : State) (pos slot k : Nat) (id : PortFor) (x : TWord) : State :=
  let w := switchAt s pos
  drainPort (setSwitch s pos { w with reserved := vset w.reserved k (fillFirst slot id x (vget [] w.reserved k)) }) pos k

/-- The capacity of a core-side buffer (03 R58). -/
def coreBufSize : Nat := 4

/-- A core port (0 pa, 1 pb, 2 pd) has an entry that is neither occupied nor reserved (03 R59). -/
def portRoom (s : State) (pos k : Nat) : Bool :=
  let w := switchAt s pos
  decide ((bufOf w (12 + k)).length + (vget [] w.reserved k).length < coreBufSize)

/-! ### Register writes of a slot (08 R164 to R167) -/

/-- The unread negative statuses after a register has been written anew: no later read of the register raises the old one (log entry 8). -/
def forgetToken (r : Nat) (es : List TokenErr) : List TokenErr :=
  es.map (fun e => if e.reg.toNat = r then { e with reg := 0 } else e)

/-- Write a word and its poison into an s register: s0 discards, s30 and s31 enqueue (08 R165; 03 R59). -/
def wrS (s : State) (pos k r : Nat) (v : Word) (poison : Bool) : State :=
  if r = 0 then s
  else if r = 30 ∨ r = 31 then portWrite s pos k (r - 30) { data := v.setWidth 512, poison := poison }
  else
    let t := slotAt s pos k
    setSlot s pos k
      { t with
        s := vset t.s r v, sP := bitSet t.sP r poison, sPend := bitSet t.sPend r false, tokErr := forgetToken r t.tokErr }

/-- A token register that is a port: an entry is reserved at issue (03 R59). -/
def reserveToken (s : State) (pos k tok : Nat) (id : PortFor) : State :=
  if tok = 30 ∨ tok = 31 then portReserve s pos k (tok - 30) id else s

/-- A token that was reserved for is written: it fills its entry of a port, or its s register. -/
def wrToken (s : State) (pos k tok : Nat) (id : PortFor) (v : Word) : State :=
  if (tok = 30 ∨ tok = 31) ∧ (vget [] (switchAt s pos).reserved (tok - 30)).any (fun r => r.slot == k && r.id == id && r.word.isNone) then
    portFill s pos k (tok - 30) id { data := v.setWidth 512, poison := false }
  else wrS s pos k tok v false

/-- Write a vector register: v31 enqueues. -/
def wrV (s : State) (pos k r : Nat) (v : Vec) (poison : Bool) : State :=
  if r = 31 then portWrite s pos k 2 { data := v, poison := poison }
  else
    let t := slotAt s pos k
    setSlot s pos k { t with v := vset t.v r v, vP := bitSet t.vP r poison, vPend := bitSet t.vPend r false }

/-- Write a predicate: p0 discards. -/
def wrP (s : State) (pos k r : Nat) (v : Bool) (poison : Bool) : State :=
  if r = 0 then s
  else
    let t := slotAt s pos k
    setSlot s pos k { t with p := bitSet t.p r v, pP := bitSet t.pP r poison, pPend := bitSet t.pPend r false }

/-- Write a mask: m0 discards. -/
def wrM (s : State) (pos k r : Nat) (v : BitVec 16) (poison : Bool) : State :=
  if r = 0 then s
  else
    let t := slotAt s pos k
    setSlot s pos k { t with m := vset t.m r v, mP := bitSet t.mP r poison, mPend := bitSet t.mPend r false }

/-- Write a scale register. -/
def wrG (s : State) (pos k r : Nat) (v : Word) (poison : Bool) : State :=
  let t := slotAt s pos k
  setSlot s pos k { t with g := vset t.g r v, gP := bitSet t.gP r poison, gPend := bitSet t.gPend r false }

/-- Write an s register of the current slot. -/
def setS (s : State) (r : BitVec 5) (v : Word) (poison : Bool) : State := wrS s s.cur.pos s.cur.slot r.toNat v poison

/-- Write a v register of the current slot. -/
def setV (s : State) (r : BitVec 5) (v : Vec) (poison : Bool) : State := wrV s s.cur.pos s.cur.slot r.toNat v poison

/-- Write a predicate of the current slot. -/
def setP (s : State) (r : BitVec 5) (v : Bool) (poison : Bool) : State := wrP s s.cur.pos s.cur.slot r.toNat v poison

/-- Write a mask of the current slot. -/
def setM (s : State) (r : BitVec 5) (v : BitVec 16) (poison : Bool) : State := wrM s s.cur.pos s.cur.slot r.toNat v poison

/-- Write a scale register of the current slot. -/
def setG (s : State) (r : BitVec 5) (v : Word) (poison : Bool) : State := wrG s s.cur.pos s.cur.slot r.toNat v poison

/-- The poison bit of a mask; m0 is never poisoned (08 R165). -/
def Slot.maskPoison (t : Slot) (r : Nat) : Bool := r != 0 && t.mP.getLsbD r

/-- The lanes a mask makes active; m0 is all ones (08 Table 8-1). -/
def Slot.maskOf (t : Slot) (r : Nat) : BitVec 16 := if r = 0 then 0xFFFF else vget 0 t.m r

/-- A predicate; p0 is always true (08 Table 8-1). -/
def Slot.predOf (t : Slot) (r : Nat) : Bool := r == 0 || t.p.getLsbD r

/-- The word of an s register; s0 reads 0 (08 Table 8-1). -/
def Slot.sreg (t : Slot) (r : Nat) : Word := if r = 0 then 0 else vget 0 t.s r

/-! ### Taking an exception and returning (13 R298, R299; 18 R327, R328; 08 R180) -/

/-- A cause to be raised: its row of 18 Table 18-24, cause code, trap value, CODE field, and whether EPC is the next word (TRAP, SVC). -/
structure Cause where
  row : Nat
  cause : Nat
  tval : Word
  code : Nat := 0
  next : Bool := false
  deriving DecidableEq, Repr

/-- The slot enters the user handler for a synchronous cause (13 R298). -/
def entersUser (s : State) (pos : Nat) (t : Slot) (cause : Nat) : Bool :=
  delegable cause && !t.sstatus.getLsbD 0 &&
    (match partOf s pos with
     | some p => (partAt s p).deleg.getLsbD cause
     | none => false) &&
    t.utvec.getLsbD 13 && !t.ucause.getLsbD 63

/-- The pending bits once a token register has been named: s0 and the ports hold none (08 R165, R166; 03 R59). -/
def pendToken (x : BitVec 32) (tok : Nat) : BitVec 32 := if tok = 0 ∨ tok = 30 ∨ tok = 31 then x else bitSet x tok true

/-- A repeat pass of the slot may issue. -/
def Rep.issuing (r : Rep) : Bool := r.active && !r.susp

/-- The repeat state from trap entry on: passes that remain are suspended, and RESUME names the first scalar word not issued (08 R180). -/
def suspendRep (t : Slot) : Rep :=
  if t.rep.issuing then { t.rep with susp := true, resume := t.pc } else t.rep

/-- The pending bits from trap entry on: suspended passes count as none that remain, so the token of REP is not waited for (08 R180; 18 R332). -/
def suspendPend (t : Slot) : BitVec 32 := if t.rep.issuing then bitSet t.sPend t.rep.tok.toNat false else t.sPend

/-- User trap entry (13 R298). -/
def userEntry (t : Slot) (cause code : Nat) (tval : Word) (epc : Nat) : Slot :=
  { t with
    uepc := BitVec.ofNat 64 (epc % 8192)
    ucause := BitVec.ofNat 64 (2 ^ 63 + code % 2048 * 256 + cause)
    utval := tval
    pc := (t.utvec.setWidth 13).setWidth 14
    rep := suspendRep t
    sPend := suspendPend t
    phase := .running }

/-- SSTATUS after supervisor trap entry: PV := V, PIE := IE, IE := 0, V := 1 (18 R327). -/
def statusAtEntry (x : Word) : Word :=
  bitSet (bitSet (bitSet (bitSet x 1 (x.getLsbD 0)) 2 (x.getLsbD 3)) 3 false) 0 true

/-- Supervisor trap entry (18 R327). -/
def supervisorEntry (t : Slot) (event : Bool) (cause code : Nat) (tval : Word) (epc : Nat) : Slot :=
  { t with
    sepc := BitVec.ofNat 64 (epc % 8192)
    scause := BitVec.ofNat 64 ((if event then 2 ^ 63 else 0) + code % 2048 * 256 + cause)
    stval := tval
    sstatus := statusAtEntry t.sstatus
    pc := (t.stvec.setWidth 13).setWidth 14
    rep := suspendRep t
    sPend := suspendPend t
    phase := .running }

/-- A withheld access waits for a TLBINV; one that has been released, or answered with a retry, is tried again (20 R372, R374). -/
def withheld (h : Option Blocked) : Bool := h.any (fun b => !b.released && !b.retry)

/-- What agents keep of an operation of several accesses is dropped. -/
def forget (s : State) (ag : Agent) : State :=
  if s.fetched.any (fun f => f.agent == ag) then { s with fetched := s.fetched.filter (fun f => f.agent != ag) } else s

/-- The marker of a slot's fence. -/
def HawEnt.markerOf (pos slot : Nat) : HawEnt → Bool
  | .marker _ _ _ p k _ => p == pos && k == slot
  | .beat .. => false

/-- Walks without the agents that make no further access; an outcome that nobody waits for is gone. -/
def leaveWalks (gone : Agent → Bool) (ws : List WalkRun) : List WalkRun :=
  (ws.map (fun x => { x with agents := x.agents.filter (fun a => !gone a) })).filter (fun x => x.out.isNone || !x.agents.isEmpty)

/-- A slot gives up what keeps it STALLED: an access it waits for, a withheld one, a fence. Its instruction is executed anew (19 R351; log entry 25). -/
def abandon (s : State) (pos k : Nat) : State :=
  let t := slotAt s pos k
  if t.busy.isNone && t.blocked.isNone && t.fence.isNone then s
  else
    let s1 := forget (setSlot s pos k { t with busy := none, blocked := none, fence := none }) (.inline pos k)
    { s1 with
      quays := s1.quays.map (fun e => (e.1, { e.2 with replay := e.2.replay.erase (.inline pos k), walks := leaveWalks (· == .inline pos k) e.2.walks }))
      hawsers := s1.hawsers.filter (fun x => !x.markerOf pos k) }

/-- The instruction of the current slot no longer waits: what it kept of its accesses is dropped. -/
def endBusy (s : State) : State :=
  if (me s).busy.isNone then s else forget (setMe s { me s with busy := none }) (.inline s.cur.pos s.cur.slot)

/-- A slot takes a cause: the user handler where R298 says so, the supervisor otherwise; events always enter the supervisor. -/
def takeTrap (s0 : State) (pos k : Nat) (event : Bool) (cause code : Nat) (tval : Word) (epc : Nat) : State :=
  let s := abandon s0 pos k
  let t := slotAt s pos k
  setSlot s pos k
    (if !event && entersUser s pos t cause then userEntry t cause code tval epc
     else supervisorEntry t event cause code tval epc)

/-- The EPC of a cause taken at an instruction boundary: the first instruction not yet issued (12 R424; 08 R180); at an overrun or an event a FENCE that still holds
its slot STALLED is given up and executed again (19 R351; log entry 25). -/
def boundaryEpc (t : Slot) : Nat :=
  if t.fence.isSome then (t.pc - 1).toNat
  else if t.rep.issuing then t.rep.base.toNat + t.rep.idx.toNat else t.pc.toNat

/-- Resume after a handler: suspended passes, whose token is pending again, and then the scalar stream at RESUME, or a word index (13 R299;
18 R328; 08 R166). -/
def resumeAt (t : Slot) (epc : Word) : Slot :=
  if t.rep.active then
    { t with rep := { t.rep with susp := false }, pc := t.rep.resume, sPend := pendToken t.sPend t.rep.tok.toNat }
  else { t with pc := (epc.setWidth 13).setWidth 14 }

/-- URET: UH := 0 and resume (13 R299). -/
def returnUser (t : Slot) : Slot := resumeAt { t with ucause := bitSet t.ucause 63 false } t.uepc

/-- ERET: V := PV, IE := PIE, PIE := 0, PV := 0 and resume (18 R328). -/
def returnSupervisor (t : Slot) : Slot :=
  resumeAt
    { t with sstatus := bitSet (bitSet (bitSet (bitSet t.sstatus 0 (t.sstatus.getLsbD 1)) 3 (t.sstatus.getLsbD 2)) 2 false) 1 false }
    t.sepc

/-! ### Tokens (07 R156; 12 R271) -/

/-- The first read of a token raises the cause of its status. -/
def noteStatus (s : State) (pos k tok : Nat) (cause : Option (Nat × Word)) : State :=
  match cause with
  | none => s
  | some (c, tv) =>
    let t := slotAt s pos k
    setSlot s pos k { t with tokErr := t.tokErr ++ [{ reg := BitVec.ofNat 5 tok, cause := c, tval := tv }] }

/-- Write a token register with a status; a negative one raises `cause` at the first read. -/
def writeToken (s : State) (pos k tok : Nat) (v : Int) (cause : Option (Nat × Word)) : State :=
  noteStatus (wrS s pos k tok (ofInt 64 v) false) pos k tok cause

end Sys2Proof.Machine
end

