-- ==== Sys2Proof/Machine/Fields.lean ====
section
/-!
DEFINITION. Which registers an instruction names: its guard, sources, destinations and governing mask, and the fields a repeat pass steps.
-/
namespace Sys2Proof.Machine

open Sys2Proof

/-- A register file (08 Table 8-1); t selectors are held in NFC. -/
inductive RFile where
  | s | v | p | m | g | a | t
  deriving DecidableEq, Repr

/-- A register by file and number. -/
structure Reg where
  file : RFile
  num : Nat
  deriving DecidableEq, Repr

/-- The file's number in the trap value of POISON (08 R168). -/
def RFile.code : RFile → Nat
  | .s => 0 | .v => 1 | .p => 2 | .m => 3 | .a => 4 | .g => 5 | .t => 6

/-- The number of registers a stepped field wraps at (08 R178). -/
def RFile.size : RFile → Nat
  | .s => 32 | .v => 32 | .p => 8 | .m => 8 | .g => 8 | .a => 4 | .t => 4

/-- A token field as a register. -/
def tokReg (t : BitVec 5) : Reg := ⟨.s, t.toNat⟩

/-- `n` s registers from a number on; numbers past 31 wrap (log entry 7). -/
def regRun (r n : Nat) : List Reg := (List.range n).map (fun k => ⟨.s, (r + k) % 32⟩)

/-- The guard field pg (08 R169); p0 for a row without an encoding. -/
def guardOf : Instr → BitVec 3
  | .add g _ _ _ => g
  | .sub g _ _ _ => g
  | .and g _ _ _ => g
  | .or g _ _ _ => g
  | .xor g _ _ _ => g
  | .andn g _ _ _ => g
  | .sll g _ _ _ => g
  | .srl g _ _ _ => g
  | .sra g _ _ _ => g
  | .min g _ _ _ => g
  | .max g _ _ _ => g
  | .minu g _ _ _ => g
  | .maxu g _ _ _ => g
  | .mul g _ _ _ => g
  | .mulh g _ _ _ => g
  | .mulhu g _ _ _ => g
  | .div g _ _ _ => g
  | .divu g _ _ _ => g
  | .rem g _ _ _ => g
  | .remu g _ _ _ => g
  | .clz g _ _ => g
  | .ctz g _ _ => g
  | .popc g _ _ => g
  | .addi g _ _ _ => g
  | .andi g _ _ _ => g
  | .ori g _ _ _ => g
  | .xori g _ _ _ => g
  | .slli g _ _ _ => g
  | .srli g _ _ _ => g
  | .srai g _ _ _ => g
  | .cmpi g _ _ _ _ => g
  | .limm g _ _ _ => g
  | .cmp g _ _ _ _ => g
  | .pand g _ _ _ => g
  | .por g _ _ _ => g
  | .pxor g _ _ _ => g
  | .pandn g _ _ _ => g
  | .pnot g _ _ => g
  | .pnz g _ _ => g
  | .pget g _ _ => g
  | .br g _ => g
  | .jalr g _ _ => g
  | .texit g => g
  | .itend g => g
  | .csrrw g _ _ _ => g
  | .csrrc g _ _ _ => g
  | .widx g _ _ _ _ => g
  | .rep g _ _ _ _ _ => g
  | .lea g _ _ _ _ => g
  | .lpc g _ _ => g
  | .lwin g _ _ _ => g
  | .vaddI32 g _ _ _ _ => g
  | .vsubI32 g _ _ _ _ => g
  | .vandI32 g _ _ _ _ => g
  | .vorI32 g _ _ _ _ => g
  | .vxorI32 g _ _ _ _ => g
  | .vandnI32 g _ _ _ _ => g
  | .vsllI32 g _ _ _ _ => g
  | .vsrlN32 g _ _ _ _ => g
  | .vsraI32 g _ _ _ _ => g
  | .vminI32 g _ _ _ _ => g
  | .vmaxI32 g _ _ _ _ => g
  | .vminN32 g _ _ _ _ => g
  | .vmaxN32 g _ _ _ _ => g
  | .vmulI32 g _ _ _ _ => g
  | .vmulhI32 g _ _ _ _ => g
  | .vmulhN32 g _ _ _ _ => g
  | .vaddsI32 g _ _ _ _ => g
  | .vaddsN32 g _ _ _ _ => g
  | .vsubsI32 g _ _ _ _ => g
  | .vsubsN32 g _ _ _ _ => g
  | .vabsI32 g _ _ _ => g
  | .vclzN32 g _ _ _ => g
  | .vpopcN32 g _ _ _ => g
  | .vaddF g _ _ _ _ _ => g
  | .vsubF g _ _ _ _ _ => g
  | .vmulF g _ _ _ _ _ => g
  | .vminF g _ _ _ _ _ => g
  | .vmaxF g _ _ _ _ _ => g
  | .vdiv g _ _ _ _ _ => g
  | .vsqrt g _ _ _ _ => g
  | .vfma g _ _ _ _ _ => g
  | .vfnma g _ _ _ _ _ => g
  | .vdot2 g _ _ _ _ => g
  | .vdot2n g _ _ _ _ => g
  | .vcmp g _ _ _ _ _ _ => g
  | .vcvtI32F32 g _ _ _ => g
  | .vcvtN32F32 g _ _ _ => g
  | .vcvtF32I32 g _ _ _ => g
  | .vcvtF32N32 g _ _ _ => g
  | .vcvtF16F32 g _ _ _ _ => g
  | .vcvtBf16F32 g _ _ _ _ => g
  | .vcvtF32F16 g _ _ _ _ => g
  | .vcvtF32Bf16 g _ _ _ _ => g
  | .vrint g _ _ _ => g
  | .vupk4 g _ _ _ => g
  | .vpk4 g _ _ _ => g
  | .vupk6 g _ _ => g
  | .vpk6 g _ _ => g
  | .vdec g _ _ _ _ _ => g
  | .vdecs g _ _ _ _ _ _ => g
  | .venc g _ _ _ _ _ => g
  | .vtbl g _ _ _ => g
  | .vbexp g _ _ _ _ _ _ => g
  | .valign g _ _ _ _ _ => g
  | .vscale g _ _ _ _ _ => g
  | .vsumF g _ _ _ _ => g
  | .vrminF g _ _ _ _ => g
  | .vrmaxF g _ _ _ _ => g
  | .vsumI32 g _ _ _ => g
  | .vsumN32 g _ _ _ => g
  | .vrminI32 g _ _ _ => g
  | .vrmaxI32 g _ _ _ => g
  | .vrminN32 g _ _ _ => g
  | .vrmaxN32 g _ _ _ => g
  | .vperm g _ _ _ _ => g
  | .vrot g _ _ _ _ => g
  | .vslu g _ _ _ _ => g
  | .vsld g _ _ _ _ => g
  | .vrev g _ _ _ => g
  | .vhswap g _ _ _ => g
  | .vpkl g _ _ _ _ => g
  | .vpkh g _ _ _ _ => g
  | .vmov g _ _ _ => g
  | .vsplatI32 g _ _ _ => g
  | .vsplatI64 g _ _ _ => g
  | .vins g _ _ _ => g
  | .vextN32 g _ _ _ => g
  | .vextI32 g _ _ _ => g
  | .vsel g _ _ _ _ => g
  | .vabsF32 g _ _ _ => g
  | .vnegF32 g _ _ _ => g
  | .vabsF16 g _ _ _ => g
  | .vnegF16 g _ _ _ => g
  | .gset g _ _ => g
  | .gget g _ _ => g
  | .vabsBf16 g _ _ _ => g
  | .vnegBf16 g _ _ _ => g
  | .mand g _ _ _ => g
  | .mor g _ _ _ => g
  | .mxor g _ _ _ => g
  | .mandn g _ _ _ => g
  | .mnot g _ _ => g
  | .mset g _ _ => g
  | .mget g _ _ => g
  | .mpop g _ _ => g
  | .mfirst g _ _ => g
  | .mlow g _ _ => g
  | .rmma g _ _ _ _ _ _ _ _ _ => g
  | .rfwd g _ _ _ _ _ _ => g
  | .rrev g _ _ _ _ => g
  | .rchk g _ _ => g
  | .rbnd g _ _ => g
  | .rzero g _ => g
  | .rbget g _ _ => g
  | .radd g _ _ _ => g
  | .rsub g _ _ _ => g
  | .rmov g _ _ => g
  | .rstg g _ _ => g
  | .rlda g _ _ _ => g
  | .radds g _ _ _ => g
  | .rsta g _ _ _ => g
  | .obld g _ _ => g
  | .obst g _ _ => g
  | .obcp g _ _ _ _ _ => g
  | .ld g _ _ _ _ _ _ _ => g
  | .st g _ _ _ _ _ _ => g
  | .vld g _ _ _ _ _ _ => g
  | .vst g _ _ _ _ _ _ => g
  | .atomCas g _ _ _ _ _ _ => g
  | .atom g _ _ _ _ _ _ => g
  | .fence g _ _ => g
  | .copy g _ _ _ _ _ => g
  | .gather g _ _ _ _ _ => g
  | .scatter g _ _ _ _ _ => g
  | .nxch g _ _ _ _ _ => g
  | .bara g _ _ _ => g
  | .barw g _ _ _ => g
  | .bari g _ _ _ => g
  | .twait g _ => g
  | .ttest g _ _ => g
  | .tdrain g => g
  | .msend g _ _ _ _ => g
  | .coll g _ _ => g
  | .launch g _ _ _ => g
  | .trap g _ _ => g
  | .svc g _ _ => g
  | .brk g _ _ => g
  | .uret g => g
  | .eret g => g
  | .wfi g => g
  | .csrrs g _ _ _ => g
  | .tlbinvAll g => g
  | .tlbinvAsid g _ => g
  | .tlbinvPage g _ _ _ => g
  | .tlbinvVa g _ _ => g
  | .ssave g => g
  | .srest g => g
  | .binit g _ => g
  | .bwb g _ => g
  | .pwb g => g
  | _ => 0

/-- The source registers in the order ra, rb, rc, then others (03 R59, 08 R166). -/
def srcsOf : Instr → List Reg
  | .add _ _ a b => [⟨.s, a.toNat⟩, ⟨.s, b.toNat⟩]
  | .sub _ _ a b => [⟨.s, a.toNat⟩, ⟨.s, b.toNat⟩]
  | .and _ _ a b => [⟨.s, a.toNat⟩, ⟨.s, b.toNat⟩]
  | .or _ _ a b => [⟨.s, a.toNat⟩, ⟨.s, b.toNat⟩]
  | .xor _ _ a b => [⟨.s, a.toNat⟩, ⟨.s, b.toNat⟩]
  | .andn _ _ a b => [⟨.s, a.toNat⟩, ⟨.s, b.toNat⟩]
  | .sll _ _ a b => [⟨.s, a.toNat⟩, ⟨.s, b.toNat⟩]
  | .srl _ _ a b => [⟨.s, a.toNat⟩, ⟨.s, b.toNat⟩]
  | .sra _ _ a b => [⟨.s, a.toNat⟩, ⟨.s, b.toNat⟩]
  | .min _ _ a b => [⟨.s, a.toNat⟩, ⟨.s, b.toNat⟩]
  | .max _ _ a b => [⟨.s, a.toNat⟩, ⟨.s, b.toNat⟩]
  | .minu _ _ a b => [⟨.s, a.toNat⟩, ⟨.s, b.toNat⟩]
  | .maxu _ _ a b => [⟨.s, a.toNat⟩, ⟨.s, b.toNat⟩]
  | .mul _ _ a b => [⟨.s, a.toNat⟩, ⟨.s, b.toNat⟩]
  | .mulh _ _ a b => [⟨.s, a.toNat⟩, ⟨.s, b.toNat⟩]
  | .mulhu _ _ a b => [⟨.s, a.toNat⟩, ⟨.s, b.toNat⟩]
  | .div _ _ a b => [⟨.s, a.toNat⟩, ⟨.s, b.toNat⟩]
  | .divu _ _ a b => [⟨.s, a.toNat⟩, ⟨.s, b.toNat⟩]
  | .rem _ _ a b => [⟨.s, a.toNat⟩, ⟨.s, b.toNat⟩]
  | .remu _ _ a b => [⟨.s, a.toNat⟩, ⟨.s, b.toNat⟩]
  | .clz _ _ a => [⟨.s, a.toNat⟩]
  | .ctz _ _ a => [⟨.s, a.toNat⟩]
  | .popc _ _ a => [⟨.s, a.toNat⟩]
  | .addi _ _ a _ => [⟨.s, a.toNat⟩]
  | .andi _ _ a _ => [⟨.s, a.toNat⟩]
  | .ori _ _ a _ => [⟨.s, a.toNat⟩]
  | .xori _ _ a _ => [⟨.s, a.toNat⟩]
  | .slli _ _ a _ => [⟨.s, a.toNat⟩]
  | .srli _ _ a _ => [⟨.s, a.toNat⟩]
  | .srai _ _ a _ => [⟨.s, a.toNat⟩]
  | .cmpi _ _ a _ _ => [⟨.s, a.toNat⟩]
  | .limm _ d p _ => if p = 0 then [] else [⟨.s, d.toNat⟩]
  | .cmp _ _ a b _ => [⟨.s, a.toNat⟩, ⟨.s, b.toNat⟩]
  | .pand _ _ a b => [⟨.p, a.toNat⟩, ⟨.p, b.toNat⟩]
  | .por _ _ a b => [⟨.p, a.toNat⟩, ⟨.p, b.toNat⟩]
  | .pxor _ _ a b => [⟨.p, a.toNat⟩, ⟨.p, b.toNat⟩]
  | .pandn _ _ a b => [⟨.p, a.toNat⟩, ⟨.p, b.toNat⟩]
  | .pnot _ _ a => [⟨.p, a.toNat⟩]
  | .pnz _ _ a => [⟨.s, a.toNat⟩]
  | .pget _ _ a => [⟨.p, a.toNat⟩]
  | .jalr _ _ a => [⟨.s, a.toNat⟩]
  | .csrrw _ _ a _ => [⟨.s, a.toNat⟩]
  | .csrrc _ _ a _ => [⟨.s, a.toNat⟩]
  | .widx _ _ a _ _ => [⟨.s, a.toNat⟩]
  | .rep _ _ a _ _ _ => [⟨.s, a.toNat⟩]
  | .lea _ _ a b _ => [⟨.s, a.toNat⟩, ⟨.s, b.toNat⟩]
  | .lwin _ _ a _ => [⟨.s, a.toNat⟩]
  | .vaddI32 _ _ a b _ => [⟨.v, a.toNat⟩, ⟨.v, b.toNat⟩]
  | .vsubI32 _ _ a b _ => [⟨.v, a.toNat⟩, ⟨.v, b.toNat⟩]
  | .vandI32 _ _ a b _ => [⟨.v, a.toNat⟩, ⟨.v, b.toNat⟩]
  | .vorI32 _ _ a b _ => [⟨.v, a.toNat⟩, ⟨.v, b.toNat⟩]
  | .vxorI32 _ _ a b _ => [⟨.v, a.toNat⟩, ⟨.v, b.toNat⟩]
  | .vandnI32 _ _ a b _ => [⟨.v, a.toNat⟩, ⟨.v, b.toNat⟩]
  | .vsllI32 _ _ a b _ => [⟨.v, a.toNat⟩, ⟨.v, b.toNat⟩]
  | .vsrlN32 _ _ a b _ => [⟨.v, a.toNat⟩, ⟨.v, b.toNat⟩]
  | .vsraI32 _ _ a b _ => [⟨.v, a.toNat⟩, ⟨.v, b.toNat⟩]
  | .vminI32 _ _ a b _ => [⟨.v, a.toNat⟩, ⟨.v, b.toNat⟩]
  | .vmaxI32 _ _ a b _ => [⟨.v, a.toNat⟩, ⟨.v, b.toNat⟩]
  | .vminN32 _ _ a b _ => [⟨.v, a.toNat⟩, ⟨.v, b.toNat⟩]
  | .vmaxN32 _ _ a b _ => [⟨.v, a.toNat⟩, ⟨.v, b.toNat⟩]
  | .vmulI32 _ _ a b _ => [⟨.v, a.toNat⟩, ⟨.v, b.toNat⟩]
  | .vmulhI32 _ _ a b _ => [⟨.v, a.toNat⟩, ⟨.v, b.toNat⟩]
  | .vmulhN32 _ _ a b _ => [⟨.v, a.toNat⟩, ⟨.v, b.toNat⟩]
  | .vaddsI32 _ _ a b _ => [⟨.v, a.toNat⟩, ⟨.v, b.toNat⟩]
  | .vaddsN32 _ _ a b _ => [⟨.v, a.toNat⟩, ⟨.v, b.toNat⟩]
  | .vsubsI32 _ _ a b _ => [⟨.v, a.toNat⟩, ⟨.v, b.toNat⟩]
  | .vsubsN32 _ _ a b _ => [⟨.v, a.toNat⟩, ⟨.v, b.toNat⟩]
  | .vabsI32 _ _ a _ => [⟨.v, a.toNat⟩]
  | .vclzN32 _ _ a _ => [⟨.v, a.toNat⟩]
  | .vpopcN32 _ _ a _ => [⟨.v, a.toNat⟩]
  | .vaddF _ _ a b _ _ => [⟨.v, a.toNat⟩, ⟨.v, b.toNat⟩]
  | .vsubF _ _ a b _ _ => [⟨.v, a.toNat⟩, ⟨.v, b.toNat⟩]
  | .vmulF _ _ a b _ _ => [⟨.v, a.toNat⟩, ⟨.v, b.toNat⟩]
  | .vminF _ _ a b _ _ => [⟨.v, a.toNat⟩, ⟨.v, b.toNat⟩]
  | .vmaxF _ _ a b _ _ => [⟨.v, a.toNat⟩, ⟨.v, b.toNat⟩]
  | .vdiv _ _ a b _ _ => [⟨.v, a.toNat⟩, ⟨.v, b.toNat⟩]
  | .vsqrt _ _ a _ _ => [⟨.v, a.toNat⟩]
  | .vfma _ _ a b c _ => [⟨.v, a.toNat⟩, ⟨.v, b.toNat⟩, ⟨.v, c.toNat⟩]
  | .vfnma _ _ a b c _ => [⟨.v, a.toNat⟩, ⟨.v, b.toNat⟩, ⟨.v, c.toNat⟩]
  | .vdot2 _ _ a b c => [⟨.v, a.toNat⟩, ⟨.v, b.toNat⟩, ⟨.v, c.toNat⟩]
  | .vdot2n _ _ a b c => [⟨.v, a.toNat⟩, ⟨.v, b.toNat⟩, ⟨.v, c.toNat⟩]
  | .vcmp _ _ a b _ _ _ => [⟨.v, a.toNat⟩, ⟨.v, b.toNat⟩]
  | .vcvtI32F32 _ _ a _ => [⟨.v, a.toNat⟩]
  | .vcvtN32F32 _ _ a _ => [⟨.v, a.toNat⟩]
  | .vcvtF32I32 _ _ a _ => [⟨.v, a.toNat⟩]
  | .vcvtF32N32 _ _ a _ => [⟨.v, a.toNat⟩]
  | .vcvtF16F32 _ _ a _ _ => [⟨.v, a.toNat⟩]
  | .vcvtBf16F32 _ _ a _ _ => [⟨.v, a.toNat⟩]
  | .vcvtF32F16 _ _ a _ _ => [⟨.v, a.toNat⟩]
  | .vcvtF32Bf16 _ _ a _ _ => [⟨.v, a.toNat⟩]
  | .vrint _ _ a _ => [⟨.v, a.toNat⟩]
  | .vupk4 _ _ a _ => [⟨.v, a.toNat⟩]
  | .vpk4 _ _ a _ => [⟨.v, a.toNat⟩]
  | .vupk6 _ _ a => [⟨.v, a.toNat⟩]
  | .vpk6 _ _ a => [⟨.v, a.toNat⟩]
  | .vdec _ _ a _ _ _ => [⟨.v, a.toNat⟩]
  | .vdecs _ _ a _ s _ _ => [⟨.v, a.toNat⟩, ⟨.g, s.toNat⟩]
  | .venc _ _ a _ _ _ => [⟨.v, a.toNat⟩]
  | .vtbl _ _ a _ => [⟨.s, a.toNat⟩]
  | .vbexp _ _ a _ _ _ _ => [⟨.v, a.toNat⟩]
  | .valign _ _ a _ s _ => [⟨.v, a.toNat⟩, ⟨.g, s.toNat⟩]
  | .vscale _ _ a b _ _ => [⟨.v, a.toNat⟩, ⟨.v, b.toNat⟩]
  | .vsumF _ _ a _ _ => [⟨.v, a.toNat⟩]
  | .vrminF _ _ a _ _ => [⟨.v, a.toNat⟩]
  | .vrmaxF _ _ a _ _ => [⟨.v, a.toNat⟩]
  | .vsumI32 _ _ a _ => [⟨.v, a.toNat⟩]
  | .vsumN32 _ _ a _ => [⟨.v, a.toNat⟩]
  | .vrminI32 _ _ a _ => [⟨.v, a.toNat⟩]
  | .vrmaxI32 _ _ a _ => [⟨.v, a.toNat⟩]
  | .vrminN32 _ _ a _ => [⟨.v, a.toNat⟩]
  | .vrmaxN32 _ _ a _ => [⟨.v, a.toNat⟩]
  | .vperm _ _ a b _ => [⟨.v, a.toNat⟩, ⟨.v, b.toNat⟩]
  | .vrot _ _ a _ _ => [⟨.v, a.toNat⟩]
  | .vslu _ _ a _ _ => [⟨.v, a.toNat⟩]
  | .vsld _ _ a _ _ => [⟨.v, a.toNat⟩]
  | .vrev _ _ a _ => [⟨.v, a.toNat⟩]
  | .vhswap _ _ a _ => [⟨.v, a.toNat⟩]
  | .vpkl _ _ a b _ => [⟨.v, a.toNat⟩, ⟨.v, b.toNat⟩]
  | .vpkh _ _ a b _ => [⟨.v, a.toNat⟩, ⟨.v, b.toNat⟩]
  | .vmov _ _ a _ => [⟨.v, a.toNat⟩]
  | .vsplatI32 _ _ a _ => [⟨.s, a.toNat⟩]
  | .vsplatI64 _ _ a _ => [⟨.s, a.toNat⟩]
  | .vins _ _ a _ => [⟨.s, a.toNat⟩]
  | .vextN32 _ _ a _ => [⟨.v, a.toNat⟩]
  | .vextI32 _ _ a _ => [⟨.v, a.toNat⟩]
  | .vsel _ _ a b _ => [⟨.v, a.toNat⟩, ⟨.v, b.toNat⟩]
  | .vabsF32 _ _ a _ => [⟨.v, a.toNat⟩]
  | .vnegF32 _ _ a _ => [⟨.v, a.toNat⟩]
  | .vabsF16 _ _ a _ => [⟨.v, a.toNat⟩]
  | .vnegF16 _ _ a _ => [⟨.v, a.toNat⟩]
  | .gset _ _ a => [⟨.s, a.toNat⟩]
  | .gget _ _ a => [⟨.g, a.toNat⟩]
  | .vabsBf16 _ _ a _ => [⟨.v, a.toNat⟩]
  | .vnegBf16 _ _ a _ => [⟨.v, a.toNat⟩]
  | .mand _ _ a b => [⟨.m, a.toNat⟩, ⟨.m, b.toNat⟩]
  | .mor _ _ a b => [⟨.m, a.toNat⟩, ⟨.m, b.toNat⟩]
  | .mxor _ _ a b => [⟨.m, a.toNat⟩, ⟨.m, b.toNat⟩]
  | .mandn _ _ a b => [⟨.m, a.toNat⟩, ⟨.m, b.toNat⟩]
  | .mnot _ _ a => [⟨.m, a.toNat⟩]
  | .mset _ _ a => [⟨.s, a.toNat⟩]
  | .mget _ _ a => [⟨.m, a.toNat⟩]
  | .mpop _ _ a => [⟨.m, a.toNat⟩]
  | .mfirst _ _ a => [⟨.m, a.toNat⟩]
  | .mlow _ _ a => [⟨.s, a.toNat⟩]
  | .rmma _ _ a b _ _ _ _ _ _ => [⟨.s, a.toNat⟩, ⟨.s, b.toNat⟩]
  | .rfwd _ _ a b _ _ _ => [⟨.v, a.toNat⟩, ⟨.s, b.toNat⟩]
  | .rrev _ _ a b _ => [⟨.a, a.toNat⟩, ⟨.s, b.toNat⟩]
  | .rchk _ _ a => [⟨.a, a.toNat⟩]
  | .rbnd _ _ b => [⟨.s, b.toNat⟩]
  | .rbget _ _ a => [⟨.a, a.toNat⟩]
  | .radd _ _ a b => [⟨.a, a.toNat⟩, ⟨.a, b.toNat⟩]
  | .rsub _ _ a b => [⟨.a, a.toNat⟩, ⟨.a, b.toNat⟩]
  | .rmov _ _ a => [⟨.a, a.toNat⟩]
  | .rstg _ a _ => [⟨.v, a.toNat⟩]
  | .rlda _ _ a _ => [⟨.s, a.toNat⟩]
  | .radds _ _ a _ => [⟨.s, a.toNat⟩]
  | .rsta _ _ a c => [⟨.s, a.toNat⟩, ⟨.a, c.toNat⟩]
  | .obld _ _ a => [⟨.s, a.toNat⟩]
  | .obst _ d a => [⟨.s, a.toNat⟩, ⟨.v, d.toNat⟩]
  | .obcp _ _ a b _ _ => [⟨.s, a.toNat⟩, ⟨.s, b.toNat⟩]
  | .ld _ _ a _ _ _ _ _ => [⟨.s, a.toNat⟩]
  | .st _ d a _ _ _ _ => [⟨.s, a.toNat⟩, ⟨.s, d.toNat⟩]
  | .vld _ _ a _ _ _ _ => [⟨.s, a.toNat⟩]
  | .vst _ d a _ _ _ _ => [⟨.s, a.toNat⟩, ⟨.v, d.toNat⟩]
  | .atomCas _ d a _ _ _ _ => ⟨.s, a.toNat⟩ :: regRun d.toNat 2
  | .atom _ d a _ _ _ _ => ⟨.s, a.toNat⟩ :: regRun d.toNat 2
  | .copy _ _ a b _ _ => regRun a.toNat 3 ++ [⟨.s, b.toNat⟩]
  | .gather _ _ a _ _ _ => regRun a.toNat 4
  | .scatter _ _ a _ _ _ => regRun a.toNat 4
  | .nxch _ _ a b _ _ => [⟨.s, a.toNat⟩, ⟨.s, b.toNat⟩]
  | .bara _ _ a _ => [⟨.s, a.toNat⟩]
  | .barw _ a b _ => [⟨.s, a.toNat⟩, ⟨.s, b.toNat⟩]
  | .bari _ a b _ => [⟨.s, a.toNat⟩, ⟨.s, b.toNat⟩]
  | .twait _ a => [⟨.s, a.toNat⟩]
  | .ttest _ _ a => [⟨.s, a.toNat⟩]
  | .msend _ d a n _ => ⟨.s, a.toNat⟩ :: regRun d.toNat n.toNat
  | .coll _ _ a => [⟨.s, a.toNat⟩]
  | .launch _ _ a _ => [⟨.s, a.toNat⟩]
  | .trap _ a _ => [⟨.s, a.toNat⟩]
  | .svc _ a _ => [⟨.s, a.toNat⟩]
  | .brk _ a _ => [⟨.s, a.toNat⟩]
  | .csrrs _ _ a _ => [⟨.s, a.toNat⟩]
  | .tlbinvAsid _ b => [⟨.s, b.toNat⟩]
  | .tlbinvPage _ a b _ => [⟨.s, a.toNat⟩, ⟨.s, b.toNat⟩]
  | .tlbinvVa _ a _ => [⟨.s, a.toNat⟩]
  | .binit _ a => [⟨.s, a.toNat⟩]
  | .bwb _ a => [⟨.s, a.toNat⟩]
  | _ => []

/-- The destination registers, token registers included (08 R166, R171). -/
def dstsOf : Instr → List Reg
  | .add _ d _ _ => [⟨.s, d.toNat⟩]
  | .sub _ d _ _ => [⟨.s, d.toNat⟩]
  | .and _ d _ _ => [⟨.s, d.toNat⟩]
  | .or _ d _ _ => [⟨.s, d.toNat⟩]
  | .xor _ d _ _ => [⟨.s, d.toNat⟩]
  | .andn _ d _ _ => [⟨.s, d.toNat⟩]
  | .sll _ d _ _ => [⟨.s, d.toNat⟩]
  | .srl _ d _ _ => [⟨.s, d.toNat⟩]
  | .sra _ d _ _ => [⟨.s, d.toNat⟩]
  | .min _ d _ _ => [⟨.s, d.toNat⟩]
  | .max _ d _ _ => [⟨.s, d.toNat⟩]
  | .minu _ d _ _ => [⟨.s, d.toNat⟩]
  | .maxu _ d _ _ => [⟨.s, d.toNat⟩]
  | .mul _ d _ _ => [⟨.s, d.toNat⟩]
  | .mulh _ d _ _ => [⟨.s, d.toNat⟩]
  | .mulhu _ d _ _ => [⟨.s, d.toNat⟩]
  | .div _ d _ _ => [⟨.s, d.toNat⟩]
  | .divu _ d _ _ => [⟨.s, d.toNat⟩]
  | .rem _ d _ _ => [⟨.s, d.toNat⟩]
  | .remu _ d _ _ => [⟨.s, d.toNat⟩]
  | .clz _ d _ => [⟨.s, d.toNat⟩]
  | .ctz _ d _ => [⟨.s, d.toNat⟩]
  | .popc _ d _ => [⟨.s, d.toNat⟩]
  | .addi _ d _ _ => [⟨.s, d.toNat⟩]
  | .andi _ d _ _ => [⟨.s, d.toNat⟩]
  | .ori _ d _ _ => [⟨.s, d.toNat⟩]
  | .xori _ d _ _ => [⟨.s, d.toNat⟩]
  | .slli _ d _ _ => [⟨.s, d.toNat⟩]
  | .srli _ d _ _ => [⟨.s, d.toNat⟩]
  | .srai _ d _ _ => [⟨.s, d.toNat⟩]
  | .cmpi _ d _ _ _ => [⟨.p, d.toNat⟩]
  | .limm _ d _ _ => [⟨.s, d.toNat⟩]
  | .cmp _ d _ _ _ => [⟨.p, d.toNat⟩]
  | .pand _ d _ _ => [⟨.p, d.toNat⟩]
  | .por _ d _ _ => [⟨.p, d.toNat⟩]
  | .pxor _ d _ _ => [⟨.p, d.toNat⟩]
  | .pandn _ d _ _ => [⟨.p, d.toNat⟩]
  | .pnot _ d _ => [⟨.p, d.toNat⟩]
  | .pnz _ d _ => [⟨.p, d.toNat⟩]
  | .pget _ d _ => [⟨.s, d.toNat⟩]
  | .jalr _ d _ => [⟨.s, d.toNat⟩]
  | .csrrw _ d _ _ => [⟨.s, d.toNat⟩]
  | .csrrc _ d _ _ => [⟨.s, d.toNat⟩]
  | .widx _ d _ _ _ => [⟨.s, d.toNat⟩]
  | .rep _ t _ _ _ _ => [⟨.s, t.toNat⟩]
  | .lea _ d _ _ _ => [⟨.s, d.toNat⟩]
  | .lpc _ d _ => [⟨.s, d.toNat⟩]
  | .lwin _ d _ _ => [⟨.s, d.toNat⟩]
  | .vaddI32 _ d _ _ _ => [⟨.v, d.toNat⟩]
  | .vsubI32 _ d _ _ _ => [⟨.v, d.toNat⟩]
  | .vandI32 _ d _ _ _ => [⟨.v, d.toNat⟩]
  | .vorI32 _ d _ _ _ => [⟨.v, d.toNat⟩]
  | .vxorI32 _ d _ _ _ => [⟨.v, d.toNat⟩]
  | .vandnI32 _ d _ _ _ => [⟨.v, d.toNat⟩]
  | .vsllI32 _ d _ _ _ => [⟨.v, d.toNat⟩]
  | .vsrlN32 _ d _ _ _ => [⟨.v, d.toNat⟩]
  | .vsraI32 _ d _ _ _ => [⟨.v, d.toNat⟩]
  | .vminI32 _ d _ _ _ => [⟨.v, d.toNat⟩]
  | .vmaxI32 _ d _ _ _ => [⟨.v, d.toNat⟩]
  | .vminN32 _ d _ _ _ => [⟨.v, d.toNat⟩]
  | .vmaxN32 _ d _ _ _ => [⟨.v, d.toNat⟩]
  | .vmulI32 _ d _ _ _ => [⟨.v, d.toNat⟩]
  | .vmulhI32 _ d _ _ _ => [⟨.v, d.toNat⟩]
  | .vmulhN32 _ d _ _ _ => [⟨.v, d.toNat⟩]
  | .vaddsI32 _ d _ _ _ => [⟨.v, d.toNat⟩]
  | .vaddsN32 _ d _ _ _ => [⟨.v, d.toNat⟩]
  | .vsubsI32 _ d _ _ _ => [⟨.v, d.toNat⟩]
  | .vsubsN32 _ d _ _ _ => [⟨.v, d.toNat⟩]
  | .vabsI32 _ d _ _ => [⟨.v, d.toNat⟩]
  | .vclzN32 _ d _ _ => [⟨.v, d.toNat⟩]
  | .vpopcN32 _ d _ _ => [⟨.v, d.toNat⟩]
  | .vaddF _ d _ _ _ _ => [⟨.v, d.toNat⟩]
  | .vsubF _ d _ _ _ _ => [⟨.v, d.toNat⟩]
  | .vmulF _ d _ _ _ _ => [⟨.v, d.toNat⟩]
  | .vminF _ d _ _ _ _ => [⟨.v, d.toNat⟩]
  | .vmaxF _ d _ _ _ _ => [⟨.v, d.toNat⟩]
  | .vdiv _ d _ _ _ _ => [⟨.v, d.toNat⟩]
  | .vsqrt _ d _ _ _ => [⟨.v, d.toNat⟩]
  | .vfma _ d _ _ _ _ => [⟨.v, d.toNat⟩]
  | .vfnma _ d _ _ _ _ => [⟨.v, d.toNat⟩]
  | .vdot2 _ d _ _ _ => [⟨.v, d.toNat⟩]
  | .vdot2n _ d _ _ _ => [⟨.v, d.toNat⟩]
  | .vcmp _ d _ _ _ _ _ => [⟨.m, d.toNat⟩]
  | .vcvtI32F32 _ d _ _ => [⟨.v, d.toNat⟩]
  | .vcvtN32F32 _ d _ _ => [⟨.v, d.toNat⟩]
  | .vcvtF32I32 _ d _ _ => [⟨.v, d.toNat⟩]
  | .vcvtF32N32 _ d _ _ => [⟨.v, d.toNat⟩]
  | .vcvtF16F32 _ d _ _ _ => [⟨.v, d.toNat⟩]
  | .vcvtBf16F32 _ d _ _ _ => [⟨.v, d.toNat⟩]
  | .vcvtF32F16 _ d _ _ _ => [⟨.v, d.toNat⟩]
  | .vcvtF32Bf16 _ d _ _ _ => [⟨.v, d.toNat⟩]
  | .vrint _ d _ _ => [⟨.v, d.toNat⟩]
  | .vupk4 _ d _ _ => [⟨.v, d.toNat⟩]
  | .vpk4 _ d _ _ => [⟨.v, d.toNat⟩]
  | .vupk6 _ d _ => [⟨.v, d.toNat⟩]
  | .vpk6 _ d _ => [⟨.v, d.toNat⟩]
  | .vdec _ d _ _ _ _ => [⟨.v, d.toNat⟩]
  | .vdecs _ d _ _ _ _ _ => [⟨.v, d.toNat⟩]
  | .venc _ d _ _ _ _ => [⟨.v, d.toNat⟩]
  | .vbexp _ d _ _ _ _ _ => [⟨.g, d.toNat⟩]
  | .valign _ d _ _ _ _ => [⟨.v, d.toNat⟩]
  | .vscale _ d _ _ _ _ => [⟨.v, d.toNat⟩]
  | .vsumF _ d _ _ _ => [⟨.s, d.toNat⟩]
  | .vrminF _ d _ _ _ => [⟨.s, d.toNat⟩]
  | .vrmaxF _ d _ _ _ => [⟨.s, d.toNat⟩]
  | .vsumI32 _ d _ _ => [⟨.s, d.toNat⟩]
  | .vsumN32 _ d _ _ => [⟨.s, d.toNat⟩]
  | .vrminI32 _ d _ _ => [⟨.s, d.toNat⟩]
  | .vrmaxI32 _ d _ _ => [⟨.s, d.toNat⟩]
  | .vrminN32 _ d _ _ => [⟨.s, d.toNat⟩]
  | .vrmaxN32 _ d _ _ => [⟨.s, d.toNat⟩]
  | .vperm _ d _ _ _ => [⟨.v, d.toNat⟩]
  | .vrot _ d _ _ _ => [⟨.v, d.toNat⟩]
  | .vslu _ d _ _ _ => [⟨.v, d.toNat⟩]
  | .vsld _ d _ _ _ => [⟨.v, d.toNat⟩]
  | .vrev _ d _ _ => [⟨.v, d.toNat⟩]
  | .vhswap _ d _ _ => [⟨.v, d.toNat⟩]
  | .vpkl _ d _ _ _ => [⟨.v, d.toNat⟩]
  | .vpkh _ d _ _ _ => [⟨.v, d.toNat⟩]
  | .vmov _ d _ _ => [⟨.v, d.toNat⟩]
  | .vsplatI32 _ d _ _ => [⟨.v, d.toNat⟩]
  | .vsplatI64 _ d _ _ => [⟨.v, d.toNat⟩]
  | .vins _ d _ _ => [⟨.v, d.toNat⟩]
  | .vextN32 _ d _ _ => [⟨.s, d.toNat⟩]
  | .vextI32 _ d _ _ => [⟨.s, d.toNat⟩]
  | .vsel _ d _ _ _ => [⟨.v, d.toNat⟩]
  | .vabsF32 _ d _ _ => [⟨.v, d.toNat⟩]
  | .vnegF32 _ d _ _ => [⟨.v, d.toNat⟩]
  | .vabsF16 _ d _ _ => [⟨.v, d.toNat⟩]
  | .vnegF16 _ d _ _ => [⟨.v, d.toNat⟩]
  | .gset _ d _ => [⟨.g, d.toNat⟩]
  | .gget _ d _ => [⟨.s, d.toNat⟩]
  | .vabsBf16 _ d _ _ => [⟨.v, d.toNat⟩]
  | .vnegBf16 _ d _ _ => [⟨.v, d.toNat⟩]
  | .mand _ d _ _ => [⟨.m, d.toNat⟩]
  | .mor _ d _ _ => [⟨.m, d.toNat⟩]
  | .mxor _ d _ _ => [⟨.m, d.toNat⟩]
  | .mandn _ d _ _ => [⟨.m, d.toNat⟩]
  | .mnot _ d _ => [⟨.m, d.toNat⟩]
  | .mset _ d _ => [⟨.m, d.toNat⟩]
  | .mget _ d _ => [⟨.s, d.toNat⟩]
  | .mpop _ d _ => [⟨.s, d.toNat⟩]
  | .mfirst _ d _ => [⟨.s, d.toNat⟩]
  | .mlow _ d _ => [⟨.m, d.toNat⟩]
  | .rmma _ t _ _ c _ _ _ _ _ => [⟨.s, t.toNat⟩, ⟨.a, c.toNat⟩]
  | .rfwd _ d _ b _ _ i => ⟨.a, d.toNat⟩ :: (if i = 1 then [⟨.s, b.toNat⟩] else [])
  | .rrev _ d _ b i => ⟨.v, d.toNat⟩ :: (if i = 1 then [⟨.s, b.toNat⟩] else [])
  | .rchk _ d _ => [⟨.s, d.toNat⟩]
  | .rbnd _ a _ => [⟨.a, a.toNat⟩]
  | .rzero _ a => [⟨.a, a.toNat⟩]
  | .rbget _ d _ => [⟨.s, d.toNat⟩]
  | .radd _ d _ _ => [⟨.a, d.toNat⟩]
  | .rsub _ d _ _ => [⟨.a, d.toNat⟩]
  | .rmov _ d _ => [⟨.a, d.toNat⟩]
  | .rlda _ t _ c => [⟨.s, t.toNat⟩, ⟨.a, c.toNat⟩]
  | .radds _ t _ c => [⟨.s, t.toNat⟩, ⟨.a, c.toNat⟩]
  | .rsta _ t _ _ => [⟨.s, t.toNat⟩]
  | .obld _ d _ => [⟨.v, d.toNat⟩]
  | .obcp _ t _ _ _ _ => [⟨.s, t.toNat⟩]
  | .ld _ d _ _ _ _ _ _ => [⟨.s, d.toNat⟩]
  | .vld _ d _ _ _ _ _ => [⟨.v, d.toNat⟩]
  | .atomCas _ d _ _ _ _ _ => [⟨.s, d.toNat⟩]
  | .atom _ d _ _ _ _ _ => [⟨.s, d.toNat⟩]
  | .copy _ t _ _ _ _ => [⟨.s, t.toNat⟩]
  | .gather _ t _ _ _ _ => [⟨.s, t.toNat⟩]
  | .scatter _ t _ _ _ _ => [⟨.s, t.toNat⟩]
  | .nxch _ t _ _ _ _ => [⟨.s, t.toNat⟩]
  | .bara _ d _ _ => [⟨.s, d.toNat⟩]
  | .ttest _ d _ => [⟨.p, d.toNat⟩]
  | .coll _ t _ => [⟨.s, t.toNat⟩]
  | .launch _ d _ _ => [⟨.s, d.toNat⟩]
  | .csrrs _ d _ _ => [⟨.s, d.toNat⟩]
  | _ => []

/-- The governing mask (10 R217; 12 R263). -/
def maskRegOf : Instr → Option Nat
  | .vaddI32 _ _ _ _ m => some m.toNat
  | .vsubI32 _ _ _ _ m => some m.toNat
  | .vandI32 _ _ _ _ m => some m.toNat
  | .vorI32 _ _ _ _ m => some m.toNat
  | .vxorI32 _ _ _ _ m => some m.toNat
  | .vandnI32 _ _ _ _ m => some m.toNat
  | .vsllI32 _ _ _ _ m => some m.toNat
  | .vsrlN32 _ _ _ _ m => some m.toNat
  | .vsraI32 _ _ _ _ m => some m.toNat
  | .vminI32 _ _ _ _ m => some m.toNat
  | .vmaxI32 _ _ _ _ m => some m.toNat
  | .vminN32 _ _ _ _ m => some m.toNat
  | .vmaxN32 _ _ _ _ m => some m.toNat
  | .vmulI32 _ _ _ _ m => some m.toNat
  | .vmulhI32 _ _ _ _ m => some m.toNat
  | .vmulhN32 _ _ _ _ m => some m.toNat
  | .vaddsI32 _ _ _ _ m => some m.toNat
  | .vaddsN32 _ _ _ _ m => some m.toNat
  | .vsubsI32 _ _ _ _ m => some m.toNat
  | .vsubsN32 _ _ _ _ m => some m.toNat
  | .vabsI32 _ _ _ m => some m.toNat
  | .vclzN32 _ _ _ m => some m.toNat
  | .vpopcN32 _ _ _ m => some m.toNat
  | .vaddF _ _ _ _ m _ => some m.toNat
  | .vsubF _ _ _ _ m _ => some m.toNat
  | .vmulF _ _ _ _ m _ => some m.toNat
  | .vminF _ _ _ _ m _ => some m.toNat
  | .vmaxF _ _ _ _ m _ => some m.toNat
  | .vdiv _ _ _ _ m _ => some m.toNat
  | .vsqrt _ _ _ m _ => some m.toNat
  | .vcmp _ _ _ _ m _ _ => some m.toNat
  | .vcvtI32F32 _ _ _ m => some m.toNat
  | .vcvtN32F32 _ _ _ m => some m.toNat
  | .vcvtF32I32 _ _ _ m => some m.toNat
  | .vcvtF32N32 _ _ _ m => some m.toNat
  | .vcvtF16F32 _ _ _ m _ => some m.toNat
  | .vcvtBf16F32 _ _ _ m _ => some m.toNat
  | .vcvtF32F16 _ _ _ m _ => some m.toNat
  | .vcvtF32Bf16 _ _ _ m _ => some m.toNat
  | .vrint _ _ _ m => some m.toNat
  | .vdec _ _ _ _ m _ => some m.toNat
  | .vdecs _ _ _ _ _ m _ => some m.toNat
  | .venc _ _ _ _ m _ => some m.toNat
  | .vbexp _ _ _ _ m _ _ => some m.toNat
  | .vscale _ _ _ _ m _ => some m.toNat
  | .vsumF _ _ _ m _ => some m.toNat
  | .vrminF _ _ _ m _ => some m.toNat
  | .vrmaxF _ _ _ m _ => some m.toNat
  | .vsumI32 _ _ _ m => some m.toNat
  | .vsumN32 _ _ _ m => some m.toNat
  | .vrminI32 _ _ _ m => some m.toNat
  | .vrmaxI32 _ _ _ m => some m.toNat
  | .vrminN32 _ _ _ m => some m.toNat
  | .vrmaxN32 _ _ _ m => some m.toNat
  | .vperm _ _ _ _ m => some m.toNat
  | .vrot _ _ _ _ m => some m.toNat
  | .vslu _ _ _ _ m => some m.toNat
  | .vsld _ _ _ _ m => some m.toNat
  | .vrev _ _ _ m => some m.toNat
  | .vhswap _ _ _ m => some m.toNat
  | .vpkl _ _ _ _ m => some m.toNat
  | .vpkh _ _ _ _ m => some m.toNat
  | .vmov _ _ _ m => some m.toNat
  | .vsplatI32 _ _ _ m => some m.toNat
  | .vsplatI64 _ _ _ m => some m.toNat
  | .vsel _ _ _ _ m => some m.toNat
  | .vabsF32 _ _ _ m => some m.toNat
  | .vnegF32 _ _ _ m => some m.toNat
  | .vabsF16 _ _ _ m => some m.toNat
  | .vnegF16 _ _ _ m => some m.toNat
  | .vabsBf16 _ _ _ m => some m.toNat
  | .vnegBf16 _ _ _ m => some m.toNat
  | .vld _ _ _ _ _ m _ => some m.toNat
  | .vst _ _ _ _ _ m _ => some m.toNat
  | _ => none

/-- A field of a pass: unmarked it is as written, marked it names register (f + k σ) mod N (08 R178). -/
def stepField (pass stride marks bit n : Nat) (f : BitVec 5) : BitVec 5 :=
  if marks.testBit bit then BitVec.ofNat 5 ((f.toNat + pass * stride) % n) else f

/-- The instruction that a pass issues for a captured one (08 R178; 09 R213). -/
def stepInstr (pass stride marks : Nat) : Instr → Instr
  | .vaddI32 g d a b m => .vaddI32 g (stepField pass stride marks 3 32 d) (stepField pass stride marks 2 32 a) (stepField pass stride marks 1 32 b) m
  | .vsubI32 g d a b m => .vsubI32 g (stepField pass stride marks 3 32 d) (stepField pass stride marks 2 32 a) (stepField pass stride marks 1 32 b) m
  | .vandI32 g d a b m => .vandI32 g (stepField pass stride marks 3 32 d) (stepField pass stride marks 2 32 a) (stepField pass stride marks 1 32 b) m
  | .vorI32 g d a b m => .vorI32 g (stepField pass stride marks 3 32 d) (stepField pass stride marks 2 32 a) (stepField pass stride marks 1 32 b) m
  | .vxorI32 g d a b m => .vxorI32 g (stepField pass stride marks 3 32 d) (stepField pass stride marks 2 32 a) (stepField pass stride marks 1 32 b) m
  | .vandnI32 g d a b m => .vandnI32 g (stepField pass stride marks 3 32 d) (stepField pass stride marks 2 32 a) (stepField pass stride marks 1 32 b) m
  | .vsllI32 g d a b m => .vsllI32 g (stepField pass stride marks 3 32 d) (stepField pass stride marks 2 32 a) (stepField pass stride marks 1 32 b) m
  | .vsrlN32 g d a b m => .vsrlN32 g (stepField pass stride marks 3 32 d) (stepField pass stride marks 2 32 a) (stepField pass stride marks 1 32 b) m
  | .vsraI32 g d a b m => .vsraI32 g (stepField pass stride marks 3 32 d) (stepField pass stride marks 2 32 a) (stepField pass stride marks 1 32 b) m
  | .vminI32 g d a b m => .vminI32 g (stepField pass stride marks 3 32 d) (stepField pass stride marks 2 32 a) (stepField pass stride marks 1 32 b) m
  | .vmaxI32 g d a b m => .vmaxI32 g (stepField pass stride marks 3 32 d) (stepField pass stride marks 2 32 a) (stepField pass stride marks 1 32 b) m
  | .vminN32 g d a b m => .vminN32 g (stepField pass stride marks 3 32 d) (stepField pass stride marks 2 32 a) (stepField pass stride marks 1 32 b) m
  | .vmaxN32 g d a b m => .vmaxN32 g (stepField pass stride marks 3 32 d) (stepField pass stride marks 2 32 a) (stepField pass stride marks 1 32 b) m
  | .vmulI32 g d a b m => .vmulI32 g (stepField pass stride marks 3 32 d) (stepField pass stride marks 2 32 a) (stepField pass stride marks 1 32 b) m
  | .vmulhI32 g d a b m => .vmulhI32 g (stepField pass stride marks 3 32 d) (stepField pass stride marks 2 32 a) (stepField pass stride marks 1 32 b) m
  | .vmulhN32 g d a b m => .vmulhN32 g (stepField pass stride marks 3 32 d) (stepField pass stride marks 2 32 a) (stepField pass stride marks 1 32 b) m
  | .vaddsI32 g d a b m => .vaddsI32 g (stepField pass stride marks 3 32 d) (stepField pass stride marks 2 32 a) (stepField pass stride marks 1 32 b) m
  | .vaddsN32 g d a b m => .vaddsN32 g (stepField pass stride marks 3 32 d) (stepField pass stride marks 2 32 a) (stepField pass stride marks 1 32 b) m
  | .vsubsI32 g d a b m => .vsubsI32 g (stepField pass stride marks 3 32 d) (stepField pass stride marks 2 32 a) (stepField pass stride marks 1 32 b) m
  | .vsubsN32 g d a b m => .vsubsN32 g (stepField pass stride marks 3 32 d) (stepField pass stride marks 2 32 a) (stepField pass stride marks 1 32 b) m
  | .vabsI32 g d a m => .vabsI32 g (stepField pass stride marks 3 32 d) (stepField pass stride marks 2 32 a) m
  | .vclzN32 g d a m => .vclzN32 g (stepField pass stride marks 3 32 d) (stepField pass stride marks 2 32 a) m
  | .vpopcN32 g d a m => .vpopcN32 g (stepField pass stride marks 3 32 d) (stepField pass stride marks 2 32 a) m
  | .vaddF g d a b m t => .vaddF g (stepField pass stride marks 3 32 d) (stepField pass stride marks 2 32 a) (stepField pass stride marks 1 32 b) m t
  | .vsubF g d a b m t => .vsubF g (stepField pass stride marks 3 32 d) (stepField pass stride marks 2 32 a) (stepField pass stride marks 1 32 b) m t
  | .vmulF g d a b m t => .vmulF g (stepField pass stride marks 3 32 d) (stepField pass stride marks 2 32 a) (stepField pass stride marks 1 32 b) m t
  | .vminF g d a b m t => .vminF g (stepField pass stride marks 3 32 d) (stepField pass stride marks 2 32 a) (stepField pass stride marks 1 32 b) m t
  | .vmaxF g d a b m t => .vmaxF g (stepField pass stride marks 3 32 d) (stepField pass stride marks 2 32 a) (stepField pass stride marks 1 32 b) m t
  | .vdiv g d a b m t => .vdiv g (stepField pass stride marks 3 32 d) (stepField pass stride marks 2 32 a) (stepField pass stride marks 1 32 b) m t
  | .vsqrt g d a m t => .vsqrt g (stepField pass stride marks 3 32 d) (stepField pass stride marks 2 32 a) m t
  | .vfma g d a b c t => .vfma g (stepField pass stride marks 3 32 d) (stepField pass stride marks 2 32 a) (stepField pass stride marks 1 32 b) (stepField pass stride marks 0 32 c) t
  | .vfnma g d a b c t => .vfnma g (stepField pass stride marks 3 32 d) (stepField pass stride marks 2 32 a) (stepField pass stride marks 1 32 b) (stepField pass stride marks 0 32 c) t
  | .vdot2 g d a b c => .vdot2 g (stepField pass stride marks 3 32 d) (stepField pass stride marks 2 32 a) (stepField pass stride marks 1 32 b) (stepField pass stride marks 0 32 c)
  | .vdot2n g d a b c => .vdot2n g (stepField pass stride marks 3 32 d) (stepField pass stride marks 2 32 a) (stepField pass stride marks 1 32 b) (stepField pass stride marks 0 32 c)
  | .vcmp g d a b m t r => .vcmp g (stepField pass stride marks 3 8 d) (stepField pass stride marks 2 32 a) (stepField pass stride marks 1 32 b) m t r
  | .vcvtI32F32 g d a m => .vcvtI32F32 g (stepField pass stride marks 3 32 d) (stepField pass stride marks 2 32 a) m
  | .vcvtN32F32 g d a m => .vcvtN32F32 g (stepField pass stride marks 3 32 d) (stepField pass stride marks 2 32 a) m
  | .vcvtF32I32 g d a m => .vcvtF32I32 g (stepField pass stride marks 3 32 d) (stepField pass stride marks 2 32 a) m
  | .vcvtF32N32 g d a m => .vcvtF32N32 g (stepField pass stride marks 3 32 d) (stepField pass stride marks 2 32 a) m
  | .vcvtF16F32 g d a m h => .vcvtF16F32 g (stepField pass stride marks 3 32 d) (stepField pass stride marks 2 32 a) m h
  | .vcvtBf16F32 g d a m h => .vcvtBf16F32 g (stepField pass stride marks 3 32 d) (stepField pass stride marks 2 32 a) m h
  | .vcvtF32F16 g d a m h => .vcvtF32F16 g (stepField pass stride marks 3 32 d) (stepField pass stride marks 2 32 a) m h
  | .vcvtF32Bf16 g d a m h => .vcvtF32Bf16 g (stepField pass stride marks 3 32 d) (stepField pass stride marks 2 32 a) m h
  | .vrint g d a m => .vrint g (stepField pass stride marks 3 32 d) (stepField pass stride marks 2 32 a) m
  | .vupk4 g d a h => .vupk4 g (stepField pass stride marks 3 32 d) (stepField pass stride marks 2 32 a) h
  | .vpk4 g d a h => .vpk4 g (stepField pass stride marks 3 32 d) (stepField pass stride marks 2 32 a) h
  | .vupk6 g d a => .vupk6 g (stepField pass stride marks 3 32 d) (stepField pass stride marks 2 32 a)
  | .vpk6 g d a => .vpk6 g (stepField pass stride marks 3 32 d) (stepField pass stride marks 2 32 a)
  | .vdec g d a t m p => .vdec g (stepField pass stride marks 3 32 d) (stepField pass stride marks 2 32 a) t m p
  | .vdecs g d a t s m p => .vdecs g (stepField pass stride marks 3 32 d) (stepField pass stride marks 2 32 a) t s m p
  | .venc g d a t m p => .venc g (stepField pass stride marks 3 32 d) (stepField pass stride marks 2 32 a) t m p
  | .vtbl g t a c => .vtbl g (stepField pass stride marks 3 4 t) (stepField pass stride marks 2 32 a) c
  | .vbexp g d a j m q c => .vbexp g (stepField pass stride marks 3 8 d) (stepField pass stride marks 2 32 a) j m q c
  | .valign g d a j s p => .valign g (stepField pass stride marks 3 32 d) (stepField pass stride marks 2 32 a) j s p
  | .vscale g d a b m h => .vscale g (stepField pass stride marks 3 32 d) (stepField pass stride marks 2 32 a) (stepField pass stride marks 1 32 b) m h
  | .vsumF g d a m t => .vsumF g (stepField pass stride marks 3 32 d) (stepField pass stride marks 2 32 a) m t
  | .vrminF g d a m t => .vrminF g (stepField pass stride marks 3 32 d) (stepField pass stride marks 2 32 a) m t
  | .vrmaxF g d a m t => .vrmaxF g (stepField pass stride marks 3 32 d) (stepField pass stride marks 2 32 a) m t
  | .vsumI32 g d a m => .vsumI32 g (stepField pass stride marks 3 32 d) (stepField pass stride marks 2 32 a) m
  | .vsumN32 g d a m => .vsumN32 g (stepField pass stride marks 3 32 d) (stepField pass stride marks 2 32 a) m
  | .vrminI32 g d a m => .vrminI32 g (stepField pass stride marks 3 32 d) (stepField pass stride marks 2 32 a) m
  | .vrmaxI32 g d a m => .vrmaxI32 g (stepField pass stride marks 3 32 d) (stepField pass stride marks 2 32 a) m
  | .vrminN32 g d a m => .vrminN32 g (stepField pass stride marks 3 32 d) (stepField pass stride marks 2 32 a) m
  | .vrmaxN32 g d a m => .vrmaxN32 g (stepField pass stride marks 3 32 d) (stepField pass stride marks 2 32 a) m
  | .vperm g d a b m => .vperm g (stepField pass stride marks 3 32 d) (stepField pass stride marks 2 32 a) (stepField pass stride marks 1 32 b) m
  | .vrot g d a k m => .vrot g (stepField pass stride marks 3 32 d) (stepField pass stride marks 2 32 a) k m
  | .vslu g d a k m => .vslu g (stepField pass stride marks 3 32 d) (stepField pass stride marks 2 32 a) k m
  | .vsld g d a k m => .vsld g (stepField pass stride marks 3 32 d) (stepField pass stride marks 2 32 a) k m
  | .vrev g d a m => .vrev g (stepField pass stride marks 3 32 d) (stepField pass stride marks 2 32 a) m
  | .vhswap g d a m => .vhswap g (stepField pass stride marks 3 32 d) (stepField pass stride marks 2 32 a) m
  | .vpkl g d a b m => .vpkl g (stepField pass stride marks 3 32 d) (stepField pass stride marks 2 32 a) (stepField pass stride marks 1 32 b) m
  | .vpkh g d a b m => .vpkh g (stepField pass stride marks 3 32 d) (stepField pass stride marks 2 32 a) (stepField pass stride marks 1 32 b) m
  | .vmov g d a m => .vmov g (stepField pass stride marks 3 32 d) (stepField pass stride marks 2 32 a) m
  | .vsplatI32 g d a m => .vsplatI32 g (stepField pass stride marks 3 32 d) (stepField pass stride marks 2 32 a) m
  | .vsplatI64 g d a m => .vsplatI64 g (stepField pass stride marks 3 32 d) (stepField pass stride marks 2 32 a) m
  | .vins g d a k => .vins g (stepField pass stride marks 3 32 d) (stepField pass stride marks 2 32 a) k
  | .vextN32 g d a k => .vextN32 g (stepField pass stride marks 3 32 d) (stepField pass stride marks 2 32 a) k
  | .vextI32 g d a k => .vextI32 g (stepField pass stride marks 3 32 d) (stepField pass stride marks 2 32 a) k
  | .vsel g d a b m => .vsel g (stepField pass stride marks 3 32 d) (stepField pass stride marks 2 32 a) (stepField pass stride marks 1 32 b) m
  | .vabsF32 g d a m => .vabsF32 g (stepField pass stride marks 3 32 d) (stepField pass stride marks 2 32 a) m
  | .vnegF32 g d a m => .vnegF32 g (stepField pass stride marks 3 32 d) (stepField pass stride marks 2 32 a) m
  | .vabsF16 g d a m => .vabsF16 g (stepField pass stride marks 3 32 d) (stepField pass stride marks 2 32 a) m
  | .vnegF16 g d a m => .vnegF16 g (stepField pass stride marks 3 32 d) (stepField pass stride marks 2 32 a) m
  | .gset g d a => .gset g (stepField pass stride marks 3 8 d) (stepField pass stride marks 2 32 a)
  | .gget g d a => .gget g (stepField pass stride marks 3 32 d) (stepField pass stride marks 2 8 a)
  | .vabsBf16 g d a m => .vabsBf16 g (stepField pass stride marks 3 32 d) (stepField pass stride marks 2 32 a) m
  | .vnegBf16 g d a m => .vnegBf16 g (stepField pass stride marks 3 32 d) (stepField pass stride marks 2 32 a) m
  | .mand g d a b => .mand g (stepField pass stride marks 3 8 d) (stepField pass stride marks 2 8 a) (stepField pass stride marks 1 8 b)
  | .mor g d a b => .mor g (stepField pass stride marks 3 8 d) (stepField pass stride marks 2 8 a) (stepField pass stride marks 1 8 b)
  | .mxor g d a b => .mxor g (stepField pass stride marks 3 8 d) (stepField pass stride marks 2 8 a) (stepField pass stride marks 1 8 b)
  | .mandn g d a b => .mandn g (stepField pass stride marks 3 8 d) (stepField pass stride marks 2 8 a) (stepField pass stride marks 1 8 b)
  | .mnot g d a => .mnot g (stepField pass stride marks 3 8 d) (stepField pass stride marks 2 8 a)
  | .mset g d a => .mset g (stepField pass stride marks 3 8 d) (stepField pass stride marks 2 32 a)
  | .mget g d a => .mget g (stepField pass stride marks 3 32 d) (stepField pass stride marks 2 8 a)
  | .mpop g d a => .mpop g (stepField pass stride marks 3 32 d) (stepField pass stride marks 2 8 a)
  | .mfirst g d a => .mfirst g (stepField pass stride marks 3 32 d) (stepField pass stride marks 2 8 a)
  | .mlow g d a => .mlow g (stepField pass stride marks 3 8 d) (stepField pass stride marks 2 32 a)
  | .rmma g t a b c x y w u v => .rmma g (stepField pass stride marks 3 32 t) (if x = 1 then a else stepField pass stride marks 2 32 a) (stepField pass stride marks 1 32 b) c x y w u v
  | .rfwd g d a b w u i => .rfwd g (stepField pass stride marks 3 4 d) (stepField pass stride marks 2 32 a) (stepField pass stride marks 1 32 b) w u i
  | .rrev g d a b i => .rrev g (stepField pass stride marks 3 32 d) (stepField pass stride marks 2 4 a) (stepField pass stride marks 1 32 b) i
  | .rchk g d a => .rchk g (stepField pass stride marks 3 32 d) (stepField pass stride marks 2 4 a)
  | .rbnd g a b => .rbnd g (stepField pass stride marks 2 4 a) (stepField pass stride marks 1 32 b)
  | .rzero g a => .rzero g (stepField pass stride marks 2 4 a)
  | .rbget g d a => .rbget g (stepField pass stride marks 3 32 d) (stepField pass stride marks 2 4 a)
  | .radd g d a b => .radd g (stepField pass stride marks 3 4 d) (stepField pass stride marks 2 4 a) (stepField pass stride marks 1 4 b)
  | .rsub g d a b => .rsub g (stepField pass stride marks 3 4 d) (stepField pass stride marks 2 4 a) (stepField pass stride marks 1 4 b)
  | .rmov g d a => .rmov g (stepField pass stride marks 3 4 d) (stepField pass stride marks 2 4 a)
  | .rstg g a s => .rstg g (stepField pass stride marks 2 32 a) s
  | .rlda g t a c => .rlda g (stepField pass stride marks 3 32 t) (stepField pass stride marks 2 32 a) c
  | .radds g t a c => .radds g (stepField pass stride marks 3 32 t) (stepField pass stride marks 2 32 a) c
  | .rsta g t a c => .rsta g (stepField pass stride marks 3 32 t) (stepField pass stride marks 2 32 a) c
  | .obld g d a => .obld g (stepField pass stride marks 3 32 d) (stepField pass stride marks 2 32 a)
  | .obst g d a => .obst g (stepField pass stride marks 3 32 d) (stepField pass stride marks 2 32 a)
  | .obcp g t a b r c => .obcp g (stepField pass stride marks 3 32 t) (stepField pass stride marks 2 32 a) (stepField pass stride marks 1 32 b) r c
  | .vld g d a c e m o => .vld g (stepField pass stride marks 3 32 d) (stepField pass stride marks 2 32 a) c e m o
  | .vst g d a c e m o => .vst g (stepField pass stride marks 3 32 d) (stepField pass stride marks 2 32 a) c e m o
  | .copy g t a b c s => .copy g (stepField pass stride marks 3 32 t) (stepField pass stride marks 2 32 a) (stepField pass stride marks 1 32 b) c s
  | .gather g t a z c s => .gather g (stepField pass stride marks 3 32 t) (stepField pass stride marks 2 32 a) z c s
  | .scatter g t a z c s => .scatter g (stepField pass stride marks 3 32 t) (stepField pass stride marks 2 32 a) z c s
  | .nxch g t a b c s => .nxch g (stepField pass stride marks 3 32 t) (stepField pass stride marks 2 32 a) (stepField pass stride marks 1 32 b) c s
  | i => i

/-- The major opcode of a core instruction (08 R174); 0 for every other row. -/
def majorOf : Instr → Nat
  | .add .. => 0x01
  | .sub .. => 0x01
  | .and .. => 0x01
  | .or .. => 0x01
  | .xor .. => 0x01
  | .andn .. => 0x01
  | .sll .. => 0x01
  | .srl .. => 0x01
  | .sra .. => 0x01
  | .min .. => 0x01
  | .max .. => 0x01
  | .minu .. => 0x01
  | .maxu .. => 0x01
  | .mul .. => 0x01
  | .mulh .. => 0x01
  | .mulhu .. => 0x01
  | .div .. => 0x01
  | .divu .. => 0x01
  | .rem .. => 0x01
  | .remu .. => 0x01
  | .clz .. => 0x01
  | .ctz .. => 0x01
  | .popc .. => 0x01
  | .addi .. => 0x02
  | .andi .. => 0x03
  | .ori .. => 0x04
  | .xori .. => 0x05
  | .slli .. => 0x06
  | .srli .. => 0x06
  | .srai .. => 0x06
  | .cmpi .. => 0x07
  | .limm .. => 0x08
  | .cmp .. => 0x09
  | .pand .. => 0x0A
  | .por .. => 0x0A
  | .pxor .. => 0x0A
  | .pandn .. => 0x0A
  | .pnot .. => 0x0A
  | .pnz .. => 0x0A
  | .pget .. => 0x0A
  | .br .. => 0x0B
  | .jalr .. => 0x0C
  | .texit .. => 0x0C
  | .itend .. => 0x0C
  | .csrrw .. => 0x0D
  | .csrrc .. => 0x0D
  | .widx .. => 0x0D
  | .rep .. => 0x0E
  | .lea .. => 0x0F
  | .lpc .. => 0x0F
  | .lwin .. => 0x0F
  | .vaddI32 .. => 0x10
  | .vsubI32 .. => 0x10
  | .vandI32 .. => 0x10
  | .vorI32 .. => 0x10
  | .vxorI32 .. => 0x10
  | .vandnI32 .. => 0x10
  | .vsllI32 .. => 0x10
  | .vsrlN32 .. => 0x10
  | .vsraI32 .. => 0x10
  | .vminI32 .. => 0x10
  | .vmaxI32 .. => 0x10
  | .vminN32 .. => 0x10
  | .vmaxN32 .. => 0x10
  | .vmulI32 .. => 0x10
  | .vmulhI32 .. => 0x10
  | .vmulhN32 .. => 0x10
  | .vaddsI32 .. => 0x10
  | .vaddsN32 .. => 0x10
  | .vsubsI32 .. => 0x10
  | .vsubsN32 .. => 0x10
  | .vabsI32 .. => 0x10
  | .vclzN32 .. => 0x10
  | .vpopcN32 .. => 0x10
  | .vaddF .. => 0x11
  | .vsubF .. => 0x11
  | .vmulF .. => 0x11
  | .vminF .. => 0x11
  | .vmaxF .. => 0x11
  | .vdiv .. => 0x11
  | .vsqrt .. => 0x11
  | .vfma .. => 0x12
  | .vfnma .. => 0x12
  | .vdot2 .. => 0x12
  | .vdot2n .. => 0x12
  | .vcmp .. => 0x13
  | .vcvtI32F32 .. => 0x14
  | .vcvtN32F32 .. => 0x14
  | .vcvtF32I32 .. => 0x14
  | .vcvtF32N32 .. => 0x14
  | .vcvtF16F32 .. => 0x14
  | .vcvtBf16F32 .. => 0x14
  | .vcvtF32F16 .. => 0x14
  | .vcvtF32Bf16 .. => 0x14
  | .vrint .. => 0x14
  | .vupk4 .. => 0x14
  | .vpk4 .. => 0x14
  | .vupk6 .. => 0x14
  | .vpk6 .. => 0x14
  | .vdec .. => 0x15
  | .vdecs .. => 0x15
  | .venc .. => 0x15
  | .vtbl .. => 0x15
  | .vbexp .. => 0x16
  | .valign .. => 0x16
  | .vscale .. => 0x16
  | .vsumF .. => 0x17
  | .vrminF .. => 0x17
  | .vrmaxF .. => 0x17
  | .vsumI32 .. => 0x17
  | .vsumN32 .. => 0x17
  | .vrminI32 .. => 0x17
  | .vrmaxI32 .. => 0x17
  | .vrminN32 .. => 0x17
  | .vrmaxN32 .. => 0x17
  | .vperm .. => 0x18
  | .vrot .. => 0x18
  | .vslu .. => 0x18
  | .vsld .. => 0x18
  | .vrev .. => 0x18
  | .vhswap .. => 0x18
  | .vpkl .. => 0x18
  | .vpkh .. => 0x18
  | .vmov .. => 0x19
  | .vsplatI32 .. => 0x19
  | .vsplatI64 .. => 0x19
  | .vins .. => 0x19
  | .vextN32 .. => 0x19
  | .vextI32 .. => 0x19
  | .vsel .. => 0x19
  | .vabsF32 .. => 0x19
  | .vnegF32 .. => 0x19
  | .vabsF16 .. => 0x19
  | .vnegF16 .. => 0x19
  | .gset .. => 0x19
  | .gget .. => 0x19
  | .vabsBf16 .. => 0x19
  | .vnegBf16 .. => 0x19
  | .mand .. => 0x1A
  | .mor .. => 0x1A
  | .mxor .. => 0x1A
  | .mandn .. => 0x1A
  | .mnot .. => 0x1A
  | .mset .. => 0x1A
  | .mget .. => 0x1A
  | .mpop .. => 0x1A
  | .mfirst .. => 0x1A
  | .mlow .. => 0x1A
  | .rmma .. => 0x20
  | .rfwd .. => 0x21
  | .rrev .. => 0x22
  | .rchk .. => 0x23
  | .rbnd .. => 0x23
  | .rzero .. => 0x23
  | .rbget .. => 0x23
  | .radd .. => 0x24
  | .rsub .. => 0x24
  | .rmov .. => 0x24
  | .rstg .. => 0x24
  | .rlda .. => 0x24
  | .radds .. => 0x24
  | .rsta .. => 0x24
  | .obld .. => 0x25
  | .obst .. => 0x25
  | .obcp .. => 0x25
  | .ld .. => 0x28
  | .st .. => 0x29
  | .vld .. => 0x2A
  | .vst .. => 0x2B
  | .atomCas .. => 0x2C
  | .atom .. => 0x2C
  | .fence .. => 0x2D
  | .copy .. => 0x2E
  | .gather .. => 0x2F
  | .scatter .. => 0x2F
  | .nxch .. => 0x30
  | .bara .. => 0x31
  | .barw .. => 0x31
  | .bari .. => 0x31
  | .twait .. => 0x32
  | .ttest .. => 0x32
  | .tdrain .. => 0x32
  | .msend .. => 0x33
  | .coll .. => 0x34
  | .launch .. => 0x35
  | .trap .. => 0x38
  | .svc .. => 0x38
  | .brk .. => 0x38
  | .uret .. => 0x38
  | .eret .. => 0x39
  | .wfi .. => 0x39
  | .csrrs .. => 0x3A
  | .tlbinvAll .. => 0x3B
  | .tlbinvAsid .. => 0x3B
  | .tlbinvPage .. => 0x3B
  | .tlbinvVa .. => 0x3B
  | .ssave .. => 0x3C
  | .srest .. => 0x3C
  | .binit .. => 0x3D
  | .bwb .. => 0x3D
  | .pwb .. => 0x3D
  | _ => 0

end Sys2Proof.Machine
end

