-- ==== Sys2Proof/Machine/Operands.lean ====
section
/-!
DEFINITION. Issue: the operands of an instruction, the conditions under which it issues, waits or raises a decode cause, and what follows its
effect (02 R24 to R28; 03 R59; 08 R164 to R180, R423).
-/
namespace Sys2Proof.Machine

open Sys2Proof

/-! ### Operands -/

/-- A source as read at issue: its register, its value (an s register in the low 64 bits, a predicate in bit 0) and its poison bit. -/
structure Src where
  reg : Reg
  val : Vec
  poison : Bool
  deriving DecidableEq, Repr

/-- The sources of an instruction in the order of `srcsOf`. -/
abbrev Ops := List Src

/-- The port a register names: 0 pa, 1 pb, 2 pd (08 R165). -/
def portOf (r : Reg) : Option Nat :=
  match r.file, r.num with
  | .s, 30 => some 0
  | .s, 31 => some 1
  | .v, 31 => some 2
  | _, _ => none

/-- How many of some registers name a port. -/
def portUses (rs : List Reg) (k : Nat) : Nat := (rs.filter (fun r => portOf r == some k)).length

/-- A stored register and its poison bit (08 Table 8-1); accumulators and selectors have no word. -/
def readReg (t : Slot) (r : Reg) : Vec × Bool :=
  match r.file with
  | .s => ((t.sreg r.num).setWidth 512, r.num != 0 && t.sP.getLsbD r.num)
  | .v => (vget 0 t.v r.num, t.vP.getLsbD r.num)
  | .p => (if t.predOf r.num then 1 else 0, r.num != 0 && t.pP.getLsbD r.num)
  | .m => ((t.maskOf r.num).setWidth 512, t.maskPoison r.num)
  | .g => ((vget 0 t.g r.num).setWidth 512, t.gP.getLsbD r.num)
  | .a => (0, false)
  | .t => (0, false)

/-- The sources, each occurrence of a port taking the next word of its port buffer (03 R59). -/
def readSrcs (t : Slot) (w : Switch) : List Reg → List Reg → Ops
  | _, [] => []
  | before, r :: rs =>
    (match portOf r with
     | some k =>
       let x := (bufOf w (15 + k)).getD (portUses before k) { data := 0, poison := false }
       { reg := r, val := x.data, poison := x.poison }
     | none =>
       let x := readReg t r
       { reg := r, val := x.1, poison := x.2 })
    :: readSrcs t w (r :: before) rs

/-- The operands of an instruction for the current slot. -/
def operands (i : Instr) (s : State) : Ops := readSrcs (me s) (switchAt s s.cur.pos) [] (srcsOf i)

/-- Source `k` as a vector. -/
def Ops.vec (o : Ops) (k : Nat) : Vec := ((o[k]?).map (·.val)).getD 0

/-- Source `k` as a word. -/
def Ops.word (o : Ops) (k : Nat) : Word := (o.vec k).setWidth 64

/-- Source `k` as a predicate. -/
def Ops.pred (o : Ops) (k : Nat) : Bool := (o.vec k).getLsbD 0

/-- Source `k` is poisoned. -/
def Ops.psn (o : Ops) (k : Nat) : Bool := ((o[k]?).map (·.poison)).getD false

/-- Some source is poisoned (08 R167). -/
def Ops.anyPsn (o : Ops) : Bool := o.any (·.poison)

/-- The trap value of POISON for source `k` (08 R168). -/
def Ops.regVal (o : Ops) (k : Nat) : Word :=
  BitVec.ofNat 64 (((o[k]?).map (fun x => x.reg.file.code * 32 + x.reg.num)).getD 0)

/-- The words an instruction dequeues leave their port buffers (03 R59). -/
def dequeue (i : Instr) (s : State) : State :=
  let w := switchAt s s.cur.pos
  let n0 := portUses (srcsOf i) 0
  let n1 := portUses (srcsOf i) 1
  let n2 := portUses (srcsOf i) 2
  if n0 + n1 + n2 = 0 then s
  else
    setSwitch s s.cur.pos
      (setBuf (setBuf (setBuf w 15 ((bufOf w 15).drop n0)) 16 ((bufOf w 16).drop n1)) 17 ((bufOf w 17).drop n2))

/-- Every word an instruction dequeues is present, and the port it writes has an entry that is neither occupied nor reserved (03 R59). -/
def portsReady (i : Instr) (s : State) : Bool :=
  let w := switchAt s s.cur.pos
  [0, 1, 2].all (fun k =>
    decide (portUses (srcsOf i) k ≤ (bufOf w (15 + k)).length) && (portUses (dstsOf i) k == 0 || portRoom s s.cur.pos k))

/-! ### What an instruction's own description answers -/

/-- The effect of an instruction that has issued with a true guard. -/
inductive Effect where
  /-- done; the slot continues at the next word, or at the next pass -/
  | done (s : State)
  /-- done; the slot continues at a word index -/
  | goto (s : State) (pc : Nat)
  /-- done; the program counter has been settled -/
  | keep (s : State)
  /-- the slot stays STALLED on the instruction; `s` holds what has begun -/
  | wait (s : State)
  /-- a cause is raised and nothing changes -/
  | trap (c : Cause)
  /-- a cause is raised, and `s` holds what changes with it (an injection that fired, a decode table's valid bit) -/
  | trapWith (s : State) (c : Cause)
  deriving DecidableEq, Repr

/-! ### The repeat buffer (08 R177 to R180) -/

/-- The instruction being issued is a scalar instruction ahead of passes that remain (02 R26). -/
def ahead (s : State) : Bool := (me s).rep.issuing && !s.cur.pass

/-- An instruction has ended; one ahead of passes that remain leaves alone what a waiting pass keeps. -/
def ended (s : State) : State := if ahead s then s else endBusy s

/-- A word that REP may capture: its major opcode is listed and it passes rows 1 to 3 of Table 8-7 as written (08 R177). -/
def capturable (w : Nat) : Bool :=
  match decodeCore w with
  | .ok i =>
    let m := majorOf i
    (decide (0x10 ≤ m) && decide (m ≤ 0x1A)) || (decide (0x20 ≤ m) && decide (m ≤ 0x25)) || m == 0x2A || m == 0x2B ||
      (decide (0x2E ≤ m) && decide (m ≤ 0x30))
  | .error _ => false

/-- The index of the first of `n` words from `idx` that REP cannot capture; words past the end of instruction memory are not asked. -/
def firstUncapturable (s : State) : Nat → Nat → Option Nat
  | _, 0 => none
  | idx, n + 1 =>
    if idx < 8192 && !capturable (codeWord s s.cur.pos s.cur.slot idx) then some idx else firstUncapturable s (idx + 1) n

/-- The instruction of captured word `idx` on pass `n` of slot `k`. -/
def Tile.passInstr (t : Tile) (k : Nat) (r : Rep) (n idx : Nat) : Option Instr :=
  match decodeCore (t.wordAt k (r.base.toNat + idx)) with
  | .ok i => some (stepInstr n r.stride.toNat r.mask.toNat i)
  | .error _ => none

/-- The instructions of slot `k` that remain to issue, up to the period of stepped names (08 R178). -/
def Tile.passesLeft (t : Tile) (k : Nat) (r : Rep) : List Instr :=
  let n := min (r.count.toNat - r.pass.toNat) 33
  (List.range n).flatMap (fun j =>
    ((List.range r.len.toNat).filter (fun idx => j != 0 || decide (r.idx.toNat ≤ idx))).filterMap
      (fun idx => t.passInstr k r (r.pass.toNat + j) idx))

/-- The instruction of captured word `idx` on pass `n` of the current slot. -/
def passInstr (s : State) (pos : Nat) (r : Rep) (n idx : Nat) : Option Instr := (tileAt s pos).passInstr s.cur.slot r n idx

/-- The instructions of the current slot that remain to issue. -/
def remainingPasses (s : State) (pos : Nat) (r : Rep) : List Instr := (tileAt s pos).passesLeft s.cur.slot r

/-- Every register an instruction reads or writes, its guard and mask among them. -/
def namedRegs (i : Instr) : List Reg :=
  srcsOf i ++ dstsOf i ++ [⟨.p, (guardOf i).toNat⟩] ++ (match maskRegOf i with | some m => [⟨.m, m⟩] | none => [])

/-- The registers whose values an instruction takes: its sources, its guard and its mask. -/
def namedSources (i : Instr) : List Reg :=
  srcsOf i ++ [⟨.p, (guardOf i).toNat⟩] ++ (match maskRegOf i with | some m => [⟨.m, m⟩] | none => [])

/-- The destination of an access, as a register. -/
def AccKind.dest : AccKind → Option Reg
  | .load rd _ => some ⟨.s, rd.toNat⟩
  | .vload rd _ => some ⟨.v, rd.toNat⟩
  | .atom rd _ _ _ _ => some ⟨.s, rd.toNat⟩
  | .cas rd _ _ _ => some ⟨.s, rd.toNat⟩
  | .bara rd => some ⟨.s, rd.toNat⟩
  | .store .. => none
  | .bari .. => none

/-- The accesses of a pass: 0 none, 1 loads that are not acquire loads, 2 any other (08 R179). -/
def passAccess (i : Instr) : Nat :=
  match i with
  | .vld _ _ _ _ e _ _ => if e = 1 then 2 else 1
  | .vtbl .. => 1
  | .obld .. => 1
  | .vst .. => 2
  | .obst .. => 2
  | .obcp .. => 2
  | .rmma .. => 2
  | .rlda .. => 2
  | .radds .. => 2
  | .rsta .. => 2
  | .copy .. => 2
  | .gather .. => 2
  | .scatter .. => 2
  | .nxch .. => 2
  | _ => 0

/-- The registers whose values come, through registers, from loads of passes: of those that have issued and not been performed, whose destinations are `pending`,
and of those that remain, once these have issued (07 R147). -/
def loadedRegs (pending : List Reg) (rest : List Instr) : List Reg :=
  rest.foldl (fun t i =>
    let keep := t.filter (fun r => !(dstsOf i).contains r)
    if passAccess i != 0 || (namedSources i).any (fun r => t.contains r) then (dstsOf i).filter (fun r => portOf r == none) ++ keep else keep) pending

/-- The destinations of a slot's outstanding loads that passes have made. -/
def awaitedRegs (t : Slot) : List Reg :=
  ((t.outs.filter (fun a => !a.late)).filterMap (fun a => a.kind.dest)).filter (fun r => portOf r == none)

/-- A scalar instruction may issue ahead of the passes that remain (08 R179): a load not where its address, and a store not where its address, data or guard comes
from a load of theirs that has not been performed (07 R145, R147). -/
def mayIssueAhead (i : Instr) (s : State) : Bool :=
  let m := majorOf i
  let rest := remainingPasses s s.cur.pos (me s).rep
  let named := rest.flatMap namedRegs
  let acc := (rest.map passAccess).foldl max 0
  let loaded := loadedRegs (awaitedRegs (me s)) rest
  ((decide (0x01 ≤ m) && decide (m ≤ 0x0B)) || m == 0x0D || m == 0x0F || m == 0x28 || m == 0x29 || m == 0x2C) &&
    (dstsOf i).all (fun r => !named.contains r) &&
    (srcsOf i).all (fun r => portOf r == none || !named.contains r) &&
    (if m = 0x28 then decide (acc ≤ 1) && (srcsOf i).all (fun r => !loaded.contains r)
     else if m = 0x29 ∨ m = 0x2C then acc == 0 && (namedSources i).all (fun r => !loaded.contains r) else true)

/-! ### Decode causes that depend on the state (08 R176, Table 8-7) -/

/-- The index that imm13[10:0] of a CSR access encodes (09 R208). -/
def csrIndex (c : BitVec 11) : Nat := c.toNat / 1024 * 2048 + c.toNat % 1024

/-- An index of Table 8-10 (08 R181). -/
def userCsr (n : Nat) : Bool := decide (n ≤ 9) || (decide (0x10 ≤ n) && decide (n ≤ 0x13))

/-- An index of Table 18-1 (18 R316). -/
def supervisorCsr (n : Nat) : Bool := decide (0x800 ≤ n) && decide (n ≤ 0x80F)

/-- The slot is in the user view (18 R315). -/
def userView (s : State) : Bool := !(me s).sstatus.getLsbD 0

/-- The decode cause of a CSR index (08 R181, R175). -/
def csrCause (s : State) (n : Nat) : Option Cause :=
  if n < 0x800 then (if userCsr n then none else some { row := 1, cause := cUNDEF, tval := curWord s })
  else if userView s then some { row := 2, cause := cPRIV, tval := curWord s }
  else if supervisorCsr n then none
  else some { row := 1, cause := cUNDEF, tval := curWord s }

/-- Rows 1 and 2 of Table 8-7, as far as the state decides them. -/
def viewCause (i : Instr) (s : State) : Option Cause :=
  match i with
  | .rep _ _ _ _ _ l =>
    (firstUncapturable s (s.cur.pc.toNat + 1) (l.toNat + 1)).map
      (fun k => { row := 1, cause := cUNDEF, tval := BitVec.ofNat 64 k })
  | .texit _ => if chartSlot s then some { row := 1, cause := cUNDEF, tval := curWord s } else none
  | .itend _ => if chartSlot s then none else some { row := 1, cause := cUNDEF, tval := curWord s }
  | .csrrw _ _ _ c => csrCause s (csrIndex c)
  | .csrrc _ _ _ c => csrCause s (csrIndex c)
  | .csrrs _ _ _ c =>
    if userView s then some { row := 2, cause := cPRIV, tval := curWord s } else csrCause s (csrIndex c)
  | i =>
    if 0x39 ≤ majorOf i ∧ majorOf i ≤ 0x3D ∧ userView s = true then some { row := 2, cause := cPRIV, tval := curWord s } else none

/-- A write of RNSCFG: a CSR access of index 3 with a source (05 R108). -/
def writesRnscfg : Instr → Bool
  | .csrrw _ _ a c => csrIndex c == 3 && a != 0
  | .csrrc _ _ a c => csrIndex c == 3 && a != 0
  | .csrrs _ _ a c => csrIndex c == 3 && a != 0
  | _ => false

/-- The instruction names a port or an accumulator, lies under 0x20 to 0x25, or writes RNSCFG: slot 0 of a chart alone may (02 R28). -/
def chartOnly (i : Instr) : Bool :=
  (srcsOf i ++ dstsOf i).any (fun r => portOf r != none || r.file == .a) ||
    (decide (0x20 ≤ majorOf i) && decide (majorOf i ≤ 0x25)) || writesRnscfg i

/-- Rows 1, 2 and 4 of Table 8-7; row 3 is found by the decoder. -/
def decodeCause (i : Instr) (s : State) : Option Cause :=
  match viewCause i s with
  | some c => some c
  | none => if chartOnly i && !chartSlot s then some { row := 4, cause := cPORT, tval := curWord s } else none

/-! ### The gate of issue -/

/-- A register is pending (08 R166); ports are governed by `portsReady`. -/
def pendingReg (t : Slot) (r : Reg) : Bool :=
  portOf r == none &&
  (match r.file with
   | .s => r.num != 0 && t.sPend.getLsbD r.num
   | .v => t.vPend.getLsbD r.num
   | .p => r.num != 0 && t.pPend.getLsbD r.num
   | .m => r.num != 0 && t.mPend.getLsbD r.num
   | .g => t.gPend.getLsbD r.num
   | .a => false
   | .t => false)

/-- The registers whose pending bits hold an instruction back: all it names, but for the token TTEST asks about (12 R276). -/
def scoreboardRegs (i : Instr) : List Reg :=
  match i with
  | .ttest g d _ => [⟨.p, d.toNat⟩, ⟨.p, g.toNat⟩]
  | i => namedRegs i

/-- The accumulator that an asynchronous operation of the residue unit writes. -/
def OpKind.writesAcc : OpKind → Option Nat
  | .rmma a _ _ _ _ _ _ => some a
  | .rlda a _ => some a
  | .radds a _ => some a
  | _ => none

/-- The accumulator that it reads. -/
def OpKind.readsAcc : OpKind → Option Nat
  | .rsta a _ => some a
  | _ => none

/-- An accumulator is pending, or, for a writer, an earlier instruction has still to read it (11 R239). -/
def accHeld (t : Tile) (r : Reg) (dest : Bool) : Bool :=
  r.file == .a &&
    t.ops.any (fun o => !o.finished && (o.kind.writesAcc == some r.num || (dest && o.kind.readsAcc == some r.num)))

/-- The instruction may rewrite digits of the accumulator it reads (11 R239; 05 R102). -/
def correctsAcc : Instr → Bool
  | .rrev .. => true
  | .rchk .. => true
  | _ => false

/-- The slot does not issue: it holds no running context, or waits on a fence (07 R151) or a withheld access (07 R162). -/
def slotWaits (t : Slot) : Bool := t.phase != .running || t.fence.isSome || withheld t.blocked

/-- The decode table that an instruction names through a selector (04 R89). -/
def tableNamed : Instr → Option Nat
  | .vdec _ _ _ t _ _ => some t.toNat
  | .vdecs _ _ _ t _ _ _ => some t.toNat
  | .venc _ _ _ t _ _ => some t.toNat
  | .vtbl _ t _ _ => some (t.toNat % 4)
  | _ => none

/-- The physical table that selector `t` of the current slot names (04 R77). -/
def physTable (s : State) (t : Nat) : Nat := bitsOf (me s).nfc (9 + 2 * t) (8 + 2 * t)

/-- The VTBL of another slot of the tile loads the table that an instruction names: until the load has ended every later instruction that names it stalls
(04 R89). -/
def tableLoading (i : Instr) (s : State) : Bool :=
  match tableNamed i with
  | none => false
  | some t =>
    (List.range 4).any (fun k => k != s.cur.slot && ((slotAt s s.cur.pos k).busy.bind (·.table)) == some (physTable s t))

/-- The instruction stays STALLED whatever its guard holds: a register it names is pending, a table it names is being loaded, or passes remain that it may not
overtake. -/
def heldBack (i : Instr) (s : State) : Bool :=
  (scoreboardRegs i).any (pendingReg (me s)) || tableLoading i s || (srcsOf i).any (fun r => accHeld (myTile s) r (correctsAcc i)) ||
    (dstsOf i).any (fun r => accHeld (myTile s) r true) || (ahead s && !mayIssueAhead i s)

/-- The word index at which the slot continues after an instruction that falls through; REP skips its captured words (08 R177). -/
def nextPc (i : Instr) (s : State) : Nat :=
  match i with
  | .rep _ _ _ _ _ l => s.cur.pc.toNat + l.toNat + 2
  | _ => s.cur.pc.toNat + 1

/-- The instruction, with its guard true, does not continue at the next word (08 R423). -/
def leavesStream : Instr → Bool
  | .br .. => true
  | .jalr .. => true
  | .texit .. => true
  | .itend .. => true
  | .uret .. => true
  | .eret .. => true
  | .brk .. => true
  | _ => false

/-- The slot would continue past word 8,191 (08 R423). -/
def runsOff (i : Instr) (s : State) (guardTrue : Bool) : Bool :=
  !s.cur.pass && !(guardTrue && leavesStream i) && decide (8192 ≤ nextPc i s)

/-- ACCESS of R423. -/
def runOffCause : Cause := { row := 9, cause := cACCESS, tval := 8192 }

/-- What the shared tests of issue answer. -/
inductive Gate where
  /-- STALLED -/
  | stall
  /-- a cause is raised -/
  | cause (c : Cause)
  /-- guarded false -/
  | skip
  /-- the effect takes place -/
  | go
  deriving DecidableEq, Repr

/-- The tests every instruction passes at issue, in order: the slot itself, rows 1 to 4 of Table 8-7, the scoreboard, row 5, the guard, the governing mask (08 R168), the
ports. -/
def gate (i : Instr) (s : State) : Gate :=
  let t := me s
  let g := (guardOf i).toNat
  if slotWaits t then .stall
  else
  match decodeCause i s with
  | some c => .cause c
  | none =>
    if heldBack i s then .stall
    else if g != 0 && t.pP.getLsbD g then .cause { row := 5, cause := cPOISON, tval := BitVec.ofNat 64 (64 + g) }
    else if !t.predOf g then (if runsOff i s false then .cause runOffCause else .skip)
    else
      match maskRegOf i with
      | some m =>
        if t.maskPoison m then .cause { row := 5, cause := cPOISON, tval := BitVec.ofNat 64 (96 + m) }
        else if portsReady i s then .go else .stall
      | none => if portsReady i s then .go else .stall

/-! ### After the effect -/

/-- The slot has been found STALLED. -/
def stalled (s : State) : State := { s with cur := { s.cur with stalled := true } }

/-- The next pass; when the last one has issued, the token is written with COUNT × LEN (08 R177, R178). -/
def advancePass (s : State) : State :=
  let t := me s
  let r := t.rep
  if r.idx.toNat + 1 < r.len.toNat then setMe s { t with rep := { r with idx := r.idx + 1 } }
  else if r.pass.toNat + 1 < r.count.toNat then setMe s { t with rep := { r with idx := 0, pass := r.pass + 1 } }
  else
    wrToken (setMe s { t with rep := { r with idx := 0, pass := r.pass + 1, active := false } }) s.cur.pos s.cur.slot r.tok.toNat .rep
      (BitVec.ofNat 64 (r.count.toNat * r.len.toNat))

/-- The slot continues at a word index. -/
def jumpTo (s : State) (pc : Nat) : State := setMe s { me s with pc := BitVec.ofNat 14 pc }

/-- The slot continues after an instruction that has issued. -/
def advance (i : Instr) (s : State) : State := if s.cur.pass then advancePass s else jumpTo s (nextPc i s)

/-- A synchronous cause is taken; ahead of passes that remain it waits until the last of them has issued (08 R179). -/
def raise (s : State) (c : Cause) : State :=
  if ahead s then stalled s
  else takeTrap s s.cur.pos s.cur.slot false c.cause c.code c.tval (if c.next then s.cur.pc.toNat + 1 else s.cur.pc.toNat)

/-- The unread negative status that an instruction reads: of a register it names as a source, or of any for TDRAIN and TEXIT (12 R271). -/
def readsToken (i : Instr) (s : State) : Option TokenErr :=
  let t := me s
  match i with
  | .tdrain _ => t.tokErr.head?
  | .texit _ => t.tokErr.head?
  | .ttest _ _ a => if t.sPend.getLsbD a.toNat then none else t.tokErr.find? (fun e => e.reg == a && a != 0)
  | i => t.tokErr.find? (fun e => e.reg != 0 && (srcsOf i).contains ⟨.s, e.reg.toNat⟩)

/-- The cause of a token is raised once (13 R298). -/
def dropToken (s : State) (e : TokenErr) : State :=
  let t := me s
  setMe s { t with tokErr := t.tokErr.erase e }

/-- A cause that is tested before the continuation past word 8,191: rows 1 to 8, and PORT_ILLEGAL of row 9 (18 Table 18-24). -/
def Cause.beforeRunOff (c : Cause) : Bool := decide (c.row < 9) || (c.row == 9 && c.cause == cPORT)

/-- An effect that waits has been decided as far as row 9: it waits for memory or for room, and not for what must have ended before it issues. -/
def waitsToDrain : Instr → Bool
  | .tdrain _ => true
  | .texit _ => true
  | .itend _ => true
  | _ => false

/-- What follows the effect: continuation past word 8,191 (row 9), the cause of a token that was read (row 19), and otherwise the effect itself. -/
def settle (i : Instr) (s : State) (e : Effect) : State :=
  let early := fun (p : Cause → Bool) => match e with
    | .trap c => p c
    | .trapWith _ c => p c
    | .wait _ => waitsToDrain i
    | _ => false
  if runsOff i s true && !early Cause.beforeRunOff then raise s runOffCause
  else
  match e with
  | .wait s' => stalled s'
  | _ =>
    match readsToken i s with
    | some k =>
      if ahead s then stalled s
      else if early (fun c => decide (c.row < 19)) then (match e with | .trap c => raise s c | .trapWith s' c => raise s' c | _ => s)
      else raise (dropToken s k) { row := 19, cause := k.cause, tval := k.tval }
    | none =>
      match e with
      | .done s' => advance i (dequeue i (ended s'))
      | .goto s' pc => jumpTo (dequeue i (ended s')) pc
      | .keep s' => dequeue i (ended s')
      | .wait s' => stalled s'
      | .trap c => raise s c
      | .trapWith s' c => if ahead s then stalled s else raise s' c

/-- One issue of an instruction by the current slot: the gate, then the instruction's own effect, then its continuation. -/
def issue (i : Instr) (s : State) (body : Ops → State → Effect) : State :=
  match gate i s with
  | .stall => stalled s
  | .cause c => raise s c
  | .skip => advance i s
  | .go => settle i s (body (operands i s) s)

/-- A core instruction: a next state. -/
def runCore (i : Instr) (s : State) (body : Ops → State → Effect) : Out := .next (issue i s body)

/-! ### Causes of an instruction's own description -/

/-- A poisoned source in a role of Table 8-2 raises POISON with its register (08 R168); else the effect goes on. -/
def needClean (o : Ops) (k : Nat) (e : Effect) : Effect :=
  if o.psn k then .trap { row := 5, cause := cPOISON, tval := o.regVal k } else e

/-- A condition that fails raises a cause. -/
def demand (ok : Bool) (row cause : Nat) (tval : Word) (e : Effect) : Effect :=
  if ok then e else .trap { row := row, cause := cause, tval := tval }

end Sys2Proof.Machine
end

