-- ==== Sys2Proof/Machine/Flags.lean ====
section
/-!
DEFINITION. FLAGS and UNCHK, the tile syndrome queue, and shadow execution (04 R80; 08 R182; 09 R192; 10 R219; 21 R380).

A comparison disagrees under an armed injection (18 R325), and where the shadow of a floating-point element or of a saturating vector operation,
computed as Table 10-2 says, is another value; elsewhere the shadow agrees (log entry 9).
-/
namespace Sys2Proof.Machine

open Sys2Proof

/-- The flag bits of FLAGS (04 Table 4-4). -/
def fNV : BitVec 6 := 1
def fDZ : BitVec 6 := 2
def fOF : BitVec 6 := 4
def fUF : BitVec 6 := 8
def fNX : BitVec 6 := 16
def fRC : BitVec 6 := 32

/-- OR flags into FLAGS of the current slot; no flag is cleared (04 R80). -/
def orFlags (s : State) (f : BitVec 6) : State :=
  let t := me s
  setMe s { t with flags := t.flags ||| f.setWidth 64 }

/-- UNCHK rises by `n`, stopping at 2^64 − 1 (08 R182). -/
def addUnchk (s : State) (n : Nat) : State :=
  let t := me s
  if n = 0 then s else setMe s { t with unchk := BitVec.ofNat 64 (min (2 ^ 64 - 1) (t.unchk.toNat + n)) }

/-- The capacity of a tile syndrome queue (21 R380). -/
def synSize : Nat := 8

/-- The tile syndrome queue is full: an instruction that would add an event stays STALLED (21 R380). -/
def synFull (s : State) : Bool := decide (synSize ≤ (myTile s).synq.length)

/-- Add an event to the tile syndrome queue. -/
def pushSyn (s : State) (e : SynEvent) : State :=
  let t := myTile s
  setMyTile s { t with synq := t.synq ++ [e] }

/-- The KIND of the tile's armed injection; 0 when none is armed (18 Table 18-17). -/
def armedKind (t : Tile) : Nat := if t.faultinj.getLsbD 63 then bitsOf t.faultinj 62 60 else 0

/-- The armed injection of the tile has fired and clears EN (18 R325). -/
def disarm (s : State) : State :=
  let t := myTile s
  setMyTile s { t with faultinj := bitSet t.faultinj 63 false }

/-- The SHADOW event of the instruction being executed (21 Table 21-2). -/
def shadowEvent (s : State) (vector mismatch : Bool) : SynEvent :=
  { kind := 2, slot := s.cur.slot, part := partOf s s.cur.pos, cycle := s.cycle, addr := BitVec.ofNat 64 s.cur.pc.toNat
    lo := BitVec.ofNat 64
      ((curWord s).toNat % 2 ^ 32 + (if vector then 2 ^ 32 else 0) + (if mismatch then 2 ^ 33 else 0)) }

/-- A comparison disagrees, and so does that of the repetition: SHADOW_MISMATCH, with its event (09 R192; 10 R219; 21 R386). -/
def mismatched (s : State) (vector : Bool) : Effect :=
  let s1 := if armedKind (myTile s) = (if vector then 4 else 3) then disarm s else s
  if synFull s then .wait s
  else .trapWith (pushSyn s1 (shadowEvent s vector true)) { row := 21, cause := cSHADOW, tval := curWord s }

/-- Shadow execution (09 R192; 10 R219): `checked` says that a comparison is made, `unchecked` how many elements are written without one, and
`write` writes the first result. -/
def shadowed (s : State) (vector checked : Bool) (unchecked : Nat) (write : State → State) : Effect :=
  let k := armedKind (myTile s)
  if checked && !vector && k == 3 then mismatched s vector
  else if checked && ((!vector && k == 2) || (vector && k == 4)) then
    (if synFull s then .wait s
     else .done (write (addUnchk (pushSyn (disarm s) (shadowEvent s vector false)) unchecked)))
  else .done (write (addUnchk s unchecked))

/-- Bits [63:62] are equal (09 R192). -/
def topEqual (a : Word) : Bool := a.getLsbD 63 == a.getLsbD 62

/-- Bits [31:30] are equal (10 Table 10-2). -/
def topEqual32 (a : BitVec 32) : Bool := a.getLsbD 31 == a.getLsbD 30

end Sys2Proof.Machine
end

