-- ==== Sys2Proof/Machine/Fp.lean ====
section
/-!
DEFINITION. Binary floating formats, decode tables, RoundTo and the special operands (04 R75 to R93).

A finite magnitude is an exact number num / den of natural numbers. The magnitude of a binary operand is counted in units of 2^-149, the
smallest subnormal of binary32, of which every value of every format is a multiple.
-/
namespace Sys2Proof.Machine

open Sys2Proof

/-- A binary format by its exponent and fraction widths (04 Table 4-1). -/
structure Fmt where
  ew : Nat
  mw : Nat
  deriving DecidableEq, Repr

def f32 : Fmt := ⟨8, 23⟩
def f16 : Fmt := ⟨5, 10⟩
def bf16 : Fmt := ⟨8, 7⟩

/-- The format of a type code: 0 .f32, 1 .f16, 2 .bf16 (10 R222). -/
def fmtOf (t : Nat) : Fmt := if t = 1 then f16 else if t = 2 then bf16 else f32

/-- Bits of an element. -/
def Fmt.width (F : Fmt) : Nat := F.ew + F.mw + 1

/-- The weight of the smallest subnormal is 2^-u. -/
def Fmt.unit (F : Fmt) : Nat := 2 ^ (F.ew - 1) - 2 + F.mw

/-- The pattern of infinity, without the sign. -/
def Fmt.inf (F : Fmt) : Nat := (2 ^ F.ew - 1) * 2 ^ F.mw

/-- The sign bit. -/
def Fmt.signBit (F : Fmt) : Nat := 2 ^ (F.ew + F.mw)

/-- The canonical NaN (04 Table 4-2). -/
def Fmt.nan (F : Fmt) : Nat := F.inf + 2 ^ (F.mw - 1)

/-- The exponent of the unit of operand magnitudes. -/
def opUnit : Nat := 149

/-- An operand: NaN, an infinity, or a finite magnitude in units of 2^-149 with its sign. -/
inductive FVal where
  | nan
  | inf (neg : Bool)
  | fin (neg : Bool) (mag : Nat)
  deriving DecidableEq, Repr

/-- A finite value of a pattern without sign, in units of the format's smallest subnormal. -/
def Fmt.ulps (F : Fmt) (idx : Nat) : Nat :=
  if idx < 2 ^ F.mw then idx else (2 ^ F.mw + idx % 2 ^ F.mw) * 2 ^ (idx / 2 ^ F.mw - 1)

/-- The value of a pattern (04 R75). -/
def decodeF (F : Fmt) (x : Nat) : FVal :=
  let neg := decide (F.signBit ≤ x % (2 * F.signBit))
  let idx := x % F.signBit
  if F.inf < idx then .nan
  else if idx = F.inf then .inf neg
  else .fin neg (F.ulps idx * 2 ^ (opUnit - F.unit))

/-- A pattern as an operand of an instruction that calls RoundTo: with FTZ = 1 a subnormal is a zero of its sign (04 R84). -/
def operandF (F : Fmt) (ftz : Bool) (x : Nat) : FVal :=
  if ftz && decide (x % F.signBit < 2 ^ F.mw) && decide (0 < x % F.signBit) then .fin (decide (F.signBit ≤ x % (2 * F.signBit))) 0
  else decodeF F x

/-- The fields of NFC that RoundTo reads (04 Table 4-3). -/
structure Rnd where
  rm : Nat
  sat : Bool
  ftz : Bool
  nft : Bool
  deriving DecidableEq, Repr

/-- The rounding fields of an NFC value. -/
def rndOf (nfc : Word) : Rnd :=
  { rm := bitsOf nfc 2 0, sat := nfc.getLsbD 4, ftz := nfc.getLsbD 5, nft := nfc.getLsbD 7 }

/-- NextRandom: the advanced state and sixteen bits of it (04 R85). -/
def nextRandom (x : Word) : Word × Nat :=
  let a := x ^^^ (x <<< 13)
  let b := a ^^^ (a >>> 7)
  let c := b ^^^ (b <<< 17)
  (c, bitsOf c 31 16)

/-- The larger grid value is chosen, for the fraction fnum / fden between neighbours (04 R82). -/
def roundsUp (rm : Nat) (neg : Bool) (fnum fden : Nat) (hiEven : Bool) (r : Nat) : Bool :=
  match rm with
  | 0 => decide (fden < 2 * fnum) || (decide (2 * fnum = fden) && hiEven)
  | 1 => false
  | 2 => !neg
  | 3 => neg
  | _ => decide (2 ^ 16 ≤ fnum * 2 ^ 16 / fden + r)

/-- What overflow delivers: the largest magnitude, or infinity (04 Table 4-5). -/
def overflowToMax (R : Rnd) (neg : Bool) : Bool :=
  R.sat || R.rm == 1 || (R.rm == 2 && neg) || (R.rm == 3 && !neg)

/-- The sign of an exact zero from a sum of operands of opposite sign (04 R82). -/
def zeroSumNeg (R : Rnd) : Bool := R.rm == 3

/-- A pattern with its sign. -/
def Fmt.signed (F : Fmt) (neg : Bool) (idx : Nat) : Nat := (if neg then F.signBit else 0) + idx

/-- Overflow(F, s) of a binary format (04 R83). -/
def overflowF (R : Rnd) (F : Fmt) (neg : Bool) : Nat × BitVec 6 :=
  (F.signed neg (if overflowToMax R neg then F.inf - 1 else F.inf), fOF ||| fNX)

/-- The index of the largest grid value not above a magnitude of q whole units (04 R82). -/
def Fmt.floorIdx (F : Fmt) (q : Nat) : Nat :=
  if q < 2 ^ F.mw then q else (q.log2 - F.mw + 1) * 2 ^ F.mw + (q / 2 ^ (q.log2 - F.mw) - 2 ^ F.mw)

/-- RoundTo of a finite non-zero magnitude num / den into a binary format, with the drawn bits `r` (04 R82 to R84). -/
def roundMag (R : Rnd) (F : Fmt) (neg : Bool) (num den r : Nat) : Nat × BitVec 6 :=
  let n := num * 2 ^ F.unit
  let tiny := decide (n < den * 2 ^ F.mw)
  if R.ftz && tiny then (F.signed neg 0, fUF ||| fNX)
  else
    let lo := F.floorIdx (n / den)
    if F.inf ≤ lo then overflowF R F neg
    else
      let vlo := F.ulps lo
      let vhi := F.ulps (lo + 1)
      if vlo * den = n then (F.signed neg lo, 0)
      else
        let v := if roundsUp R.rm neg (n - vlo * den) ((vhi - vlo) * den) ((lo + 1) % 2 == 0) r then lo + 1 else lo
        if v = F.inf then overflowF R F neg
        else (F.signed neg v, if tiny then fNX ||| fUF else fNX)

/-- An exact result before rounding. -/
inductive Exact where
  | nan
  | inf (neg : Bool)
  /-- magnitude num / den with its sign; a zero has the sign given -/
  | val (neg : Bool) (num den : Nat)
  deriving DecidableEq, Repr

/-- RoundTo into a binary format (04 R82). -/
def roundTo (R : Rnd) (F : Fmt) (x : Exact) (r : Nat) : Nat × BitVec 6 :=
  match x with
  | .nan => (F.nan, 0)
  | .inf neg => (F.signed neg F.inf, 0)
  | .val neg num den => if num = 0 then (F.signed neg 0, 0) else roundMag R F neg num den r

/-! ### Exact arithmetic with the special operands (04 Table 4-8) -/

/-- The signed numerator of a finite operand. -/
def sgn (neg : Bool) (m : Nat) : Int := if neg then -(m : Int) else m

/-- A sum of finite terms, `num` over `den`: an exact zero of terms all of one sign keeps it, else it has the sign of R82. -/
def exactSum (R : Rnd) (num : Int) (den : Nat) (allNeg allPos : Bool) : Exact :=
  if num = 0 then .val (if allNeg then true else if allPos then false else zeroSumNeg R) 0 den
  else .val (decide (num < 0)) num.natAbs den

/-- a + b. -/
def exactAdd (R : Rnd) (a b : FVal) : Exact × BitVec 6 :=
  match a, b with
  | .nan, _ => (.nan, 0)
  | _, .nan => (.nan, 0)
  | .inf x, .inf y => if x = y then (.inf x, 0) else (.nan, fNV)
  | .inf x, .fin _ _ => (.inf x, 0)
  | .fin _ _, .inf y => (.inf y, 0)
  | .fin x m, .fin y n => (exactSum R (sgn x m + sgn y n) (2 ^ opUnit) (x && y) (!x && !y), 0)

/-- The negation of an operand. -/
def FVal.neg : FVal → FVal
  | .nan => .nan
  | .inf x => .inf (!x)
  | .fin x m => .fin (!x) m

/-- a × b. -/
def exactMul (a b : FVal) : Exact × BitVec 6 :=
  match a, b with
  | .nan, _ => (.nan, 0)
  | _, .nan => (.nan, 0)
  | .inf x, .inf y => (.inf (x != y), 0)
  | .inf x, .fin y n => if n = 0 then (.nan, fNV) else (.inf (x != y), 0)
  | .fin x m, .inf y => if m = 0 then (.nan, fNV) else (.inf (x != y), 0)
  | .fin x m, .fin y n => (.val (x != y) (m * n) (2 ^ (2 * opUnit)), 0)

/-- a / b. -/
def exactDiv (a b : FVal) : Exact × BitVec 6 :=
  match a, b with
  | .nan, _ => (.nan, 0)
  | _, .nan => (.nan, 0)
  | .inf _, .inf _ => (.nan, fNV)
  | .inf x, .fin y _ => (.inf (x != y), 0)
  | .fin x _, .inf y => (.val (x != y) 0 1, 0)
  | .fin x m, .fin y n =>
    if n = 0 then (if m = 0 then (.nan, fNV) else (.inf (x != y), fDZ)) else (.val (x != y) m n, 0)

/-- The integer square root, digit by digit from bit `k` down. -/
def isqrtFrom (n : Nat) : Nat → Nat → Nat
  | 0, r => r
  | k + 1, r => isqrtFrom n k (if (r + 2 ^ k) * (r + 2 ^ k) ≤ n then r + 2 ^ k else r)

/-- √a: the root is kept to 2^-301 with a sticky bit, far below the sixteen bits that any rounding reads (log entry 11). -/
def exactSqrt (a : FVal) : Exact × BitVec 6 :=
  match a with
  | .nan => (.nan, 0)
  | .inf x => if x then (.nan, fNV) else (.inf false, 0)
  | .fin x m =>
    if m = 0 then (.val x 0 1, 0)
    else if x then (.nan, fNV)
    else
      let n := m * 2 ^ (600 - opUnit)
      let q := isqrtFrom n 440 0
      (.val false (2 * q + (if q * q = n then 0 else 1)) (2 ^ 301), 0)

/-- Terms of a fused sum: ± a × b for each pair, and c, over 2^-298 (10 R223). A NaN operand or an invalid product gives NaN. -/
def exactDot (R : Rnd) (negate : Bool) (pairs : List (FVal × FVal)) (c : FVal) : Exact × BitVec 6 :=
  let prods := pairs.map (fun p => (exactMul p.1 p.2))
  let nv := prods.foldl (fun f p => f ||| p.2) (0 : BitVec 6)
  let terms := prods.map (fun p => match p.1 with
    | .nan => Exact.nan
    | .inf x => .inf (x != negate)
    | .val x n d => .val (x != negate) n d)
  let cterm := match c with
    | .nan => Exact.nan
    | .inf x => .inf x
    | .fin x m => .val x (m * 2 ^ opUnit) (2 ^ (2 * opUnit))
  let all := terms ++ [cterm]
  if nv != 0 then (.nan, fNV)
  else if all.any (fun t => t == .nan) then (.nan, 0)
  else
    let pinf := all.any (fun t => t == .inf false)
    let ninf := all.any (fun t => t == .inf true)
    if pinf && ninf then (.nan, fNV)
    else if pinf then (.inf false, 0)
    else if ninf then (.inf true, 0)
    else
      let num := all.foldl (fun (acc : Int) t => match t with | .val x n _ => acc + sgn x n | _ => acc) 0
      let negs := all.all (fun t => match t with | .val x _ _ => x | _ => false)
      let poss := all.all (fun t => match t with | .val x _ _ => !x | _ => false)
      (exactSum R num (2 ^ (2 * opUnit)) negs poss, 0)

/-- A NaN or an infinity. -/
def FVal.special : FVal → Bool
  | .fin _ _ => false
  | _ => true

/-- A result that is a NaN or an infinity (04 R79). -/
def Fmt.nonfinite (F : Fmt) (x : Nat) : Bool := decide (F.inf ≤ x % F.signBit)

/-- a < b for ordered operands; −0 equals +0 (04 Table 4-8). -/
def ltF (a b : FVal) : Bool :=
  match a, b with
  | .nan, _ => false
  | _, .nan => false
  | .inf x, .inf y => x && !y
  | .inf x, .fin _ _ => x
  | .fin _ _, .inf y => !y
  | .fin x m, .fin y n => decide (sgn x m < sgn y n)

/-- a = b for ordered operands. -/
def eqF (a b : FVal) : Bool :=
  match a, b with
  | .nan, _ => false
  | _, .nan => false
  | .inf x, .inf y => x == y
  | .inf _, .fin _ _ => false
  | .fin _ _, .inf _ => false
  | .fin x m, .fin y n => decide (sgn x m = sgn y n)

/-- Minimum or maximum of two patterns (04 Table 4-8): a NaN gives the other operand, two NaNs the canonical one; −0 is below +0. -/
def minMaxF (F : Fmt) (isMax : Bool) (x y : Nat) : Nat :=
  let a := decodeF F x
  let b := decodeF F y
  match a, b with
  | .nan, .nan => F.nan
  | .nan, _ => y
  | _, .nan => x
  | _, _ =>
    let below := ltF a b || (eqF a b && decide (F.signBit ≤ x))
    if below then (if isMax then y else x) else (if isMax then x else y)

/-! ### Decode tables (04 R87 to R90) -/

/-- An entry of a table image: kind, sign, and the magnitude in units of 2^-149 (04 R87). -/
def tableEntry (t : Mem) (c : Nat) : Nat := memRead t (4 * c) 4

/-- Decode(T, c) (04 R87). -/
def decodeEntry (e : Nat) : FVal :=
  let kind := e / 2 ^ 19 % 4
  let ex := e / 2 ^ 10 % 256
  let fr := e % 1024
  match kind with
  | 0 => .fin (decide (e / 2 ^ 18 % 2 = 1)) (if ex = 0 then fr * 2 ^ 13 else (1024 + fr) * 2 ^ (ex + 12))
  | 1 => .inf false
  | 2 => .inf true
  | _ => .nan

/-- Decode of a code by a table. -/
def decodeCode (t : Mem) (c : Nat) : FVal := decodeEntry (tableEntry t c)

/-- The contents of a decode table from its bytes; the reserved bits of an entry read as zero (00 R7; 04 Table 4-9). -/
def tableCells (bs : List Byte) : Mem := cellsFrom 0 (bs.zipIdx.map (fun e => if e.2 % 4 = 3 then 0 else if e.2 % 4 = 2 then e.1 &&& 0x1F else e.1))

/-- A table image is valid (04 R88). -/
def tableValid (t : Mem) : Bool :=
  let e := tableEntry t
  let codes := List.range 128
  let fin := fun c => e c / 2 ^ 19 % 4 == 0
  let mag : Nat → Nat := fun c => match decodeEntry (e c) with | .fin _ m => m | _ => 0
  (List.range 256).all (fun c =>
    e c / 2 ^ 21 == 0 && (if fin c then e c / 2 ^ 10 % 256 != 255 else e c % 2 ^ 19 == 0)) &&
  e 0 == 0 &&
  codes.all (fun c => !fin c || e c / 2 ^ 18 % 2 == 0) &&
  (List.range 127).all (fun c => !(fin c && fin (c + 1)) || decide (mag c ≤ mag (c + 1))) &&
  (List.range 127).all (fun c => fin c || !fin (c + 1)) &&
  codes.all (fun c => e c / 2 ^ 19 % 4 != 2) &&
  (List.range 127).all (fun c => e (c + 1) / 2 ^ 19 % 4 != 1 || fin c) &&
  codes.all (fun c =>
    match e c / 2 ^ 19 % 4 with
    | 0 => e (128 + c) == e c + 2 ^ 18
    | 1 => e (128 + c) == 2 ^ 20
    | _ => e (128 + c) == e c)

/-- The grid of a table: its finite values with the lowest code of each, rising (04 R82). -/
def tableGrid (t : Mem) : List (Nat × Nat) :=
  ((List.range 128).foldl (fun (acc : List (Nat × Nat)) c =>
    match decodeCode t c with
    | .fin _ m =>
      (match acc with
       | [] => [(c, m)]
       | (k, v) :: rest => if v < m then (c, m) :: (k, v) :: rest else acc)
    | _ => acc) []).reverse

/-- The lowest code of 0x00 to 0x7F of a kind (04 R82, R83). -/
def firstKind (t : Mem) (kind : Nat) : Option Nat :=
  (List.range 128).find? (fun c => tableEntry t c / 2 ^ 19 % 4 == kind)

/-- A code in the half of its sign (04 R88). -/
def signedCode (neg : Bool) (c : Nat) : Nat := (if neg then 128 else 0) + c

/-- Overflow into a table: infinity, else the NaN code of the sign's half, else the largest magnitude (04 R83). -/
def overflowT (R : Rnd) (t : Mem) (neg : Bool) (vmaxCode : Nat) : Nat × BitVec 6 :=
  let c :=
    if overflowToMax R neg then vmaxCode
    else match firstKind t 1 with
      | some c => c
      | none => match firstKind t 3 with
        | some c => c
        | none => vmaxCode
  (signedCode neg c, fOF ||| fNX)

/-- The largest grid point not above a magnitude, as a position of the grid. -/
def gridFloor (g : List (Nat × Nat)) (num den : Nat) : Nat := (g.filter (fun e => decide (e.2 * den ≤ num))).length - 1

/-- RoundTo into a table of a finite non-zero magnitude, num / den in units of 2^-149 (04 R82, R90). -/
def roundTable (R : Rnd) (t : Mem) (neg : Bool) (num den r : Nat) : Nat × BitVec 6 :=
  let g := tableGrid t
  let n := g.length
  let at_ := fun k => g.getD k (0, 0)
  let vmax := at_ (n - 1)
  if n < 2 then ((Config.freeCode neg num den).1.toNat, (Config.freeCode neg num den).2)
  else
    let vnext := 2 * vmax.2 - (at_ (n - 2)).2
    if vnext * den ≤ num then overflowT R t neg vmax.1
    else
      let k := gridFloor g num den
      let lo := at_ k
      let hi := if k + 1 < n then at_ (k + 1) else (vmax.1 + 1, vnext)
      if lo.2 * den = num then (signedCode neg lo.1, 0)
      else if roundsUp R.rm neg (num - lo.2 * den) ((hi.2 - lo.2) * den) (hi.1 % 2 == 0) r then
        (if k + 1 = n then overflowT R t neg vmax.1
         else (signedCode neg hi.1, if num < (at_ 1).2 * den then fNX ||| fUF else fNX))
      else (signedCode neg lo.1, if num < (at_ 1).2 * den then fNX ||| fUF else fNX)

/-- VENC of an operand: RoundTo into a table (04 R82, R83; 10 R228). -/
def encodeTable (R : Rnd) (t : Mem) (x : FVal) (r : Nat) : Nat × BitVec 6 :=
  match x with
  | .nan => (match firstKind t 3 with | some c => (c, 0) | none => (0, fNV))
  | .inf neg =>
    (match firstKind t 1 with
     | some c => (signedCode neg c, 0)
     | none => overflowT R t neg ((tableGrid t).getD ((tableGrid t).length - 1) (0, 0)).1)
  | .fin neg m => if m = 0 then (signedCode neg 0, 0) else roundTable R t neg m 1 r

/-! ### Block scales (04 R92, R93) -/

/-- A scale code: NaN, or the factor num / 2^dexp. -/
inductive Scale where
  | nan
  | zero
  | mul (num dexp : Nat)
  deriving DecidableEq, Repr

/-- The factor of an E8M0 code: 2^(k − 127). -/
def scaleE8M0 (k : Nat) : Scale := if k = 255 then .nan else .mul (2 ^ k) 127

/-- The factor of a UE4M3 code: the value of MX E4M3. -/
def scaleUE4M3 (k : Nat) : Scale :=
  if 127 ≤ k then .nan
  else if k = 0 then .zero
  else if k / 8 = 0 then .mul (k % 8) 9
  else .mul ((8 + k % 8) * 2 ^ (k / 8)) 10

/-- The factor of scale code `j` of a scale register (04 Table 4-12). -/
def scaleOf (g : Word) (j : Nat) : Scale :=
  let k := g.toNat / 2 ^ (8 * j) % 256
  if bitsOf g 33 32 = 0 then scaleE8M0 k else scaleUE4M3 k

/-- A scaled element (04 Table 4-13). -/
def scaledElement (x : FVal) (sc : Scale) : Exact × BitVec 6 :=
  match x, sc with
  | .nan, _ => (.nan, 0)
  | _, .nan => (.nan, 0)
  | .inf _, .zero => (.nan, fNV)
  | .inf n, .mul _ _ => (.inf n, 0)
  | .fin n _, .zero => (.val n 0 1, 0)
  | .fin n m, .mul a e => (.val n (m * a) (2 ^ (opUnit + e)), 0)

end Sys2Proof.Machine
end

