-- ==== Sys2Proof/Machine/WorkId.lean ====
section
/-!
DEFINITION. Work identifiers: fields and the odometer step (02 R38, R40).
-/
namespace Sys2Proof.Machine

open Sys2Proof

/-- Width of identifier field `f` by a WIDF value (02 Table 2-6). -/
def widWidth (widf : Word) (f : Nat) : Nat := bitsOf widf (6 * f + 5) (6 * f)

/-- Offset of field `f`: the widths below it (02 R38). -/
def widOff (widf : Word) (f : Nat) : Nat := ((List.range f).map (widWidth widf)).foldl (· + ·) 0

/-- Field `f` of an identifier; a field of width zero reads 0 (02 R38). -/
def widField (widf x : Word) (f : Nat) : Nat := x.toNat / 2 ^ widOff widf f % 2 ^ widWidth widf f

/-- The identifier with field `f` set. -/
def setWidField (widf x : Word) (f v : Nat) : Word :=
  BitVec.ofNat 64
    (x.toNat - widField widf x f * 2 ^ widOff widf f + v % 2 ^ widWidth widf f * 2 ^ widOff widf f)

/-- Advance the fields of a list, lowest first: a field that would pass its base plus extent takes its base and carries (02 R40). -/
def widAdvanceFrom (widf : Word) (base ext : Nat → Nat) : List Nat → Word → Word
  | [], x => x
  | f :: fs, x =>
    if widWidth widf f = 0 then widAdvanceFrom widf base ext fs x
    else if widField widf x f + 1 < base f + ext f then setWidField widf x f (widField widf x f + 1)
    else widAdvanceFrom widf base ext fs (setWidField widf x f (base f))

/-- One advance of an identifier (02 R40). -/
def widAdvance (widf : Word) (base ext : Nat → Nat) (x : Word) : Word :=
  widAdvanceFrom widf base ext [0, 1, 2, 3, 4, 5] x

/-- The first identifier: every field at its base (02 R41). -/
def widBases (widf : Word) (base : Nat → Nat) : Word :=
  BitVec.ofNat 64 (((List.range 6).map (fun f => base f * 2 ^ widOff widf f)).foldl (· + ·) 0)

end Sys2Proof.Machine
end

