-- ==== Sys2Proof/Machine/Scalar.lean ====
section
/-!
DEFINITION. Scalar ALU instructions: major opcodes 0x01 to 0x0A and 0x0F, and WIDX (09 R191 to R202, R211, R214).
-/
namespace Sys2Proof.Machine

open Sys2Proof

/-- A scalar ALU instruction that writes an s register: its result is poisoned when a source is (08 R167); `pre` is the precondition of Table 9-1. -/
def scalarOp (i : Instr) (d : BitVec 5) (pre : Ops → Bool) (f : Ops → Word) (s : State) : Out :=
  runCore i s (fun o s =>
    shadowed s false (pre o) (if pre o then 0 else 1) (fun s => setS s d (f o) o.anyPsn))

/-- A scalar ALU instruction that writes a predicate (09 R193). -/
def predOp (i : Instr) (d : BitVec 5) (pre : Ops → Bool) (f : Ops → Bool) (s : State) : Out :=
  runCore i s (fun o s =>
    shadowed s false (pre o) (if pre o then 0 else 1) (fun s => setP s d (f o) o.anyPsn))

/-- Every register operand top-equal (09 Table 9-1). -/
def allTop (o : Ops) : Bool := o.all (fun x => topEqual (x.val.setWidth 64))

/-- The first operand top-equal. -/
def topA (o : Ops) : Bool := topEqual (o.word 0)

/-- Bit 63 of the first operand is 0. -/
def posA (o : Ops) : Bool := !(o.word 0).getLsbD 63

/-- Bit 63 of both operands is 0. -/
def posAB (o : Ops) : Bool := !(o.word 0).getLsbD 63 && !(o.word 1).getLsbD 63

/-- Always checked. -/
def always (_ : Ops) : Bool := true

/-! ### Results -/

/-- Leading zero bits of a `w`-bit value (09 Table 9-3). -/
def clzN (w x : Nat) : Nat := if x = 0 then w else w - 1 - x.log2

/-- Trailing zero bits of a value, at most `w`. -/
def ctzN : Nat → Nat → Nat
  | 0, _ => 0
  | w + 1, x => if x % 2 = 1 then 0 else 1 + ctzN w (x / 2)

/-- One bits among the low `w` bits of a value. -/
def popcN : Nat → Nat → Nat
  | 0, _ => 0
  | w + 1, x => x % 2 + popcN w (x / 2)

/-- Bits [2w − 1 : w] of a product of integers, as `w` bits (09 Table 9-3). -/
def mulHigh (w : Nat) (x y : Int) : BitVec w := ofInt w (x * y / 2 ^ w)

/-- The quotient of DIV: −1 for a zero divisor, truncated toward zero otherwise, modulo 2^64 (09 R196). -/
def divS (a b : Word) : Word := if b = 0 then -1 else ofInt 64 (a.toInt.tdiv b.toInt)

/-- The remainder of REM: the dividend for a zero divisor, otherwise with the dividend's sign (09 R196). -/
def remS (a b : Word) : Word := if b = 0 then a else ofInt 64 (a.toInt.tmod b.toInt)

/-- The quotient of DIVU (09 R196). -/
def divU (a b : Word) : Word := if b = 0 then -1 else BitVec.ofNat 64 (a.toNat / b.toNat)

/-- The remainder of REMU (09 R196). -/
def remU (a b : Word) : Word := if b = 0 then a else BitVec.ofNat 64 (a.toNat % b.toNat)

/-- The shift amount of a register: its low six bits (09 R195). -/
def shAmt (b : Word) : Nat := b.toNat % 64

/-- A relation of Table 9-6; codes 7 and 8 are .gt and .le. -/
def relation (code : Nat) (a b : Word) : Bool :=
  match code with
  | 0 => a == b
  | 1 => a != b
  | 2 => a.slt b
  | 3 => !a.slt b
  | 4 => a.ult b
  | 5 => !a.ult b
  | 6 => (a &&& b) != 0
  | 7 => b.slt a
  | _ => !b.slt a

/-! ### Major opcode 0x01 (09 R194) -/

/-- ADD: a + b. -/
def execAdd (g : BitVec 3) (d a b : BitVec 5) (s : State) : Out :=
  scalarOp (.add g d a b) d allTop (fun o => o.word 0 + o.word 1) s

/-- SUB: a − b. -/
def execSub (g : BitVec 3) (d a b : BitVec 5) (s : State) : Out :=
  scalarOp (.sub g d a b) d allTop (fun o => o.word 0 - o.word 1) s

/-- AND. -/
def execAnd (g : BitVec 3) (d a b : BitVec 5) (s : State) : Out :=
  scalarOp (.and g d a b) d allTop (fun o => o.word 0 &&& o.word 1) s

/-- OR. -/
def execOr (g : BitVec 3) (d a b : BitVec 5) (s : State) : Out :=
  scalarOp (.or g d a b) d allTop (fun o => o.word 0 ||| o.word 1) s

/-- XOR. -/
def execXor (g : BitVec 3) (d a b : BitVec 5) (s : State) : Out :=
  scalarOp (.xor g d a b) d allTop (fun o => o.word 0 ^^^ o.word 1) s

/-- ANDN: a and not b. -/
def execAndn (g : BitVec 3) (d a b : BitVec 5) (s : State) : Out :=
  scalarOp (.andn g d a b) d allTop (fun o => o.word 0 &&& ~~~(o.word 1)) s

/-- SLL by b[5:0] (09 R195). -/
def execSll (g : BitVec 3) (d a b : BitVec 5) (s : State) : Out :=
  scalarOp (.sll g d a b) d topA (fun o => o.word 0 <<< shAmt (o.word 1)) s

/-- SRL by b[5:0]. -/
def execSrl (g : BitVec 3) (d a b : BitVec 5) (s : State) : Out :=
  scalarOp (.srl g d a b) d posA (fun o => o.word 0 >>> shAmt (o.word 1)) s

/-- SRA by b[5:0]: floor(as / 2^k). -/
def execSra (g : BitVec 3) (d a b : BitVec 5) (s : State) : Out :=
  scalarOp (.sra g d a b) d topA (fun o => (o.word 0).sshiftRight (shAmt (o.word 1))) s

/-- MIN: signed minimum. -/
def execMin (g : BitVec 3) (d a b : BitVec 5) (s : State) : Out :=
  scalarOp (.min g d a b) d allTop (fun o => if (o.word 0).slt (o.word 1) then o.word 0 else o.word 1) s

/-- MAX: signed maximum. -/
def execMax (g : BitVec 3) (d a b : BitVec 5) (s : State) : Out :=
  scalarOp (.max g d a b) d allTop (fun o => if (o.word 1).slt (o.word 0) then o.word 0 else o.word 1) s

/-- MINU: unsigned minimum. -/
def execMinu (g : BitVec 3) (d a b : BitVec 5) (s : State) : Out :=
  scalarOp (.minu g d a b) d allTop (fun o => if (o.word 0).ult (o.word 1) then o.word 0 else o.word 1) s

/-- MAXU: unsigned maximum. -/
def execMaxu (g : BitVec 3) (d a b : BitVec 5) (s : State) : Out :=
  scalarOp (.maxu g d a b) d allTop (fun o => if (o.word 1).ult (o.word 0) then o.word 0 else o.word 1) s

/-- MUL: as × bs modulo 2^64. -/
def execMul (g : BitVec 3) (d a b : BitVec 5) (s : State) : Out :=
  scalarOp (.mul g d a b) d always (fun o => o.word 0 * o.word 1) s

/-- MULH: the high half of the signed product. -/
def execMulh (g : BitVec 3) (d a b : BitVec 5) (s : State) : Out :=
  scalarOp (.mulh g d a b) d allTop (fun o => mulHigh 64 (o.word 0).toInt (o.word 1).toInt) s

/-- MULHU: the high half of the unsigned product. -/
def execMulhu (g : BitVec 3) (d a b : BitVec 5) (s : State) : Out :=
  scalarOp (.mulhu g d a b) d posAB (fun o => mulHigh 64 (o.word 0).toNat (o.word 1).toNat) s

/-- DIV (09 R196). -/
def execDiv (g : BitVec 3) (d a b : BitVec 5) (s : State) : Out :=
  scalarOp (.div g d a b) d allTop (fun o => divS (o.word 0) (o.word 1)) s

/-- DIVU (09 R196). -/
def execDivu (g : BitVec 3) (d a b : BitVec 5) (s : State) : Out :=
  scalarOp (.divu g d a b) d posAB (fun o => divU (o.word 0) (o.word 1)) s

/-- REM (09 R196). -/
def execRem (g : BitVec 3) (d a b : BitVec 5) (s : State) : Out :=
  scalarOp (.rem g d a b) d allTop (fun o => remS (o.word 0) (o.word 1)) s

/-- REMU (09 R196). -/
def execRemu (g : BitVec 3) (d a b : BitVec 5) (s : State) : Out :=
  scalarOp (.remu g d a b) d posAB (fun o => remU (o.word 0) (o.word 1)) s

/-- CLZ: leading zero bits; 64 for 0. -/
def execClz (g : BitVec 3) (d a : BitVec 5) (s : State) : Out :=
  scalarOp (.clz g d a) d (fun o => posA o && o.word 0 != 0) (fun o => BitVec.ofNat 64 (clzN 64 (o.word 0).toNat)) s

/-- CTZ: trailing zero bits; 64 for 0. -/
def execCtz (g : BitVec 3) (d a : BitVec 5) (s : State) : Out :=
  scalarOp (.ctz g d a) d (fun o => posA o && o.word 0 != 0) (fun o => BitVec.ofNat 64 (ctzN 64 (o.word 0).toNat)) s

/-- POPC: one bits. -/
def execPopc (g : BitVec 3) (d a : BitVec 5) (s : State) : Out :=
  scalarOp (.popc g d a) d posA (fun o => BitVec.ofNat 64 (popcN 64 (o.word 0).toNat)) s

/-! ### Immediates (09 R197 to R199, R201) -/

/-- ADDI: a + SignExt(imm13). -/
def execAddi (g : BitVec 3) (d a : BitVec 5) (i : BitVec 13) (s : State) : Out :=
  scalarOp (.addi g d a i) d allTop (fun o => o.word 0 + i.signExtend 64) s

/-- ANDI. -/
def execAndi (g : BitVec 3) (d a : BitVec 5) (i : BitVec 13) (s : State) : Out :=
  scalarOp (.andi g d a i) d allTop (fun o => o.word 0 &&& i.signExtend 64) s

/-- ORI. -/
def execOri (g : BitVec 3) (d a : BitVec 5) (i : BitVec 13) (s : State) : Out :=
  scalarOp (.ori g d a i) d allTop (fun o => o.word 0 ||| i.signExtend 64) s

/-- XORI. -/
def execXori (g : BitVec 3) (d a : BitVec 5) (i : BitVec 13) (s : State) : Out :=
  scalarOp (.xori g d a i) d allTop (fun o => o.word 0 ^^^ i.signExtend 64) s

/-- SLLI (09 R198). -/
def execSlli (g : BitVec 3) (d a : BitVec 5) (k : BitVec 6) (s : State) : Out :=
  scalarOp (.slli g d a k) d topA (fun o => o.word 0 <<< k.toNat) s

/-- SRLI (09 R198). -/
def execSrli (g : BitVec 3) (d a : BitVec 5) (k : BitVec 6) (s : State) : Out :=
  scalarOp (.srli g d a k) d posA (fun o => o.word 0 >>> k.toNat) s

/-- SRAI (09 R198). -/
def execSrai (g : BitVec 3) (d a : BitVec 5) (k : BitVec 6) (s : State) : Out :=
  scalarOp (.srai g d a k) d topA (fun o => (o.word 0).sshiftRight k.toNat) s

/-- CMPI: codes 0 to 5 of Table 9-6, then 6 .gt and 7 .le, against a sign-extended ten-bit immediate (09 R201). -/
def execCmpi (g : BitVec 3) (d a : BitVec 5) (r : BitVec 3) (i : BitVec 10) (s : State) : Out :=
  predOp (.cmpi g d a r i) d allTop
    (fun o => relation (if r.toNat < 6 then r.toNat else r.toNat + 1) (o.word 0) (i.signExtend 64)) s

/-- LIMM: part `p` of the constant; for p > 0 the low 16p bits of rd are kept (09 R199). -/
def execLimm (g : BitVec 3) (d : BitVec 5) (p : BitVec 2) (i : BitVec 16) (s : State) : Out :=
  scalarOp (.limm g d p i) d always
    (fun o => BitVec.ofNat 64 (if p = 0 then 0 else (o.word 0).toNat % 2 ^ (16 * p.toNat)) + i.signExtend 64 <<< (16 * p.toNat)) s

/-! ### Compares and predicates (09 R200, R202) -/

/-- CMP with the relation of fn. -/
def execCmp (g : BitVec 3) (d a b : BitVec 5) (r : BitVec 3) (s : State) : Out :=
  predOp (.cmp g d a b r) d allTop (fun o => relation r.toNat (o.word 0) (o.word 1)) s

/-- PAND. -/
def execPand (g : BitVec 3) (d a b : BitVec 5) (s : State) : Out :=
  predOp (.pand g d a b) d always (fun o => o.pred 0 && o.pred 1) s

/-- POR. -/
def execPor (g : BitVec 3) (d a b : BitVec 5) (s : State) : Out :=
  predOp (.por g d a b) d always (fun o => o.pred 0 || o.pred 1) s

/-- PXOR. -/
def execPxor (g : BitVec 3) (d a b : BitVec 5) (s : State) : Out :=
  predOp (.pxor g d a b) d always (fun o => o.pred 0 != o.pred 1) s

/-- PANDN: pa and not pb. -/
def execPandn (g : BitVec 3) (d a b : BitVec 5) (s : State) : Out :=
  predOp (.pandn g d a b) d always (fun o => o.pred 0 && !o.pred 1) s

/-- PNOT. -/
def execPnot (g : BitVec 3) (d a : BitVec 5) (s : State) : Out :=
  predOp (.pnot g d a) d always (fun o => !o.pred 0) s

/-- PNZ: a ≠ 0. -/
def execPnz (g : BitVec 3) (d a : BitVec 5) (s : State) : Out :=
  predOp (.pnz g d a) d always (fun o => o.word 0 != 0) s

/-- PGET: 1 if pa, else 0. -/
def execPget (g : BitVec 3) (d a : BitVec 5) (s : State) : Out :=
  scalarOp (.pget g d a) d always (fun o => if o.pred 0 then 1 else 0) s

/-! ### Identifier fields and addresses (09 R211, R214) -/

/-- WIDX: field f of WID, or of a with SRC = 1, under the slot's WIDF. -/
def execWidx (g : BitVec 3) (d a : BitVec 5) (src : BitVec 1) (f : BitVec 3) (s : State) : Out :=
  scalarOp (.widx g d a src f) d always
    (fun o => BitVec.ofNat 64 (widField (me s).widf (if src = 1 then o.word 0 else (me s).wid) f.toNat)) s

/-- LEA: a + b × 2^k modulo 2^64. -/
def execLea (g : BitVec 3) (d a b : BitVec 5) (k : BitVec 5) (s : State) : Out :=
  scalarOp (.lea g d a b k) d allTop (fun o => o.word 0 + o.word 1 <<< k.toNat) s

/-- LPC: pc + SignExt(d) modulo 2^64. -/
def execLpc (g : BitVec 3) (d : BitVec 5) (off : BitVec 15) (s : State) : Out :=
  scalarOp (.lpc g d off) d always (fun _ => s.cur.pc.setWidth 64 + off.signExtend 64) s

/-- The window base of LWIN: own scratch, operand bank, neighbours 0 to 3 (09 R214). -/
def windowBase (w : Nat) : Nat :=
  if w = 0 then 0 else if w = 1 then Config.bankOff else Config.neighbourOff (w - 2)

/-- LWIN: the window address of an offset. -/
def execLwin (g : BitVec 3) (d a : BitVec 5) (w : BitVec 5) (s : State) : Out :=
  scalarOp (.lwin g d a w) d allTop
    (fun o => BitVec.ofNat 64 (Config.localBase + windowBase w.toNat) + o.word 0) s

end Sys2Proof.Machine
end

