-- ==== Sys2Proof/Machine/Lanes.lean ====
section
/-!
DEFINITION. What vector instructions share: lanes and masks, elements that are rounded, and how a result is written (10 R216 to R220).
-/
namespace Sys2Proof.Machine

open Sys2Proof

/-- Element `k` of width `w` (10 Table 10-1). -/
def elem (v : Vec) (w k : Nat) : Nat := v.toNat / 2 ^ (w * k) % 2 ^ w

/-- Lane `k`. -/
def lane (v : Vec) (k : Nat) : BitVec 32 := BitVec.ofNat 32 (elem v 32 k)

/-- A number made of elements of width `w`, the first in the low bits. -/
def packFrom (w : Nat) (f : Nat → Nat) : Nat → Nat → Nat
  | 0, _ => 0
  | n + 1, k => f k % 2 ^ w + 2 ^ w * packFrom w f n (k + 1)

/-- A vector made of `n` elements of width `w`. -/
def packVec (w n : Nat) (f : Nat → Nat) : Vec := BitVec.ofNat 512 (packFrom w f n 0)

/-- The bits of the active lanes. -/
def laneBits (m : BitVec 16) : Vec := packVec 32 16 (fun k => if m.getLsbD k then 2 ^ 32 - 1 else 0)

/-- The active lanes, rising. -/
def activeLanes (m : BitVec 16) : List Nat := (List.range 16).filter (fun k => m.getLsbD k)

/-- The active elements of width `w`, rising (10 Table 10-1). -/
def activeElems (m : BitVec 16) (w : Nat) : List Nat := (List.range (512 / w)).filter (fun k => m.getLsbD (k * w / 32))

/-- The governing mask of an instruction. -/
def govern (s : State) (m : BitVec 3) : BitVec 16 := (me s).maskOf m.toNat

/-- Write the bits `e` selects of a vector register and keep the rest, with the poison of what is kept (08 R167); pd has no old value (10 R218). -/
def setVKeep (s : State) (d : BitVec 5) (e new : Vec) (poison : Bool) : State :=
  let t := me s
  let r := d.toNat
  let old := if r = 31 then 0 else vget 0 t.v r
  let oldP := r != 31 && t.vP.getLsbD r
  setV s d ((new &&& e) ||| (old &&& ~~~e)) (poison || (e != BitVec.allOnes 512 && oldP))

/-- Write a mask register's active bits (10 R217). -/
def setMKeep (s : State) (d : BitVec 5) (e new : BitVec 16) (poison : Bool) : State :=
  let t := me s
  setM s d ((new &&& e) ||| (t.maskOf d.toNat &&& ~~~e)) (poison || (e != 0xFFFF && t.maskPoison d.toNat))

/-- A vector instruction of 32-bit lanes without rounding or a shadow comparison. -/
def moveOp (i : Instr) (d : BitVec 5) (m : BitVec 3) (f : Ops → Nat → Nat) (s : State) : Out :=
  runCore i s (fun o s => .done (setVKeep s d (laneBits (govern s m)) (packVec 32 16 (f o)) o.anyPsn))

/-- The vector operands of the shadow of an addition, every lane doubled modulo 2^32 (10 Table 10-2). -/
def doubledLanes (o : Ops) : Ops := o.map (fun x => { x with val := packVec 32 16 (fun k => 2 * elem x.val 32 k) })

/-- The shadow of lane `k` of an operation compared as ADD is, run on doubled operands, is not twice its result (09 Table 9-1; 10 Table 10-2). -/
def sumShadow (f : Ops → Nat → BitVec 32) (o : Ops) (k : Nat) : Bool := f (doubledLanes o) k != 2 * f o k

/-- The operations whose shadow is the realigned result whatever operands meet the precondition of Table 10-2: doubling them loses no bit the operation
reads, so that the comparison agrees. -/
def agreeing (_ : Ops) (_ : Nat) : Bool := false

/-- A vector integer instruction: `pre` is the shadow precondition of a lane (10 Table 10-2), and `dis` says that the shadow of a lane disagrees; a lane
that is checked and disagrees does so again on the repetition (R219). -/
def intOp (i : Instr) (d : BitVec 5) (m : BitVec 3) (pre : Ops → Nat → Bool) (f : Ops → Nat → BitVec 32) (dis : Ops → Nat → Bool) (s : State) : Out :=
  runCore i s (fun o s =>
    let act := activeLanes (govern s m)
    if act.any (fun k => pre o k && dis o k) then mismatched s true
    else
    shadowed s true (act.any (pre o)) ((act.filter (fun k => !pre o k)).length)
      (fun s => setVKeep s d (laneBits (govern s m)) (packVec 32 16 (fun k => (f o k).toNat)) o.anyPsn))

/-- A saturating vector integer instruction, whose shadow is compared as that of ADD (10 Table 10-2). -/
def intSum (i : Instr) (d : BitVec 5) (m : BitVec 3) (pre : Ops → Nat → Bool) (f : Ops → Nat → BitVec 32) (s : State) : Out :=
  intOp i d m pre f (sumShadow f) s

/-! ### Elements that pass through RoundTo -/

/-- What rounding the elements one after another leaves. -/
structure RAcc where
  seed : Word
  flags : BitVec 6
  /-- the results, element by element, in place -/
  out : Nat
  /-- the lowest lane whose result is non-finite from finite operands (04 R79) -/
  nf : Option Nat
  unchk : Nat
  chk : Bool
  /-- a checked element disagrees with its shadow -/
  dis : Bool
  deriving DecidableEq, Repr

/-- Nothing rounded yet. -/
def RAcc.start (seed : Word) : RAcc := { seed := seed, flags := 0, out := 0, nf := none, unchk := 0, chk := false, dis := false }

/-- Draw sixteen bits under RSR (04 R85). -/
def draw (R : Rnd) (seed : Word) : Word × Nat := if R.rm = 4 then nextRandom seed else (seed, 0)

/-- A pattern is zero or normal finite and stays so with its exponent raised by `e` (10 R219). -/
def normalSafe (F : Fmt) (ftz : Bool) (e x : Nat) : Bool :=
  let idx := x % F.signBit
  idx == 0 || (ftz && decide (idx < 2 ^ F.mw)) || (decide (2 ^ F.mw ≤ idx) && decide (idx + e * 2 ^ F.mw < F.inf))

/-- What one element delivers: its bits and flags, whether it is non-finite from finite operands, whether its shadow comparison is made, and whether its shadow is
another value. -/
structure ElemOut where
  bits : Nat
  flags : BitVec 6
  bad : Bool
  ok : Bool
  dis : Bool := false
  deriving DecidableEq, Repr

/-- One element: its exact value, whether its operands are finite, whether they are normal-safe, and by how much the shadow raises the result. -/
structure ElemIn where
  exact : Exact × BitVec 6
  finite : Bool
  safe : Bool
  raise : Nat
  deriving DecidableEq, Repr

/-- An exact value times 2^`e`. -/
def Exact.raised (e : Nat) : Exact → Exact
  | .val neg num den => .val neg (num * 2 ^ e) den
  | x => x

/-- A zero or normal pattern with its exponent raised by `e`. -/
def raisePattern (F : Fmt) (e y : Nat) : Nat := if y % F.signBit = 0 then y else y + e * 2 ^ F.mw

/-- The shadow of an element, rounded with the bits that the first execution drew, is not 2^`e` times its result (10 Table 10-2). -/
def shadowDiffers (R : Rnd) (F : Fmt) (x : Exact) (e y r : Nat) : Bool := (roundTo R F (x.raised e) r).1 != raisePattern F e y

/-- Round an element into a binary format with the drawn bits `r`. -/
def roundElem (R : Rnd) (F : Fmt) (x : ElemIn) (r : Nat) : ElemOut :=
  let y := roundTo R F x.exact.1 r
  { bits := y.1, flags := x.exact.2 ||| y.2, bad := x.finite && F.nonfinite y.1, ok := x.safe && normalSafe F false x.raise y.1
    dis := shadowDiffers R F x.exact.1 x.raise y.1 r }

/-- Add element `k`, whose bits stand from `pos k` on in lane `ln k`, to what went before; every element draws once under RSR. -/
def elemStep (R : Rnd) (pos ln : Nat → Nat) (f : Nat → Nat → ElemOut) (acc : RAcc) (k : Nat) : RAcc :=
  let d := draw R acc.seed
  let y := f k d.2
  { seed := d.1, flags := acc.flags ||| y.flags, out := acc.out + y.bits * 2 ^ pos k
    nf := match acc.nf with
      | some l => some l
      | none => if y.bad then some (ln k) else none
    unchk := acc.unchk + (if y.ok then 0 else 1), chk := acc.chk || y.ok, dis := acc.dis || (y.ok && y.dis) }

/-- The effect of rounded elements: FP_NONFINITE under NFT, else the shadow comparison and the write of result, FLAGS and SEED. -/
def roundedEffect (R : Rnd) (acc : RAcc) (s : State) (write : State → State) : Effect :=
  match (if R.nft then acc.nf else none) with
  | some l => .trap { row := 18, cause := cNONFINITE, tval := BitVec.ofNat 64 l }
  | none =>
    if acc.dis then mismatched s true
    else
    shadowed s true acc.chk acc.unchk (fun s =>
      let s1 := orFlags s acc.flags
      write (setMe s1 { me s1 with seed := acc.seed }))

/-- The rounding fields of the slot's NFC, read at issue (04 R78). -/
def myRnd (s : State) : Rnd := rndOf (me s).nfc

/-- An instruction whose active elements are delivered one after another: which elements, where their bits and lanes are, and the bits of rd
they replace. -/
def elemOp (i : Instr) (d : BitVec 5) (ks : State → List Nat) (pos ln : Nat → Nat) (keep : State → Vec)
    (f : Rnd → Ops → Nat → Nat → ElemOut) (s : State) : Out :=
  runCore i s (fun o s =>
    let R := myRnd s
    let acc := (ks s).foldl (elemStep R pos ln (f R o)) (RAcc.start (me s).seed)
    roundedEffect R acc s (fun s => setVKeep s d (keep s) (BitVec.ofNat 512 acc.out) o.anyPsn))

/-- An elementwise floating instruction of a binary format under a governing mask. -/
def floatOp (i : Instr) (d : BitVec 5) (F : Fmt) (mk : State → BitVec 16) (f : Rnd → Ops → Nat → ElemIn) (s : State) : Out :=
  elemOp i d (fun s => activeElems (mk s) F.width) (fun k => F.width * k) (fun k => k * F.width / 32) (fun s => laneBits (mk s))
    (fun R o k => roundElem R F (f R o k)) s

/-! ### Tables and scale registers named by an instruction -/

/-- FMT_TABLE for a table whose valid bit is clear (04 R89; 13 Table 13-9). -/
def needTable (s : State) (t : Nat) (e : Effect) : Effect :=
  demand (vget DTable.reset (myTile s).dtab (physTable s t)).valid 11 cFMT (BitVec.ofNat 64 t) e

/-- The contents of a selected table. -/
def tableOf (s : State) (t : Nat) : Mem := (vget DTable.reset (myTile s).dtab (physTable s t)).data

/-- FMT_TABLE for a scale register with a reserved FMT or BSZ, or with FMT other than 0 where `e8m0` asks for it (04 R92; 10 Table 10-3). -/
def needScale (g : Word) (num : Nat) (e8m0 : Bool) (e : Effect) : Effect :=
  demand (decide (bitsOf g 33 32 < 2) && decide (bitsOf g 35 34 < 2) && (!e8m0 || bitsOf g 33 32 == 0)) 11 cFMT
    (BitVec.ofNat 64 (8 + num)) e

end Sys2Proof.Machine
end

