-- ==== Sys2Proof/Machine/Crypto.lean ====
section
/-!
DEFINITION. The cryptographic functions that 06 R133, 22 R413 and 22 R414 name: AES-256 (FIPS 197), KMAC256 (SP 800-185) and SHAKE256 (FIPS 202).

Keys and counter blocks are numbers whose most significant byte is the first byte of the standard.
-/
namespace Sys2Proof.Machine

open Sys2Proof

/-! ### Bytes and numbers -/

/-- The bytes of a number, lowest first. -/
def bytesLE : Nat → Nat → List Byte
  | 0, _ => []
  | n + 1, x => BitVec.ofNat 8 (x % 256) :: bytesLE n (x / 256)

/-- The number of a list of bytes, lowest first. -/
def ofBytesLE : List Byte → Nat
  | [] => 0
  | b :: bs => b.toNat + 256 * ofBytesLE bs

/-- The bytes of a number, highest first. -/
def bytesBE (n x : Nat) : List Byte := (bytesLE n x).reverse

/-- Two lists of bytes, byte by byte. -/
def xorBytes (a b : List Byte) : List Byte := List.zipWith (· ^^^ ·) a b

/-- A list cut into pieces of `k` elements, `n` of them. -/
def pieces {α : Type} (k : Nat) : Nat → List α → List (List α)
  | 0, _ => []
  | n + 1, l => l.take k :: pieces k n (l.drop k)

/-! ### AES-256 (FIPS 197) -/

/-- Multiplication by x modulo x^8 + x^4 + x^3 + x + 1. -/
def gfDouble (b : Byte) : Byte := (b <<< 1) ^^^ (if b.msb then 0x1B else 0)

/-- Product in the field, over the lowest `n` bits of the second factor. -/
def gfMulBits : Nat → Byte → Byte → Byte
  | 0, _, _ => 0
  | n + 1, a, b => (if b.getLsbD 0 then a else 0) ^^^ gfMulBits n (gfDouble a) (b >>> 1)

/-- Product in the field. -/
def gfMul (a b : Byte) : Byte := gfMulBits 8 a b

/-- The inverse, as the power 254; 0 has itself. -/
def gfInv (a : Byte) : Byte :=
  let a2 := gfMul a a
  let a4 := gfMul a2 a2
  let a8 := gfMul a4 a4
  let a16 := gfMul a8 a8
  let a32 := gfMul a16 a16
  let a64 := gfMul a32 a32
  gfMul a2 (gfMul a4 (gfMul a8 (gfMul a16 (gfMul a32 (gfMul a64 (gfMul a64 a64))))))

/-- S-box. -/
def aesSub (a : Byte) : Byte :=
  let i := gfInv a
  i ^^^ i.rotateLeft 1 ^^^ i.rotateLeft 2 ^^^ i.rotateLeft 3 ^^^ i.rotateLeft 4 ^^^ 0x63

/-- Word number `i` of the key schedule from the word before it. -/
def aesTemp (i : Nat) (w : List Byte) : List Byte :=
  if i % 8 = 0 then
    match (w.drop 1 ++ w.take 1).map aesSub with
    | b :: bs => (b ^^^ BitVec.ofNat 8 (2 ^ (i / 8 - 1))) :: bs
    | [] => []
  else if i % 8 = 4 then w.map aesSub
  else w

/-- The key schedule, newest word first, after `n` more words. -/
def aesExpand : Nat → List (List Byte) → List (List Byte)
  | 0, ws => ws
  | n + 1, ws => aesExpand n (xorBytes (ws.getD 7 []) (aesTemp ws.length (ws.headD [])) :: ws)

/-- The fifteen round keys of sixteen bytes. -/
def aesKeys (key : BitVec 256) : List (List Byte) :=
  pieces 16 15 (aesExpand 52 (pieces 4 8 (bytesBE 32 key.toNat)).reverse).reverse.flatten

/-- Byte `i` of the state after ShiftRows. -/
def aesShift (s : List Byte) : List Byte := (List.range 16).map (fun i => s.getD ((i + 4 * (i % 4)) % 16) 0)

/-- MixColumns. -/
def aesMix (s : List Byte) : List Byte :=
  (List.range 16).map (fun i =>
    let at_ := fun k => s.getD (i / 4 * 4 + (i + k) % 4) 0
    gfDouble (at_ 0) ^^^ gfDouble (at_ 1) ^^^ at_ 1 ^^^ at_ 2 ^^^ at_ 3)

/-- The rounds after the first key addition; the last one has no MixColumns. -/
def aesRounds : List (List Byte) → List Byte → List Byte
  | [], s => s
  | [k], s => xorBytes (aesShift (s.map aesSub)) k
  | k :: ks, s => aesRounds ks (xorBytes (aesMix (aesShift (s.map aesSub))) k)

/-- AES-256 encryption of a block. -/
def aes256 (key : BitVec 256) (block : BitVec 128) : BitVec 128 :=
  match aesKeys key with
  | k :: ks => BitVec.ofNat 128 (ofBytesLE (aesRounds ks (xorBytes (bytesBE 16 block.toNat) k)).reverse)
  | [] => block

/-! ### KECCAK (FIPS 202) -/

/-- The constants of the 24 rounds. -/
def keccakConsts : List Word :=
  [0x0000000000000001, 0x0000000000008082, 0x800000000000808A, 0x8000000080008000, 0x000000000000808B, 0x0000000080000001,
   0x8000000080008081, 0x8000000000008009, 0x000000000000008A, 0x0000000000000088, 0x0000000080008009, 0x000000008000000A] ++
  [0x000000008000808B, 0x800000000000008B, 0x8000000000008089, 0x8000000000008003, 0x8000000000008002, 0x8000000000000080,
   0x000000000000800A, 0x800000008000000A, 0x8000000080008081, 0x8000000000008080, 0x0000000080000001, 0x8000000080008008]

/-- The rotation of lane x + 5 y. -/
def keccakRots : List Nat := [0, 1, 62, 28, 27, 36, 44, 6, 55, 20, 3, 10, 43, 25, 39, 41, 45, 15, 21, 8, 18, 2, 61, 56, 14]

/-- One round on the 25 lanes. -/
def keccakRound (a : List Word) (rc : Word) : List Word :=
  let c := (List.range 5).map (fun x => (List.range 5).foldl (fun w y => w ^^^ a.getD (x + 5 * y) 0) 0)
  let d := (List.range 5).map (fun x => c.getD ((x + 4) % 5) 0 ^^^ (c.getD ((x + 1) % 5) 0).rotateLeft 1)
  let t := a.mapIdx (fun i w => (w ^^^ d.getD (i % 5) 0).rotateLeft (keccakRots.getD i 0))
  let b := (List.range 25).map (fun i => t.getD ((i % 5 + 3 * (i / 5)) % 5 + 5 * (i % 5)) 0)
  b.mapIdx (fun i w =>
    w ^^^ (~~~(b.getD ((i % 5 + 1) % 5 + 5 * (i / 5)) 0) &&& b.getD ((i % 5 + 2) % 5 + 5 * (i / 5)) 0) ^^^ (if i = 0 then rc else 0))

/-- KECCAK-f[1600]. -/
def keccakF (a : List Word) : List Word := keccakConsts.foldl keccakRound a

/-- Absorb a padded message of `n` blocks of 136 bytes. -/
def absorb : Nat → List Byte → List Word → List Word
  | 0, _, a => a
  | n + 1, m, a =>
    let ls := (pieces 8 17 (m.take 136)).map (fun b => BitVec.ofNat 64 (ofBytesLE b))
    absorb n (m.drop 136) (keccakF (a.mapIdx (fun i w => w ^^^ ls.getD i 0)))

/-- A message with its domain byte and the final bit, in blocks of 136 bytes. -/
def keccakPad (m : List Byte) (domain : Byte) : List Byte :=
  let r := 136 - m.length % 136
  if r = 1 then m ++ [domain ||| 0x80] else m ++ domain :: List.replicate (r - 2) 0 ++ [0x80]

/-- The first `n` bytes, at most 136, of the sponge with capacity 512. -/
def sponge (m : List Byte) (domain : Byte) (n : Nat) : List Byte :=
  let p := keccakPad m domain
  ((absorb (p.length / 136) p (List.replicate 25 0)).flatMap (fun w => bytesLE 8 w.toNat)).take n

/-- The first 256 bits of SHAKE256. -/
def shake256 (m : List Byte) : BitVec 256 := BitVec.ofNat 256 (ofBytesLE (sponge m 0x1F 32))

/-! ### KMAC256 (SP 800-185) -/

/-- left_encode of a number below 2^16. -/
def leftEncode (x : Nat) : List Byte :=
  if x < 256 then [1, BitVec.ofNat 8 x] else [2, BitVec.ofNat 8 (x / 256), BitVec.ofNat 8 x]

/-- right_encode of a number below 2^16. -/
def rightEncode (x : Nat) : List Byte :=
  if x < 256 then [BitVec.ofNat 8 x, 1] else [BitVec.ofNat 8 (x / 256), BitVec.ofNat 8 x, 2]

/-- encode_string. -/
def encodeString (s : List Byte) : List Byte := leftEncode (8 * s.length) ++ s

/-- bytepad to whole blocks of 136 bytes. -/
def bytepad (x : List Byte) : List Byte :=
  let y := leftEncode 136 ++ x
  y ++ List.replicate ((136 - y.length % 136) % 136) 0

/-- KMAC256 of a message under a key, `bits` bits long, with a customisation string. -/
def kmac (key msg custom : List Byte) (bits : Nat) : List Byte :=
  sponge (bytepad (encodeString [0x4B, 0x4D, 0x41, 0x43] ++ encodeString custom) ++ bytepad (encodeString key) ++ msg ++ rightEncode bits) 0x04
    (bits / 8)

/-- The tag function of 06 R133: 128 bits, customisation DQSEAL; the first byte of the tag is its lowest (log entry 6). -/
def kmac256 (key : BitVec 256) (msg : List Byte) : BitVec 128 :=
  BitVec.ofNat 128 (ofBytesLE (kmac (bytesBE 32 key.toNat) msg [0x44, 0x51, 0x53, 0x45, 0x41, 0x4C] 128))

end Sys2Proof.Machine
end

