-- ==== Sys2Proof/Machine/Csr.lean ====
section
/-!
DEFINITION. The control and status registers: their values, what a write of each does, and the instructions and rows that read and write them
(04 R77 to R81; 05 R107 to R110; 08 R181, R182; 09 R208 to R210; 13 R295; 18 R316 to R325, R329).
-/
namespace Sys2Proof.Machine

open Sys2Proof

/-! ### Values -/

/-- ρ of a set of channels with its retired channel: 1 while none is retired (05 R101, Table 5-10). -/
def rhoOf (ret : BitVec 4) : Nat := if ret = 0xF then 1 else 0

/-- RNSCFG (05 Table 5-9): PROT and PROTB follow the mode and the retired channels. -/
def rnscfgOf (t : Tile) : Word :=
  let a := rhoOf t.reta
  let b := rhoOf t.retb
  BitVec.ofNat 64
    (t.retb.toNat * 2 ^ 20 + t.reta.toNat * 2 ^ 16 +
      (if t.rnsMode = 0 then (a + b) * 2 ^ 6 else b * 2 ^ 8 + a * 2 ^ 6) + t.rnsMode.toNat)

/-- SLOTID (02 Table 2-3). -/
def slotIdOf (t : Slot) (k : Nat) : Word :=
  BitVec.ofNat 64
    ((if t.isChart then 0 else t.hnd.toNat) * 2 ^ 8 + (if t.isChart then 32 else 0) + (if t.isTask then 16 else 0) + k)

/-- PMAP (18 Table 18-8). -/
def pmapOf (t : Slot) : Word := bitSet (BitVec.ofNat 64 (t.vP.toNat * 2 ^ 32 + t.sP.toNat)) 0 false

/-- The poison bits of a0 to a3 as a number. -/
def accPoison (t : Tile) : Nat := ((List.range 4).map (fun i => if (vget Acc.reset t.acc i).poison then 2 ^ i else 0)).foldl (· + ·) 0

/-- PMAPX (18 Table 18-9); AP reads zero outside slot 0 of an installed chart. -/
def pmapxOf (s : State) : Word :=
  let t := me s
  let x := BitVec.ofNat 64
    (t.gP.toNat * 2 ^ 24 + (if chartSlot s then accPoison (myTile s) * 2 ^ 16 else 0) + t.mP.toNat * 2 ^ 8 + t.pP.toNat)
  bitSet (bitSet x 8 false) 0 false

/-- The tile that RNSCTL of a slot names. -/
def rnsTarget (x y : BitVec 7) : Nat := mkPos x.toNat y.toNat

/-- RNSCTL as read: the stored X and Y with the retired channels of that tile (18 R323). -/
def rnsctlOf (s : State) : Word :=
  let t := me s
  let u := tileAt s (rnsTarget t.rnsX t.rnsY)
  BitVec.ofNat 64 (u.retb.toNat * 2 ^ 28 + u.reta.toNat * 2 ^ 24 + t.rnsY.toNat * 2 ^ 16 + t.rnsX.toNat)

/-- A budget-table entry before any write: LIMIT 0xFFFF_FFFF (18 Table 18-16). -/
def BudgetEnt.reset : BudgetEnt := { limit := 0xFFFFFFFF, left := 0xFFFFFFFF }

/-- The key of a budget-table entry. -/
def budgetKey (act cls : Nat) : Nat := act * 16 + cls

/-- BUDGET as read (18 R324). -/
def budgetOf (x : Part) : Word :=
  BitVec.ofNat 64
    (x.bact.toNat * 2 ^ 60 + x.bcls.toNat * 2 ^ 56 +
      (tblGet BudgetEnt.reset x.budget (budgetKey x.bact.toNat x.bcls.toNat)).limit.toNat)

/-- The value of a CSR as the current slot reads it (08 Table 8-10; 18 Table 18-1). -/
def csrRead (s : State) (n : Nat) : Word :=
  let t := me s
  match n with
  | 0x000 => t.nfc
  | 0x001 => t.flags
  | 0x002 => t.seed
  | 0x003 => rnscfgOf (myTile s)
  | 0x004 => t.wid
  | 0x005 => t.widf
  | 0x006 => tileId s.pkg s.cur.pos
  | 0x007 => slotIdOf t s.cur.slot
  | 0x008 => s.cycle
  | 0x009 => t.unchk
  | 0x010 => t.utvec
  | 0x011 => t.uepc
  | 0x012 => t.ucause
  | 0x013 => t.utval
  | 0x800 => t.sstatus
  | 0x801 => t.scause
  | 0x802 => t.sepc
  | 0x803 => t.stval
  | 0x804 => t.stvec
  | 0x805 => t.sscratch
  | 0x806 => pmapOf t
  | 0x807 => t.asid
  | 0x808 => t.ptbase
  | 0x809 => (myPart s).deleg
  | 0x80A => rnsctlOf s
  | 0x80B => (myPart s).qtime.setWidth 64
  | 0x80C => (myPart s).drainlim.setWidth 64
  | 0x80D => budgetOf (myPart s)
  | 0x80E => if s.testMode then (myTile s).faultinj else 0
  | 0x80F => pmapxOf s
  | _ => 0

/-! ### Draining (04 R78, R81; 05 R108; 09 R210; 18 R320, R321) -/

/-- An asynchronous operation of the residue matrix instructions: each of 11 Table 11-9, OBCP among them (11 R256, R259). -/
def OpKind.isResidue : OpKind → Bool
  | .rmma .. => true
  | .rlda .. => true
  | .radds .. => true
  | .rsta .. => true
  | .obcp .. => true
  | _ => false

/-- An asynchronous operation names accumulator `a`, or any. -/
def residueBusy (t : Tile) (p : AsyncOp → Bool) : Bool := t.ops.any (fun o => o.kind.isResidue && p o)

/-- No pass remains in the repeat buffer, suspended passes aside, and no residue operation of the slot is in flight (04 R78). -/
def drained (s : State) : Bool := !(me s).rep.issuing && !residueBusy (myTile s) (fun o => o.slot == s.cur.slot)

/-- No register of the slot is pending. -/
def nonePending (t : Slot) : Bool :=
  t.sPend == 0 && t.vPend == 0 && t.pPend == 0 && t.mPend == 0 && t.gPend == 0

/-- An effective address lies in global memory (06 R114). -/
def isGlobal (va : Word) : Bool := decide (va.toNat % 2 ^ 56 < Config.localBase)

/-- An access to `n` stays STALLED: it drains, or waits for accesses to be translated. -/
def csrWaits (s : State) (n : Nat) (write : Bool) : Bool :=
  match n with
  | 0x000 => write && !drained s
  | 0x001 => !drained s
  | 0x002 => !drained s
  | 0x003 => write && !drained s
  | 0x009 => !drained s
  | 0x806 => !(drained s && nonePending (me s))
  | 0x80F => !(drained s && nonePending (me s))
  | 0x807 => write && (me s).outs.any (fun a => isGlobal a.va)
  | 0x808 => write && (me s).outs.any (fun a => isGlobal a.va)
  | _ => false

/-! ### Writes -/

/-- Replace the bits a mask makes writable (00 Table 0-4). -/
def under (mask old new : Word) : Word := (old &&& ~~~mask) ||| (new &&& mask)

/-- Every accumulator zero, bound 0 and unpoisoned, after a change of MODE (05 R109). -/
def clearAccs (t : Tile) : Tile := { t with acc := Vector.replicate 4 Acc.reset }

/-- RNSCFG: a write that changes MODE clears the accumulators (05 R109). -/
def rnscfgStore (s : State) (v : Word) : State :=
  let t := myTile s
  let mode : BitVec 1 := v.setWidth 1
  if mode = t.rnsMode then s else setMyTile s (clearAccs { t with rnsMode := mode })

/-- EV clear in every slot of a partition's tiles. -/
def clearEv (s : State) (p : Nat) : State :=
  { s with tiles := s.tiles.map (fun e =>
      if partOf s e.1 = some p then (e.1, { e.2 with slots := e.2.slots.map (fun x => { x with sstatus := bitSet x.sstatus 4 false }) })
      else e) }

/-- SSTATUS: V keeps its value, and EV = 1 is taken from the slot that held it (18 R317). -/
def sstatusStore (s : State) (v : Word) : State :=
  let s1 := if v.getLsbD 4 then (match partOf s s.cur.pos with | some p => clearEv s p | none => s) else s
  setMe s1 { me s1 with sstatus := under 0x1E (me s1).sstatus v }

/-- PMAP: poison bits of s1 to s31 and v0 to v31 (18 R320). -/
def pmapStore (s : State) (v : Word) : State :=
  setMe s { me s with sP := bitSet (v.setWidth 32) 0 false, vP := (v >>> (32 : Nat)).setWidth 32 }

/-- PMAPX: poison bits of p, m, g, and of a in slot 0 of an installed chart (18 R320). -/
def pmapxStore (s : State) (v : Word) : State :=
  let s1 := setMe s
    { me s with
      pP := bitSet (v.setWidth 8) 0 false
      mP := bitSet ((v >>> (8 : Nat)).setWidth 8) 0 false
      gP := (v >>> (24 : Nat)).setWidth 8 }
  if chartSlot s then
    let t := myTile s1
    setMyTile s1 { t with acc := Vector.ofFn (fun i => { vget Acc.reset t.acc i.val with poison := v.getLsbD (16 + i.val) }) }
  else s1

/-- A field of RNSCTL retires a channel: nothing is retired in the set yet and the field names one (18 R323). -/
def retire (field held : BitVec 4) : BitVec 4 := if held = 0xF then field else held

/-! ### Records of a die log (21 R381, R384, Tables 21-1, 21-2) -/

/-- WHERE: the position, and a slot where one is named. -/
def placeOf (s : State) (pos : Nat) (slot : Option Nat) : Word :=
  let p : Word := (tileId s.pkg pos) &&& 0xFFFFFFFFFFFF
  match slot with
  | some k => p ||| BitVec.ofNat 64 (2 ^ 63 + k * 2 ^ 56)
  | none => p

/-- A record of one occurrence now. -/
def recordNow (s : State) (kind : Nat) (place addr lo : Word) : ErrRec :=
  { kind := kind, fl := 0, count := 1, cycle := s.cycle, place := place, addr := addr, lo := lo, hi := 0 }

/-- Records a die log holds (21 R384). -/
def logSize : Nat := 256

/-- Add a record to a die log: FATAL records may use the last 8 entries; a dropped record raises LOST (21 R384). -/
def logRec (s : State) (d : Nat) (r : ErrRec) : State :=
  let x := dieAt s d
  if x.log.length < (if r.kind = 0x0C then logSize else logSize - 8) then setDie s d { x with log := x.log ++ [r] }
  else setDie s d { x with logLost := min 65535 (x.logLost + 1) }

/-- A tile's retired channels after a retirement: where one has taken effect, a RETIRE record of the tile enters its die's log (21 R385). -/
def retireAt (s : State) (pos : Nat) (ra rb : BitVec 4) : State :=
  let u := tileAt s pos
  let a := retire ra u.reta
  let b := retire rb u.retb
  let s1 := setTile s pos { u with reta := a, retb := b }
  if a = u.reta ∧ b = u.retb then s1
  else logRec s1 (dieOf pos) (recordNow s1 0x0B (placeOf s1 pos none) 0 (BitVec.ofNat 64 (a.toNat + 2 ^ 4 * b.toNat)))

/-- RNSCTL: causes, then the retirement at the target between residue operations, which it waits for (18 R323; 05 R110). -/
def rnsctlStore (s : State) (v : Word) : Effect :=
  let ra := bitsOf v 27 24
  let rb := bitsOf v 31 28
  let x : BitVec 7 := v.setWidth 7
  let y : BitVec 7 := (v >>> (16 : Nat)).setWidth 7
  let target := rnsTarget x y
  demand ([0, 1, 2, 3, 8, 15].contains ra && [4, 5, 6, 7, 9, 15].contains rb) 6 cRSVD v <|
  demand (isTilePos target && (partOf s s.cur.pos).isSome && partOf s target == partOf s s.cur.pos) 9 cACCESS v <|
    if residueBusy (tileAt s target) (fun _ => true) then .wait s
    else
      let s1 := retireAt s target (BitVec.ofNat 4 ra) (BitVec.ofNat 4 rb)
      .done (setMe s1 { me s1 with rnsX := x, rnsY := y })

/-- Update the controls of the partition of the current slot. -/
def updPart (s : State) (f : Part → Part) : State :=
  match partOf s s.cur.pos with
  | some p => setPart s p (f (partAt s p))
  | none => s

/-- BUDGET: selects an entry and, with NW = 0, sets its LIMIT (18 R324). -/
def budgetStore (s : State) (v : Word) : Effect :=
  let act := bitsOf v 63 60
  let cls := bitsOf v 59 56
  demand (decide (act ≤ 4)) 6 cRSVD v <|
    .done (updPart s (fun x =>
      let e := tblGet BudgetEnt.reset x.budget (budgetKey act cls)
      { x with
        bact := BitVec.ofNat 4 act
        bcls := BitVec.ofNat 4 cls
        budget := if v.getLsbD 55 then x.budget else tblSet x.budget (budgetKey act cls) { e with limit := v.setWidth 32 } }))

/-- FAULTINJ outside test mode ignores writes; KIND 5 fires at once (18 R325). -/
def faultinjStore (s : State) (v : Word) : Effect :=
  if !s.testMode then .done s
  else
    demand (decide (bitsOf v 62 60 ≠ 7)) 6 cRSVD v <|
      let t := myTile s
      let w := under 0xFF000000FFFFFFFF 0 v
      if v.getLsbD 63 && bitsOf v 62 60 == 5 then
        let u := bitsOf v 31 0 / 64
        .done (setMyTile s
          { t with
            faultinj := bitSet w 63 false
            scratchP := if 64 * u < Config.scratchSize then memSet t.scratchP u 1 else t.scratchP })
      else .done (setMyTile s { t with faultinj := w })

/-- Writing a value to a CSR under the access codes of its register map (09 R209; 00 Table 0-4). -/
def csrStore (s : State) (n : Nat) (v : Word) : Effect :=
  let t := me s
  match n with
  | 0x000 =>
    demand (decide (bitsOf v 2 0 ≤ 4)) 6 cRSVD v <| .done (setMe s { t with nfc := under 0xFFB7 t.nfc v })
  | 0x001 => .done (setMe s { t with flags := under 0x3F t.flags v })
  | 0x002 => .done (setMe s { t with seed := v })
  | 0x003 => .done (rnscfgStore s v)
  | 0x009 => .done (setMe s { t with unchk := v })
  | 0x010 => .done (setMe s { t with utvec := under 0x3FFF t.utvec v })
  | 0x011 => .done (setMe s { t with uepc := under 0x1FFF t.uepc v })
  | 0x012 => .done (setMe s { t with ucause := under 0x7FFFF t.ucause v })
  | 0x013 => .done (setMe s { t with utval := v })
  | 0x800 => .done (sstatusStore s v)
  | 0x801 => .done (setMe s { t with scause := under 0x800000000007FFFF t.scause v })
  | 0x802 => .done (setMe s { t with sepc := under 0x1FFF t.sepc v })
  | 0x803 => .done (setMe s { t with stval := v })
  | 0x804 => .done (setMe s { t with stvec := under 0x1FFF t.stvec v })
  | 0x805 => .done (setMe s { t with sscratch := v })
  | 0x806 => .done (pmapStore s v)
  | 0x807 => .done (setMe s { t with asid := under 0x1FF t.asid v })
  | 0x808 => .done (setMe s { t with ptbase := under 0xFFFFFFFFFE000 t.ptbase v })
  | 0x809 => .done (updPart s (fun x => { x with deleg := under 0xAA6440 x.deleg v }))
  | 0x80A => rnsctlStore s v
  | 0x80B => .done (updPart s (fun x => { x with qtime := BitVec.ofNat 32 (max 1024 (bitsOf v 31 0)) }))
  | 0x80C => .done (updPart s (fun x => { x with drainlim := v.setWidth 32 }))
  | 0x80D => budgetStore s v
  | 0x80E => faultinjStore s v
  | 0x80F => .done (pmapxStore s v)
  | _ => .done s

/-! ### Instructions (09 R209; 18 R329) -/

/-- CSRRW, CSRRC and CSRRS: `new` gives the value written from the old one and a. A value that raises a cause raises it before the access waits (09 Table 9-12). -/
def csrOp (i : Instr) (d a : BitVec 5) (c : BitVec 11) (new : Word → Word → Word) (s : State) : Out :=
  runCore i s (fun o s =>
    let n := csrIndex c
    let old := csrRead s n
    if a = 0 then (if csrWaits s n false then .wait s else .done (setS s d old false))
    else
      needClean o 0 <|
        match csrStore s n (new old (o.word 0)) with
        | .trap c => .trap c
        | .done s' => if csrWaits s n true then .wait s else .done (setS s' d old false)
        | e => if csrWaits s n true then .wait s else e)

/-- CSRRW: swap (09 R209). -/
def execCsrrw (g : BitVec 3) (d a : BitVec 5) (c : BitVec 11) (s : State) : Out :=
  csrOp (.csrrw g d a c) d a c (fun _ x => x) s

/-- CSRRC: read, then clear the bits set in a (09 R209). -/
def execCsrrc (g : BitVec 3) (d a : BitVec 5) (c : BitVec 11) (s : State) : Out :=
  csrOp (.csrrc g d a c) d a c (fun old x => old &&& ~~~x) s

/-- CSRRS: read, then set the bits set in a (18 R329). -/
def execCsrrs (g : BitVec 3) (d a : BitVec 5) (c : BitVec 11) (s : State) : Out :=
  csrOp (.csrrs g d a c) d a c (fun old x => old ||| x) s

/-! ### The rows of single CSRs -/

/-- A write of a CSR by the current slot as a row of its own: it waits, raises a cause, or takes effect; the program counter belongs to the
instruction. -/
def csrRow (n : Nat) (v : Word) (s : State) : Out :=
  .next <|
    match csrStore s n v with
    | .trap c => raise s c
    | e =>
      if csrWaits s n true then stalled s
      else
        match e with
        | .done s' => s'
        | .goto s' _ => s'
        | .keep s' => s'
        | .wait s' => stalled s'
        | .trap c => raise s c
        | .trapWith s' c => raise s' c

/-- A read of a CSR as a row of its own: it waits while its CSR drains and changes nothing. -/
def csrReadRow (n : Nat) (s : State) : Out := .next (if csrWaits s n false then stalled s else s)

/-- NFC_WRITE (04 R78). -/
def execNfcWrite (s : State) : Out := withValue s fun x => csrRow 0x000 x s

/-- FLAGS_ACCESS (04 R81). -/
def execFlagsAccess (s : State) : Out := withAccess s fun wr x => if wr then csrRow 0x001 x s else csrReadRow 0x001 s

/-- SEED_ACCESS (04 R81). -/
def execSeedAccess (s : State) : Out := withAccess s fun wr x => if wr then csrRow 0x002 x s else csrReadRow 0x002 s

/-- UNCHK_ACCESS (08 R182; 09 R210). -/
def execUnchkAccess (s : State) : Out := withAccess s fun wr x => if wr then csrRow 0x009 x s else csrReadRow 0x009 s

/-- RNSCFG_WRITE (05 R108, R109): PORT_ILLEGAL outside slot 0 of an installed chart. -/
def execRnscfgWrite (s : State) : Out := withValue s fun x => if chartSlot s then csrRow 0x003 x s else .next (raise s { row := 4, cause := cPORT, tval := curWord s })

/-- The view check of a supervisor CSR (08 R181). -/
def supervised (n : Nat) (v : Word) (s : State) : Out :=
  match csrCause s n with
  | some c => .next (raise s c)
  | none => csrRow n v s

/-- RNSCTL_WRITE (18 R323). -/
def execRnsctlWrite (s : State) : Out := withValue s fun x => supervised 0x80A x s

/-- SSTATUS_WRITE (18 R317). -/
def execSstatusWrite (s : State) : Out := withValue s fun x => supervised 0x800 x s

/-- PMAP_WRITE (18 R320). -/
def execPmapWrite (s : State) : Out := withValue s fun x => supervised 0x806 x s

/-- PMAPX_WRITE (18 R320). -/
def execPmapxWrite (s : State) : Out := withValue s fun x => supervised 0x80F x s

/-- ASID_WRITE (18 R321). -/
def execAsidWrite (s : State) : Out := withValue s fun x => supervised 0x807 x s

/-- PTBASE_WRITE (18 R321). -/
def execPtbaseWrite (s : State) : Out := withValue s fun x => supervised 0x808 x s

/-- QTIME_WRITE (18 R324). -/
def execQtimeWrite (s : State) : Out := withValue s fun x => supervised 0x80B x s

/-- BUDGET_SELECT: a BUDGET write with NW = 1 (18 R324). -/
def execBudgetSelect (s : State) : Out := withValue s fun x => supervised 0x80D (bitSet x 55 true) s

/-- BUDGET_SET: a BUDGET write with NW = 0 (18 R324). -/
def execBudgetSet (s : State) : Out := withValue s fun x => supervised 0x80D (bitSet x 55 false) s

/-- FAULTINJ_ARM (18 R325). -/
def execFaultinjArm (s : State) : Out := withValue s fun x => supervised 0x80E x s

/-- CSR_WRITE: any CSR by its index (09 R209); RNSCFG keeps its slot check. -/
def execCsrWrite (s : State) : Out :=
  match s.arg with
  | .csr idx x =>
    if idx = 3 ∧ chartSlot s = false then .next (raise s { row := 4, cause := cPORT, tval := curWord s })
    else supervised idx.toNat x s
  | _ => .next s

end Sys2Proof.Machine
end

