-- ==== Sys2Proof/Machine/Records.lean ====
section
/-!
DEFINITION. Physical addresses and their homes, and the error records that detection leaves (06 R115, R119; 20 R360; 21 R380 to R387).
-/
namespace Sys2Proof.Machine

open Sys2Proof

/-! ### Physical addresses (06 Table 6-1, R119) -/

/-- The line key of a physical address: its bits above [6:0]. -/
def lineOf (pa : Nat) : Nat := pa / 128

/-- The block key of a physical address: its bits above [10:0]. -/
def blockOf (pa : Nat) : Nat := pa / 2048

/-- The block of a line. -/
def blockOfLine (l : Nat) : Nat := l / 16

/-- PKG of a line. -/
def pkgOfLine (l : Nat) : Nat := l / 2 ^ 37 % 256

/-- The home die of a line. -/
def dieOfLine (l : Nat) : Nat := l / 2 ^ 29 % 8

/-- The home die of a block. -/
def dieOfBlock (b : Nat) : Nat := b / 2 ^ 25 % 8

/-- The byte offset of a line in its die. -/
def lineOff (l : Nat) : Nat := l % 2 ^ 29 * 128

/-- The line is homed on this package. -/
def homedHere (s : State) (l : Nat) : Bool := pkgOfLine l == s.pkg.toNat

/-- The quay index of a line's home quay (06 R119). -/
def homeQuayIndex (l : Nat) : Nat :=
  let a := l % 2 ^ 29
  ((a % 2 ^ 11) ^^^ (a / 2 ^ 11 % 2 ^ 11) ^^^ (a / 2 ^ 22 % 2 ^ 7)) * 160 / 2048

/-- The position of quay index `q` of a die (01 R13). -/
def quayPos (die q : Nat) : Nat := mkPos (32 * (die % 4) + q % 32) (37 * (die / 4) + 9 * (q / 32))

/-- The position of a line's home quay. -/
def homePos (l : Nat) : Nat := quayPos (dieOfLine l) (homeQuayIndex l)

/-- The translation quay of a tile (20 R360). -/
def transQuay (pos : Nat) : Nat := pos - 128 * (dieRow pos % 9)

/-- The address is populated, as far as this package's own memory goes (06 R115). -/
def populatedOff (pa : Nat) : Bool := pa / 2 ^ 39 % 32 == 0 && decide (pa % 2 ^ 36 < 0xC00000000)

/-- The partition's link routing has an entry for a package (22 R411). -/
def routed (x : Part) (pkg : Nat) : Bool := (tblGet? x.routes pkg).isSome

/-- A physical address that an access of a partition may use (06 R115). -/
def populated (s : State) (part : Option Nat) (pa : Nat) : Bool :=
  populatedOff pa && decide (pa < 2 ^ 52) &&
    (pa / 2 ^ 44 % 256 == s.pkg.toNat ||
      (match part with
       | some p => routed (partAt s p) (pa / 2 ^ 44 % 256)
       | none => false))

/-! ### Records (21 Tables 21-1, 21-2) -/

/-- COUNT of a merged record (21 Table 21-1). -/
def bump (r : ErrRec) : ErrRec := { r with count := min 65535 (r.count + 1) }

/-- Add to the first record that `same` holds of, if the log has one. -/
def bumpFirst (same : ErrRec → Bool) : List ErrRec → Option (List ErrRec)
  | [] => none
  | r :: rs => if same r then some (bump r :: rs) else (bumpFirst same rs).map (r :: ·)

/-- Add to the last record that `same` holds of, if the log has one. -/
def bumpLast (same : ErrRec → Bool) (l : List ErrRec) : Option (List ErrRec) := (bumpFirst same l.reverse).map List.reverse

/-- Add a record that merges (21 R381). -/
def mergeRec (s : State) (d : Nat) (same : ErrRec → Bool) (r : ErrRec) : State :=
  let x := dieAt s d
  match bumpFirst same x.log with
  | some l => setDie s d { x with log := l }
  | none => logRec s d r

/-- A record sets out for a partition's error queue (21 R383). -/
def partRec (s : State) (p : Nat) (r : ErrRec) : State := { s with recs := s.recs ++ [(p, r)] }

/-- The partitions that use a key slot: its owner and those it is granted to (21 R381). -/
def keyUsers (s : State) (k : Nat) : List Nat :=
  let x := tblGet KeySlot.reset s.keys k
  x.owner.toList ++ x.users

/-- The position that WHERE names. -/
def placePos (x : Word) : Nat := mkPos (bitsOf x 15 0) (bitsOf x 23 16)

/-- A record as one partition receives it: it names no position of another partition (21 R380; log entry 94). -/
def recFor (s : State) (p : Nat) (r : ErrRec) : ErrRec := if partOf s (placePos r.place) = some p then r else { r with place := 0 }

/-- A record for the partitions of a key slot and the die log. -/
def keyRec (s : State) (d k : Nat) (r : ErrRec) : State :=
  logRec ((keyUsers s k).foldl (fun s p => partRec s p (recFor s p r)) s) d r

/-- SYNDROME_QUEUE_MOVE: the oldest entry of a tile's syndrome queue goes to the partition that the slot had when the event came about and to the die log (21 R380, Table 21-2). CORR is set where the data was corrected: a correction, and a repetition that agreed (21 R386; log entry 20). -/
def execSyndromeQueueMove (s : State) : Out := with1 s fun pos =>
  let t := tileAt s pos
  match t.synq with
  | [] => .next s
  | e :: es =>
    let s1 := setTile s pos { t with synq := es }
    let r : ErrRec :=
      { kind := e.kind, fl := if e.kind = 1 ∨ (e.kind = 2 ∧ e.lo.getLsbD 33 = false) then 1 else 0, count := 1, cycle := e.cycle
        place := placeOf s pos (some e.slot), addr := e.addr, lo := e.lo, hi := 0 }
    let s2 := logRec s1 (dieOf pos) r
    .next (match e.part with | some p => partRec s2 p (recFor s p r) | none => s2)

end Sys2Proof.Machine
end

