-- ==== Sys2Proof/Machine/Requests.lean ====
section
/-!
DEFINITION. Requests to home quays: for whom they are made, what they are charged, the hawsers and pier paths they take, and the comparator that holds them in
order of arrival (01 R21; 03 R72 to R74; 06 R126; 07 R151, R153; 19 R349, R350; 22 R411).
-/
namespace Sys2Proof.Machine

open Sys2Proof

/-! ### Agents -/

/-- For whom an access is made: the tile or quay it starts from, the slot that reads (none for an engine, a generator or the hardware), the translation
quay, its address space and view, its partition and budget class, its name, and its order class (03 R72; 19 R349; 20 R360). -/
structure Who where
  pos : Nat
  slot : Option Nat
  quay : Nat
  asid : BitVec 9
  root : Word
  sup : Bool
  part : Option Nat
  cls : Nat
  ag : Agent := .hw
  oc : Nat := 0
  key : Option Nat := none
  deriving DecidableEq, Repr

/-- The die an agent is on. -/
def Who.die (w : Who) : Nat := dieOf w.pos

/-- Raise a cause to the supervisor of the agent's partition. -/
def raiseFor (s : State) (w : Who) (cause : Nat) (tval : Word) : State :=
  match w.part with
  | some p => raiseEvent s p cause tval
  | none => s

/-- The berth of a tile stops it for an eviction. -/
def tileEvicted (s : State) (pos : Nat) : Bool := s.berths.any (fun b => b.evict && (tileAt s pos).berth == some b.id)

/-- An access that keeps a slot STALLED, or its BARW SUSPENDED, has been asked for and is not withheld. -/
def inlineLive (s : State) (pos k : Nat) : Bool :=
  let t := slotAt s pos k
  t.busy.any (·.asking) && !withheld t.blocked && !tileEvicted s pos

/-- The transaction of a line, where one runs. -/
def transAt (s : State) (l : Nat) : Option Trans := tblGet? (dieAt s (dieOfLine l)).trans l

/-- An agent still makes the access it has asked for: it has not ended, and the access is not withheld; an invalidation has still to be answered, an answer to
arrive, a buffer to be written back. Hardware, schedulers and the host keep no place of their own: they ask anew in every cycle. -/
def Agent.live (s : State) : Agent → Bool
  | .access pos k id => (slotAt s pos k).outs.any (fun a => a.id == id && a.stage == .issued) && !tileEvicted s pos
  | .inline pos k => inlineLive s pos k
  | .op pos id => (tileAt s pos).ops.any (fun o => o.id == id && !withheld o.held) && !tileEvicted s pos
  | .gen pos i =>
    let g := vget Gen.reset (quayAt s pos).gens i
    !g.ended && !withheld g.held && !s.berths.any (fun b => b.evict || b.saveT.isSome)
  | .berth id => s.berths.any (fun b => b.id == id && !withheld b.held && !b.evict && b.saveT.isNone)
  | .domain id => s.domains.any (fun d => d.id == id && !withheld d.held)
  | .sched _ => false
  | .host _ => false
  | .hw => false
  | .inval l t => (transAt s l).any (fun x => x.awaiting.contains t)
  | .answer l t => (transAt s l).any (fun x => x.flying.contains t)
  | .wback d l => (tblGet? (dieAt s d).wbuf l).isSome

/-- The agent's messages stand in hawsers. -/
def Agent.queues : Agent → Bool
  | .sched _ => false
  | .host _ => false
  | .hw => false
  | _ => true

/-! ### Budgets (19 R349, R350) -/

/-- Charge units to an entry of a partition's budget table; none where the budget is exhausted. -/
def charge (s : State) (part : Option Nat) (act cls n : Nat) : Option State :=
  match part with
  | none => some s
  | some p =>
    let x := partAt s p
    let k := budgetKey act cls
    let e := tblGet BudgetEnt.reset x.budget k
    if n = 0 ∨ e.limit = 0xFFFFFFFF then some s
    else if n ≤ e.left then some (setPart s p { x with budget := tblSet x.budget k { e with left := e.left - n } })
    else none

/-- Of `n` units of an activity, those that the budget reaches. -/
def affordable (s : State) (part : Option Nat) (act cls n : Nat) : Nat :=
  match part with
  | none => n
  | some p =>
    let e := tblGet BudgetEnt.reset (partAt s p).budget (budgetKey act cls)
    if e.limit = 0xFFFFFFFF then n else min n e.left

/-- Charge activities unit by unit, as far as the budgets reach: pairs of ACT and units. The state, and what is left to be charged. -/
def chargeSome (s : State) (part : Option Nat) (cls : Nat) : List (Nat × Nat) → State × List (Nat × Nat)
  | [] => (s, [])
  | (act, n) :: us =>
    let m := affordable s part act cls n
    let s1 := (charge s part act cls m).getD s
    if m < n then (s1, (act, n - m) :: us) else chargeSome s1 part cls us

/-- What a message of an agent has still to be charged. -/
def owedUnits (s : State) (ag : Agent) (msg : Nat) (units : List (Nat × Nat)) : List (Nat × Nat) :=
  match s.bills.find? (fun b => b.agent == ag && b.msg == msg && b.want == units) with
  | some b => b.left
  | none => units

/-- A message of an agent is charged: at once, or a part in each period until nothing is left; only then it sets out. The answer tells whether it may (19 R350). -/
def pay (s : State) (part : Option Nat) (cls : Nat) (ag : Agent) (msg : Nat) (units : List (Nat × Nat)) : State × Bool :=
  let r := chargeSome s part cls (owedUnits s ag msg units)
  let others := r.1.bills.filter (fun b => !(b.agent == ag && b.msg == msg))
  if r.2 = [] then ({ r.1 with bills := others }, true)
  else ({ r.1 with bills := others ++ [{ agent := ag, msg := msg, want := units, left := r.2 }] }, false)

/-- Every budget of every partition is refilled to its LIMIT (19 R349). -/
def refill (s : State) : State :=
  { s with parts := s.parts.map (fun e =>
      (e.1, { e.2 with budget := e.2.budget.map (fun b => (b.1, { b.2 with left := b.2.limit.toNat })) })) }

/-- BUDGET_PERIOD. -/
def execBudgetPeriod (s : State) : Out := .next (refill s)

/-! ### Piers (01 R21; 22 R411) -/

/-- The quay of a port's pier (01 Table 1-6). -/
def portQuay (j : Nat) : Nat :=
  [mkPos 8 0, mkPos 24 0, mkPos 0 18, mkPos 103 0, mkPos 119 0, mkPos 127 18, mkPos 8 73, mkPos 24 73, mkPos 0 55, mkPos 103 73, mkPos 119 73,
    mkPos 127 55].getD j 0

/-- The die of a port's pier. -/
def portDie (j : Nat) : Nat := dieOf (portQuay j)

/-- A port. -/
def portAt (s : State) (j : Nat) : Port := vget Port.reset s.ports j

/-- The port is UP. -/
def portUp (s : State) (j : Nat) : Bool := (portAt s j).st == .up

/-- A port that is UP reaches a package. -/
def linkUp (s : State) (pkg : Nat) : Bool := s.ports.toList.any (fun p => p.st == .up && p.peerPkg.toNat == pkg)

/-- A message is on its way to a package with a class modulo 4: it has not been performed. -/
def HawEnt.headsTo (s : State) (pkg h : Nat) : HawEnt → Bool
  | .beat _ b c ag _ _ => b == 256 + pkg && c == h && ag.live s
  | .marker .. => false

/-- The first port from an index of a route on, in the order of h, that is UP. -/
def nextPort (s : State) (named : List (Option Nat)) (i : Nat) : Option Nat :=
  ([0, 1, 2, 3].map (fun k => named.getD ((i + k) % 4) none)).findSome? (fun j => j.filter (portUp s))

/-- The port that beats of a class take to a package: the one that they take already, while it is UP and the route names it; or else, once every message sent on
the old path has been performed, the next that the route names and that is UP, from the one named for the class on. None while no named port is UP or a message is
still on the old path (22 R411). -/
def pierOf (s : State) (part : Option Nat) (pkg oc : Nat) : Option Nat :=
  match part with
  | none => none
  | some p =>
    let x := partAt s p
    let h := oc % 4
    let named := (tblGet? x.routes pkg).getD []
    let fresh := fun (i : Nat) => if s.hawsers.any (·.headsTo s pkg h) then none else nextPort s named i
    match tblGet? x.via (4 * pkg + h) with
    | some j => if portUp s j && named.contains (some j) then some j else fresh ((named.idxOf (some j) + 1) % 4)
    | none => fresh h

/-- Beats of a class to a package take a port from now on. -/
def takePort (s : State) (part : Option Nat) (pkg oc : Nat) : State :=
  match part, pierOf s part pkg oc with
  | some p, some j =>
    let x := partAt s p
    if tblGet? x.via (4 * pkg + oc % 4) = some j then s else setPart s p { x with via := tblSet x.via (4 * pkg + oc % 4) j }
  | _, _ => s

/-! ### Hawsers and pier paths (03 R72 to R74) -/

/-- Where a beat from a die to a line's home passes: the home die, or the pier's die and the path to the package; none while no pier is UP. -/
def pathTo (s : State) (part : Option Nat) (oc e l : Nat) : Option (List Nat) :=
  if homedHere s l then some (if dieOfLine l = e then [] else [dieOfLine l])
  else (pierOf s part (pkgOfLine l) oc).map (fun j => (if portDie j = e then [] else [portDie j]) ++ [256 + pkgOfLine l])

/-- What `n` beats over a path are charged: ACT 0 for a hawser, ACT 3 for a pier (19 Table 19-2). -/
def beatUnits (path : List Nat) (n : Nat) : List (Nat × Nat) := path.map (fun d => (if d < 256 then 0 else 3, n))

/-- What lies on a hawser holds what is behind it: a marker that has not joined (03 R73), or beats that have not left it (03 R72). -/
def HawEnt.holds (s : State) (src dst h : Nat) : HawEnt → Bool
  | .marker a b c _ _ joined => a == src && b == dst && c == h && !joined
  | .beat a b c ag _ out => a == src && b == dst && c == h && !out && ag.live s

/-- Beats of a message of an agent. -/
def HawEnt.isBeatOf (ag : Agent) (msg : Nat) : HawEnt → Bool
  | .beat _ _ _ a n _ => a == ag && n == msg
  | .marker .. => false

/-- The beats of a message on one hawser. -/
def HawEnt.isBeat (src dst h : Nat) (ag : Agent) (msg : Nat) : HawEnt → Bool
  | .beat a b c x n _ => a == src && b == dst && c == h && x == ag && n == msg
  | .marker .. => false

/-- The beats of a message are held on a hawser: something that holds them lies ahead, and where they do not stand in it, anywhere in it. -/
def beatHeld (s : State) (src dst h : Nat) (ag : Agent) (msg : Nat) : Bool :=
  (s.hawsers.takeWhile (fun x => !x.isBeat src dst h ag msg)).any (·.holds s src dst h)

/-- What enters a hawser now leaves it at once. -/
def clearWay (s : State) (src dst h : Nat) : Bool := !s.hawsers.any (·.holds s src dst h)

/-- An answer that comes back over a path crosses at once: from the home die, or from the die of the pier. -/
def wayBack (s : State) (src oc : Nat) (path : List Nat) : Bool := path.all (fun d => decide (256 ≤ d) || clearWay s d src (oc % 4))

/-- The beats of a message enter every hawser of their path. -/
def enterPath (s : State) (src oc : Nat) (path : List Nat) (part : Option Nat) (ag : Agent) (msg : Nat) : State :=
  if !ag.queues then s
  else
    path.foldl (fun s d =>
      let s1 := if d < 256 then s else takePort s part (d - 256) oc
      { s1 with hawsers := s1.hawsers ++ [.beat src d (oc % 4) ag msg false] }) s

/-- A message of an agent is under way. -/
def hasBeat (s : State) (ag : Agent) (msg : Nat) : Bool := s.hawsers.any (·.isBeatOf ag msg)

/-- Some message of an agent is under way. -/
def hasBeats (s : State) (ag : Agent) : Bool := s.hawsers.any (fun x => match x with | .beat _ _ _ a _ _ => a == ag | .marker .. => false)

/-- What a message is for has been performed, or is given up: neither its beats nor its bill is left. -/
def dropBeats (s : State) (ag : Agent) (msg : Nat) : State :=
  let s1 := if hasBeat s ag msg then { s with hawsers := s.hawsers.filter (fun x => !x.isBeatOf ag msg) } else s
  if s1.bills.any (fun b => b.agent == ag && b.msg == msg) then { s1 with bills := s1.bills.filter (fun b => !(b.agent == ag && b.msg == msg)) } else s1

/-- The beats of a message leave the hawsers of their path, one after another, in the order in which they entered; whether they have left them all. -/
def leaveFrom (ag : Agent) (msg : Nat) : List HawEnt → State → State × Bool
  | [], s => (s, true)
  | x :: xs, s =>
    match x with
    | .beat a b h y n false =>
      if y != ag || n != msg then leaveFrom ag msg xs s
      else if beatHeld s a b h ag msg then (s, false)
      else leaveFrom ag msg xs { s with hawsers := s.hawsers.map (fun z => if z = .beat a b h y n false then .beat a b h y n true else z) }
    | _ => leaveFrom ag msg xs s

/-- The beats of a message go on as far as they can. -/
def leaveBeats (s : State) (ag : Agent) (msg : Nat) : State × Bool := leaveFrom ag msg s.hawsers s

/-- A message of an agent crosses a path from a die, by the routes of a partition or by none: it is charged, enters its hawsers, and leaves them; whether it has
arrived. A message of an agent that keeps no place sets out when nothing holds it. -/
def travelBy (s : State) (w : Who) (routes : Option Nat) (src : Nat) (path : List Nat) (msg : Nat) (units : List (Nat × Nat)) : State × Bool :=
  if hasBeat s w.ag msg then leaveBeats s w.ag msg
  else if !w.ag.queues && !(path.all (fun d => clearWay s src d (w.oc % 4)) && wayBack s src w.oc path) then (s, false)
  else
    let r := pay s w.part w.cls w.ag msg units
    if r.2 then leaveBeats (enterPath r.1 src w.oc path routes w.ag msg) w.ag msg else r

/-- A message of an agent crosses a path by the routes of its partition. -/
def travel (s : State) (w : Who) (src : Nat) (path : List Nat) (msg : Nat) (units : List (Nat × Nat)) : State × Bool :=
  travelBy s w w.part src path msg units

/-- The markers of a FENCE enter every hawser and pier path from a die that its mask covers (03 R73, R74). -/
def placeMarkers (s : State) (src pos slot : Nat) (dsts : List Nat) (hs : List Nat) : State :=
  { s with hawsers := s.hawsers ++ dsts.flatMap (fun d => hs.map (fun h => .marker src d h pos slot false)) }

/-- The marker of a slot's fence towards a destination. -/
def HawEnt.isMarker (pos slot dst : Nat) : HawEnt → Bool
  | .marker _ b _ p k _ => p == pos && k == slot && b == dst
  | .beat .. => false

/-- The markers of a slot's fence have arrived on every hawser into a destination: they have joined. -/
def joinMarkers (s : State) (pos slot dst : Nat) : State :=
  { s with hawsers := s.hawsers.map (fun x =>
      match x with
      | .marker a b h p k j => .marker a b h p k (j || (p == pos && k == slot && b == dst))
      | x => x) }

/-- The message number from which on messages carry the data of collectives: they have been performed once they have arrived. -/
def collMsg : Nat := 2 ^ 60

/-- A live beat lies ahead of a marker of a slot's fence towards a destination (07 R151). -/
def aheadOfMarkers (s : State) (pos slot dst : Nat) : List HawEnt → List HawEnt → Bool
  | _, [] => false
  | seen, x :: xs =>
    (match x with
     | .marker a b h p k _ => p == pos && k == slot && b == dst && seen.any (fun y =>
        match y with
        | .beat c d g ag n out => c == a && d == b && g == h && ag.live s && !(out && decide (collMsg ≤ n))
        | _ => false)
     | _ => false) || aheadOfMarkers s pos slot dst (x :: seen) xs

/-- The markers of a slot's fence leave: towards one destination once its join is complete, or all. -/
def dropMarkers (s : State) (pos slot : Nat) (dst : Option Nat) : State :=
  { s with hawsers := s.hawsers.filter (fun x =>
      match x with
      | .marker _ b _ p k _ => !(p == pos && k == slot && (dst == none || dst == some b))
      | _ => true) }

/-! ### The comparator (06 R126) -/

/-- The row that serves a request. -/
def reqRow (r : CmpReq) : Instr :=
  match r.kind with
  | .read => .coherenceRead
  | .own => .ownershipRequest
  | .homeLoad => .homeLoad
  | .homeStore => .homeStoreOrAtomic

/-- Its operands. -/
def reqArg (r : CmpReq) : Arg :=
  match r.kind with
  | .read => .three r.line r.pkg r.die
  | .own => .three r.line r.pkg r.die
  | .homeLoad => .one r.line
  | .homeStore => .one r.line

/-- An access that the home quay performs itself. -/
def ReqKind.atHome : ReqKind → Bool
  | .homeLoad => true
  | .homeStore => true
  | _ => false

/-- A held request is still wanted: one of a cache always, an access while its agent makes it, and one that is asked for anew in every cycle while it is. -/
def CmpReq.live (s : State) (r : CmpReq) : Bool :=
  !r.kind.atHome || (if r.agent.queues then r.agent.live s else decide (s.cycle.toNat ≤ r.seen + 1))

/-- The oldest request that the comparator of a line's home die holds for the line. -/
def headOf (s : State) (l : Nat) : Option CmpReq := (dieAt s (dieOfLine l)).cmp.find? (fun r => r.line == l && r.live s)

/-- A transaction runs on a line. -/
def transOn (s : State) (l : Nat) : Bool := (tblGet? (dieAt s (dieOfLine l)).trans l).isSome

/-- A record of a read of a Poisoned line has still to be written to its partition's error queue: the comparator releases no other access to the line (21 R387). -/
def recordOwed (s : State) (l : Nat) : Bool := s.recs.any (fun e => e.2.kind == 0x05 && e.2.addr == BitVec.ofNat 64 (l * 128))

/-- An access of an agent may be performed at the home of a line: no transaction runs, no earlier request is held, and no record of a read is owed but for
hardware, which writes it. -/
def homeTurn (s : State) (l : Nat) (ag : Agent) : Bool :=
  !transOn s l && (ag == .hw || !recordOwed s l) && (match headOf s l with | some r => r.kind.atHome && r.agent == ag | none => true)

/-- Two requests are the same: who asks, for what. -/
def CmpReq.same (x r : CmpReq) : Bool := x.line == r.line && x.kind == r.kind && x.pkg == r.pkg && x.die == r.die && x.agent == r.agent

/-- A request is held in the comparator, behind those that have arrived before. -/
def hold (s : State) (r0 : CmpReq) : State :=
  let r := { r0 with seen := s.cycle.toNat }
  let d := dieOfLine r.line
  let y := dieAt s d
  if y.cmp.any (·.same r) then (if r.agent.queues then s else setDie s d { y with cmp := y.cmp.map (fun x => if x.same r then { x with seen := r.seen } else x) })
  else setDie s d { y with cmp := y.cmp ++ [r] }

/-- A request leaves the comparator. -/
def unhold (s : State) (r : CmpReq) : State :=
  let d := dieOfLine r.line
  let y := dieAt s d
  setDie s d { y with cmp := y.cmp.filter (fun x => !x.same r) }

/-- The next held request for a line may begin: an access is tried again by its agent, a request of a cache by its row. -/
def releaseNext (s : State) (l : Nat) : State :=
  match headOf s l with
  | none => s
  | some r =>
    if transOn s l || r.kind.atHome || s.agenda.contains (.event (reqRow r) (reqArg r)) then s else later s (reqRow r) (reqArg r)

/-- An agent is held for a line. -/
def heldFor (s : State) (l : Nat) (ag : Agent) : Bool :=
  (dieAt s (dieOfLine l)).cmp.any (fun r => r.line == l && r.kind.atHome && r.agent == ag)

/-- The number of the message by which an access to a line goes to its home itself; the request of a cache for the line has the line's own. -/
def homeMsg (l : Nat) : Nat := 2 ^ 50 + l

/-- The agent makes several accesses at a time. -/
def Agent.several : Agent → Bool
  | .op .. => true
  | .sched _ => true
  | .host _ => true
  | .hw => true
  | _ => false

/-- The lines for which an agent is held. -/
def heldLines (s : State) (ag : Agent) : List Nat :=
  s.dies.toList.flatMap (fun d => (d.cmp.filter (fun r => r.kind.atHome && r.agent == ag)).map (·.line))

/-- An access of an agent to a line has been performed or refused: its messages and its place in the comparator are free, and the next request may begin. Of an
agent that makes one access at a time nothing else is left either. -/
def settled (s : State) (l : Nat) (ag : Agent) : State :=
  let ls := if ag.several then (heldLines s ag).filter (· == l) else heldLines s ag
  let ended := fun (n : Nat) => !ag.several || n == l || n == homeMsg l
  let s1 :=
    { s with
      hawsers := s.hawsers.filter (fun x => match x with | .beat _ _ _ a n _ => !(a == ag && ended n) | .marker .. => true)
      bills := s.bills.filter (fun b => !(b.agent == ag && ended b.msg)) }
  if ls = [] then s1
  else
    ls.foldl releaseNext
      { s1 with dies := s1.dies.map (fun d => { d with cmp := d.cmp.filter (fun r => !(r.kind.atHome && r.agent == ag && ls.contains r.line)) }) }

end Sys2Proof.Machine
end

