-- ==== Sys2Proof/Machine/Seal.lean ====
section
/-!
DEFINITION. Seal blocks: opening and sealing, the seal cache, and the L2 in front of it (06 R120, R122, R131 to R138).

A block is a list of sixteen lines. The capacities are those of 01 Tables 1-5 and 1-7; what an allocation replaces is a free choice (log entry 90).
-/
namespace Sys2Proof.Machine

open Sys2Proof

/-! ### The cipher (06 R133) -/

/-- The key stream of 16 bytes number `j`, in the order in which AES delivers them. -/
def keyStream (ke : BitVec 256) (block n j : Nat) : List Byte :=
  (bytesLE 16 (aes256 ke (BitVec.ofNat 128 (block % 2 ^ 41 * 2 ^ 87 + n * 2 ^ 55 + j))).toNat).reverse

/-- Plaintext and ciphertext of a block from each other. -/
def cryptBlock (ke : BitVec 256) (block n : Nat) (bs : List Byte) : List Byte :=
  List.zipWith (· ^^^ ·) bs ((List.range 128).flatMap (keyStream ke block n))

/-- TAG of a block's ciphertext. -/
def tagOf (kt : BitVec 256) (c : List Byte) (block n key : Nat) : BitVec 128 :=
  kmac256 kt (c ++ bytesLE 8 (block * 2048) ++ bytesLE 4 n ++ [BitVec.ofNat 8 key])

/-- KE and KT of a generation of a key slot, where it is installed (22 R397). -/
def keysOf (s : State) (k : Nat) (g : BitVec 1) : Option (BitVec 256 × BitVec 256) :=
  let x := tblGet KeySlot.reset s.keys k
  if g = 0 then x.inst0 else x.inst1

/-! ### Poisoning a line (06 R130, R131; 21 Table 21-2) -/

/-- Coherence metadata of a line. -/
def metaOf (s : State) (l : Nat) : LineMeta := tblGet LineMeta.idle (dieAt s (dieOfLine l)).line l

/-- Replace the metadata of a line; a line that no cache holds is not listed. -/
def setMeta (s : State) (l : Nat) (x : LineMeta) : State :=
  let d := dieOfLine l
  let y := dieAt s d
  setDie s d { y with line := if x = LineMeta.idle then tblErase y.line l else tblSet y.line l x }

/-- Every copy of a line in the remote-data caches and write-back buffers of this package is discarded. -/
def dropCopies (s : State) (l : Nat) : State :=
  { s with dies := s.dies.map (fun d => { d with rdc := tblErase d.rdc l, wbuf := tblErase d.wbuf l }) }

/-- The transaction on a line ends without an effect. -/
def dropTrans (s : State) (l : Nat) : State :=
  let d := dieOfLine l
  let y := dieAt s d
  setDie s d { y with trans := tblErase y.trans l }

/-- The key slot a block is held or sealed under. -/
def blockKey (s : State) (b : Nat) : Nat :=
  let d := dieAt s (dieOfBlock b)
  match tblGet? d.sc b with
  | some e => e.key.toNat
  | none => (tblGet SealMeta.reset d.sealMeta b).key.toNat % 128

/-- The record of a line that becomes Poisoned. -/
def poisonRec (s : State) (l reason : Nat) : State :=
  keyRec s (dieOfLine l) (blockKey s (blockOfLine l))
    (recordNow s 0x04 (placeOf s (homePos l) none) (BitVec.ofNat 64 (l * 128)) (BitVec.ofNat 64 reason))

/-- No read of a line since it became Poisoned is noted. -/
def unreadLine (s : State) (l : Nat) : State :=
  let y := dieAt s (dieOfLine l)
  if y.poisonSeen.contains l then setDie s (dieOfLine l) { y with poisonSeen := y.poisonSeen.filter (· != l) } else s

/-- A line becomes Poisoned for a reason of Table 21-2: its metadata, its copies, and the record; one that is Broken stays so (21 R390). No rule says what becomes of
a transaction that runs on the line: it ends without an effect, and the next held request may begin (log entry 93). -/
def poisonLine (s : State) (l reason : Nat) : State :=
  if (metaOf s l).st = .broken then poisonRec s l reason
  else
    let s1 := unreadLine (setMeta (dropTrans (dropCopies s l) l) l { LineMeta.idle with st := .poisoned }) l
    releaseNext (poisonRec s1 l reason) l

/-- A store of poisoned data reaches a line at its home: the line becomes Poisoned unless it is already, or Broken. -/
def markPoisoned (s : State) (l reason : Nat) : State :=
  if (metaOf s l).st = .poisoned ∨ (metaOf s l).st = .broken then s else poisonLine s l reason

/-! ### Filling an entry (06 R135, R136) -/

/-- The entry of a block. -/
def entOf (s : State) (b : Nat) : Option ScEnt := tblGet? (dieAt s (dieOfBlock b)).sc b

/-- Replace the entry of a block. -/
def setEnt (s : State) (b : Nat) (e : ScEnt) : State :=
  let d := dieOfBlock b
  let y := dieAt s d
  setDie s d { y with sc := tblSet y.sc b e }

/-- Remove the entry of a block. -/
def eraseEnt (s : State) (b : Nat) : State :=
  let d := dieOfBlock b
  let y := dieAt s d
  setDie s d { y with sc := tblErase y.sc b }

/-- An entry with no line. -/
def ScEnt.empty (key : BitVec 7) : ScEnt :=
  { lines := Vector.replicate 16 0, valid := 0, dirty := 0, filled := false, count := 0, key := key, gen := 0, failed := false, frozen := false }

/-- A new entry of a block: the count and generation are those that its last seal left. -/
def newEnt (s : State) (b : Nat) (key : BitVec 7) : ScEnt :=
  let sm := tblGet SealMeta.reset (dieAt s (dieOfBlock b)).sealMeta b
  { ScEnt.empty key with count := sm.count, gen := BitVec.ofBool (sm.key.getLsbD 7) }

/-! ### The DRAM banks (21 R391) -/

/-- The bank of a block on its die. -/
def bankAt (s : State) (b : Nat) : Bank := tblGet { owed := 0, until_ := 0, queued := 0 } (dieAt s (dieOfBlock b)).banks (Config.bankOf b).toNat

/-- Replace the bank of a block. -/
def setBank (s : State) (b : Nat) (x : Bank) : State :=
  let y := dieAt s (dieOfBlock b)
  setDie s (dieOfBlock b) { y with banks := tblSet y.banks (Config.bankOf b).toNat x }

/-- A back-off blocks the bank of a block. -/
def bankBlocked (s : State) (b : Nat) : Bool := decide (s.cycle.toNat < (bankAt s b).until_)

/-- A request for a block waits for its bank; one that waits already keeps its place. -/
def bankWaits (s : State) (b : Nat) : State :=
  let x := bankAt s b
  setBank s b
    { x with
      waiting :=
        if x.waiting.any (·.1 == b) then x.waiting.map (fun e => if e.1 = b then (b, s.cycle.toNat) else e) else x.waiting ++ [(b, s.cycle.toNat)] }

/-- The bank has served the requests for a block. -/
def bankServed (s : State) (b : Nat) : State :=
  let x := bankAt s b
  if x.waiting.any (·.1 == b) then setBank s b { x with waiting := x.waiting.filter (·.1 != b) } else s

/-- The ciphertext of a block as it lies in DRAM. -/
def dramBlock (s : State) (b : Nat) : List Byte :=
  memBytes (dieAt s (dieOfBlock b)).dram (b % 2 ^ 25 * 2048) 2048

/-- The symbols in error of a DRAM line (06 R123). -/
def symbolsOf (s : State) (l : Nat) : List Nat := tblGet [] (dieAt s (dieOfLine l)).ecc l

/-- The lines of a block whose code is uncorrectable: two symbols or more are in error. -/
def badLines (s : State) (b : Nat) : List Nat := (List.range 16).filter (fun i => decide (2 ≤ (symbolsOf s (16 * b + i)).length))

/-- The code corrects a single symbol of a line: the correction is logged on the die, merged by the line (06 R131; 21 Table 21-2). -/
def correctLine (s : State) (l : Nat) : State :=
  match symbolsOf s l with
  | [x] =>
    let a : Word := BitVec.ofNat 64 (l * 128)
    mergeRec s (dieOfLine l) (fun r => r.kind == 0x03 && r.addr == a)
      { recordNow s 0x03 (placeOf s (homePos l) none) a (BitVec.ofNat 64 (x % 256)) with fl := 1 }
  | _ => s

/-- The code is applied to every line of a block (06 R131, R135). -/
def correctBlock (s : State) (b : Nat) : State := (List.range 16).foldl (fun s i => correctLine s (16 * b + i)) s

/-- Lines of a block from its bytes. -/
def linesOf (bs : List Byte) : List (BitVec 1024) :=
  (List.range 16).map (fun i => BitVec.ofNat 1024 (ofBytesLE ((bs.drop (128 * i)).take 128)))

/-- The entry after a fill: lines that were dirty keep their newer data. -/
def mergeLines (old : ScEnt) (ls : List (BitVec 1024)) : ScEnt :=
  { old with
    lines := Vector.ofFn (fun i => if old.dirty.getLsbD i.val then old.lines[i] else ls.getD i.val 0)
    valid := 0xFFFF
    filled := true }

/-- A block that fails verification: its entry is marked and SEAL_FAILED is recorded (06 R136; 21 Table 21-2). -/
def failFill (s : State) (b : Nat) (old : ScEnt) (sm : SealMeta) : State :=
  keyRec (setEnt s b { old with failed := true }) (dieOfBlock b) (sm.key.toNat % 128)
    (recordNow s 0x07 (placeOf s (homePos (16 * b)) none) (BitVec.ofNat 64 (b * 2048)) (sm.key.setWidth 64))

/-- The code is applied to every line of a block that is read from DRAM: corrections are logged, and uncorrectable lines become Poisoned (06 R131, R135). -/
def readBlock (s : State) (b : Nat) : State := (badLines s b).foldl (fun s i => poisonLine s (16 * b + i) 0) (correctBlock s b)

/-- A fill is recorded as unverified, with its uncorrectable lines (06 R135). -/
def unverified (s : State) (b key : Nat) (bad : List Nat) : State :=
  keyRec s (dieOfBlock b) key
    (recordNow s 0x06 (placeOf s (homePos (16 * b)) none) (BitVec.ofNat 64 (b * 2048))
      (BitVec.ofNat 64 ((bad.map (2 ^ ·)).foldl (· + ·) 0)))

/-- Open a block into its entry for an access under key slot `k` (06 R134, R135): an entry that has been filled, or is marked failed, stays as it is. The
data of an uncorrectable line, and the count or the generation that its sideband held, are free values; where the key slot is lost, the access's own is taken
(log entry 46). It waits while a back-off blocks the bank of the block (21 R391). -/
def openBlock (s0 : State) (b k : Nat) : State :=
  let old := (entOf s0 b).getD (newEnt s0 b (BitVec.ofNat 7 k))
  if old.failed || old.filled then s0
  else if bankBlocked s0 b then bankWaits s0 b
  else
    let s := readBlock (bankServed s0 b) b
    let sm := tblGet SealMeta.reset (dieAt s (dieOfBlock b)).sealMeta b
    let bad := badLines s b
    let lost := bad.contains 5
    let gen : BitVec 1 := if lost then BitVec.ofBool (Config.freeBool (s.fresh + 17)) else BitVec.ofBool (sm.key.getLsbD 7)
    let key := if lost then k else sm.key.toNat % 128
    if key ≠ k ∨ sm.cut = true then failFill s b old sm
    else
      match keysOf s key gen with
      | none => failFill s b old sm
      | some (ke, kt) =>
        let c := dramBlock s b
        let n := if bad.contains 4 then (Config.freeWord s.fresh).toNat % 2 ^ 32 else sm.count.toNat
        if bad.isEmpty && (sm.rsv != 0 || tagOf kt c b n sm.key.toNat != sm.tag) then failFill s b old sm
        else
          let ls := linesOf (cryptBlock ke b n c)
          let ls1 := (List.range 16).map (fun i => if bad.contains i then Config.freeLine (s.fresh + 1 + i) else ls.getD i 0)
          let e := { mergeLines old ls1 with count := BitVec.ofNat 32 n, key := BitVec.ofNat 7 key, gen := gen }
          let s1 := setEnt s b e
          if bad.isEmpty then s1 else unverified { s1 with fresh := s1.fresh + 18 } b key bad

/-! ### Re-sealing (06 R137, R138) -/

/-- Write a block to DRAM, sealed under a count and generation; its entry becomes clean. -/
def sealBlock (s0 : State) (b : Nat) (e : ScEnt) (n : BitVec 32) (g : BitVec 1) (ks : BitVec 256 × BitVec 256) : State :=
  let s := bankServed s0 b
  let d := dieOfBlock b
  let y := dieAt s d
  let p := (List.range 16).flatMap (fun i => bytesLE 128 (vget 0 e.lines i).toNat)
  let c := cryptBlock ks.1 b n.toNat p
  let key : BitVec 8 := BitVec.ofNat 8 (g.toNat * 128 + e.key.toNat)
  setDie s d
    { y with
      dram := memPut y.dram (b % 2 ^ 25 * 2048) c
      sealMeta := tblSet y.sealMeta b { tag := tagOf ks.2 c b n.toNat key.toNat, count := n, key := key, rsv := 0 }
      ecc := y.ecc.filter (fun e => e.1 / 16 != b)
      sc := tblSet y.sc b { e with dirty := 0, count := n, gen := g } }

/-- Frozen-block holders taken on a die (06 R138). -/
def frozenCount (s : State) (d : Nat) : Nat := ((dieAt s d).sc.filter (fun e => e.2.frozen)).length

/-- A block that would wrap with no next generation: frozen, and SEAL_WRAP to the supervisor of the partition that owns its key slot; it waits while
the 64 holders of the die are taken (06 R138). -/
def freeze (s : State) (b : Nat) (e : ScEnt) : State :=
  if 64 ≤ frozenCount s (dieOfBlock b) then s
  else
    let s1 := setEnt s b { e with frozen := true }
    match (tblGet KeySlot.reset s.keys e.key.toNat).owner with
    | some p => raiseEvent s1 p cSEALWRAP (BitVec.ofNat 64 (b * 2048))
    | none => s1

/-- Re-seal a dirty entry; failed, frozen and clean entries stay as they are (06 R137, R336), and so does one whose bank is blocked (21 R391). -/
def resealBlock (s : State) (b : Nat) : State :=
  match entOf s b with
  | none => s
  | some e0 =>
    if e0.failed || e0.frozen || e0.dirty == 0 then s
    else if bankBlocked s b then bankWaits s b
    else
      let s1 := openBlock s b e0.key.toNat
      match entOf s1 b with
      | none => s1
      | some e =>
        if e.failed then s1
        else
          let g' : BitVec 1 := e.gen ^^^ 1
          if e.count ≠ 0xFFFFFFFF then
            (match keysOf s1 e.key.toNat e.gen with
             | some ks => sealBlock s1 b e (e.count + 1) e.gen ks
             | none => s1)
          else
            match keysOf s1 e.key.toNat g' with
            | some ks => sealBlock s1 b e 0 g' ks
            | none => freeze s1 b e

/-- Evict an entry: re-sealed where dirty, dropped where failed, kept where frozen or waiting for a holder (06 R136, R137, R138). -/
def evictBlock (s : State) (b : Nat) : State :=
  let s1 := resealBlock s b
  match entOf s1 b with
  | none => s1
  | some e => if e.failed || (!e.frozen && e.dirty == 0) then eraseEnt s1 b else s1

/-- SEAL_CACHE_EVICTION. -/
def execSealCacheEviction (s : State) : Out := with1 s fun block => .next (evictBlock s block)

/-! ### Capacities (01 Tables 1-5, 1-7; 06 R120, R122, R138) -/

/-- Blocks that the seal cache of a die holds: 256 MiB; frozen blocks do not count. -/
def sealCacheSize : Nat := 131072

/-- Lines that a quay's L2 slice holds: 2 MiB. -/
def l2Size : Nat := 16384

/-- Victims are tried until one has left; whether one has. -/
def evictFrom (out : State → Nat → State) (gone : State → Nat → Bool) : List Nat → State → State × Bool
  | [], s => (s, false)
  | v :: vs, s => let s1 := out s v; if gone s1 v then (s1, true) else evictFrom out gone vs s1

/-- A list from a free place on. -/
def fromFree (s : State) (vs : List Nat) : List Nat := vs.rotateLeft ((Config.freeWord s.fresh).toNat % max 1 vs.length)

/-- The seal cache of a block's die takes a new entry: a full one first evicts an entry of its choice; one that must stay is passed over, and while all must, there is
no room. -/
def sealRoom (s : State) (b : Nat) : State × Bool :=
  let open_ := ((dieAt s (dieOfBlock b)).sc.filter (fun e => !e.2.frozen)).map (·.1)
  if open_.length < sealCacheSize then (s, true)
  else evictFrom evictBlock (fun s v => (entOf s v).isNone) (fromFree s open_) (nextFresh s)

/-- A block is opened for an access under key slot `k`, once there is room for its entry. -/
def fillBlock (s : State) (b k : Nat) : State :=
  if (entOf s b).isSome then openBlock s b k
  else
    let r := sealRoom s b
    if r.2 then openBlock r.1 b k else r.1

/-- SEAL_CACHE_FILL. -/
def execSealCacheFill (s : State) : Out := with2 s fun block key => .next (fillBlock s block (key % 128))

/-! ### The L2 of the home die (06 R120, R122) -/

/-- A line goes into its block's entry, which is allocated if absent. -/
def lineToEnt (s : State) (l : Nat) (v : BitVec 1024) : State :=
  let b := blockOfLine l
  let e := (entOf s b).getD (newEnt s b (BitVec.ofNat 7 (blockKey s b)))
  setEnt s b { e with lines := vset e.lines (l % 16) v, valid := bitSet e.valid (l % 16) true, dirty := bitSet e.dirty (l % 16) true }

/-- A dirty line leaves the L2 for its block's entry, which is allocated if absent, once there is room; a clean one is dropped (06 R120, R122). -/
def evictLine (s : State) (l : Nat) : State :=
  let d := dieOfLine l
  let b := blockOfLine l
  match tblGet? (dieAt s d).l2 l with
  | none => s
  | some x =>
    let drop := fun (s : State) => let y := dieAt s d; setDie s d { y with l2 := tblErase y.l2 l }
    if !x.dirty then drop s
    else
      let r := if (entOf s b).isSome then (s, true) else sealRoom s b
      if r.2 then lineToEnt (drop r.1) l x.data else r.1

/-- The slice of a line's home quay takes a new line: a full one first evicts a line of its choice; whether there is room. -/
def l2Room (s : State) (l : Nat) : State × Bool :=
  let mine := ((dieAt s (dieOfLine l)).l2.filter (fun e => homeQuayIndex e.1 == homeQuayIndex l)).map (·.1)
  if mine.length < l2Size then (s, true)
  else evictFrom evictLine (fun s v => (tblGet? (dieAt s (dieOfLine v)).l2 v).isNone) (fromFree s mine) (nextFresh s)

/-- Why an access at the home cannot be served: the block fails (06 R136), a store meets a frozen block (R138), or not yet: its bank is blocked, or nothing may leave
the caches. -/
inductive SealBad where
  | failed | frozen | busy
  deriving DecidableEq, Repr

/-- A line of an entry for an access: through the L2 of its home die, or, while the die is gated, straight from the entry (06 R122; 23 R418). -/
def lineOfEnt (s : State) (l : Nat) (e : ScEnt) : Except (State × SealBad) (State × LineBuf) :=
  let x : LineBuf := { data := vget 0 e.lines (l % 16), dirty := false, poison := false }
  let d := dieOfLine l
  if (dieAt s d).gated then .ok (s, x)
  else
    let r := l2Room s l
    if r.2 then (let y := dieAt r.1 d; .ok (setDie r.1 d { y with l2 := tblSet y.l2 l x }, x)) else .error (r.1, .busy)

/-- The line at its home, brought there from the seal cache or DRAM for an access under key slot `k` (06 R122, R134, R136). -/
def fetchLine (s : State) (l k : Nat) (write : Bool) : Except (State × SealBad) (State × LineBuf) :=
  let b := blockOfLine l
  let d := dieOfLine l
  match tblGet? (dieAt s d).l2 l, entOf s b with
  | some x, none => if blockKey s b = k then .ok (s, x) else .error (s, .failed)
  | some x, some e =>
    if e.failed || e.key.toNat != k then .error (s, .failed)
    else if write && e.frozen then .error (s, .frozen)
    else .ok (s, x)
  | none, e? =>
    let s1 := match e? with
      | some e => if e.valid.getLsbD (l % 16) || e.failed || e.key.toNat != k then s else fillBlock s b k
      | none => fillBlock s b k
    match entOf s1 b with
    | none => .error (s1, .busy)
    | some e =>
      if e.failed || e.key.toNat != k then .error (s1, .failed)
      else if write && e.frozen then .error (s1, .frozen)
      else if e.valid.getLsbD (l % 16) then lineOfEnt s1 l e
      else .error (s1, .busy)

/-- Write a line at its home: in the L2, or, while the die is gated, in its block's entry (23 R418). -/
def putLine (s : State) (l : Nat) (v : BitVec 1024) : State :=
  let d := dieOfLine l
  let y := dieAt s d
  if y.gated then lineToEnt s l v else setDie s d { y with l2 := tblSet y.l2 l { data := v, dirty := true, poison := false } }

/-- L2_EVICTION. -/
def execL2Eviction (s : State) : Out := with1 s fun line => .next (evictLine s line)

/-- Every L2 line of a block goes into its entry (18 R336). -/
def mergeL2 (s : State) (b : Nat) : State := (List.range 16).foldl (fun s i => evictLine s (16 * b + i)) s

end Sys2Proof.Machine
end

