-- ==== Sys2Proof/Machine/Coherence.lean ====
section
/-!
DEFINITION. Coherence of global memory: the transactions of the home quay, the remote-data caches, and one access to one line
(06 R119 to R131; 07 R142; 21 R389, R394).

An access that needs a transaction asks for one and waits, in its place in the comparator; it is performed at its next attempt after the transaction has
ended, before any later request (log entry 13). What other packages hold and answer are free values (log entry 5).
-/
namespace Sys2Proof.Machine

open Sys2Proof

/-! ### Sharers and targets (06 R127, R128) -/

/-- Q is added to the possible sharers of a line homed on this package. -/
def addSharer (s : State) (m : LineMeta) (pkg : Nat) : LineMeta :=
  if pkg = s.pkg.toNat then { m with xd := true } else { m with hint := bitSet m.hint (pkg / 16) true }

/-- The owner as a target: a die of this package, or 256 + its package. -/
def ownerTarget (s : State) (m : LineMeta) : Nat :=
  if m.opkg = s.pkg then m.odie.toNat else 256 + m.opkg.toNat

/-- The possible sharers as targets, without the home die and a requester on this package. -/
def sharerTargets (m : LineMeta) (home : Nat) (q : Option Nat) : List Nat :=
  (if m.xd then (List.range 8).filter (fun d => d != home && some d != q) else []) ++
    ((List.range 16).filter (fun g => m.hint.getLsbD g)).map (8 + ·)

/-- One more target, named once. -/
def addTarget (ts : List Nat) : Option Nat → List Nat
  | none => ts
  | some t => if ts.contains t then ts else ts ++ [t]

/-- Whom a transaction asks (06 R127, R128). -/
def targetsOf (s : State) (m : LineMeta) (r : CmpReq) : List Nat :=
  let home := dieOfLine r.line
  let q := if r.pkg = s.pkg.toNat then some r.die else none
  let owner := ownerTarget s m
  let mine := m.opkg.toNat == r.pkg && m.odie.toNat == r.die
  match m.st, r.kind with
  | .S, .own => sharerTargets m home q
  | .S, .homeStore => sharerTargets m home none
  | .E, .own => if mine then [] else [owner]
  | .M, .own => if mine then [] else [owner]
  | .E, _ => [owner]
  | .M, _ => [owner]
  | .O, .read => [owner]
  | .O, .homeLoad => [owner]
  | .O, .own => addTarget (sharerTargets m home q) (if mine then none else some owner)
  | .O, .homeStore => addTarget (sharerTargets m home none) (some owner)
  | _, _ => []

/-! ### Data at the home -/

/-- Data written home: into the L2 of the home die, and a line whose copy carried the poison bit becomes Poisoned (06 R129, R130). Data for a block that
fails is lost. -/
def writeHome (s : State) (l : Nat) (v : BitVec 1024) (poison : Bool) : State :=
  if (entOf s (blockOfLine l)).any (·.failed) then s
  else
    let y := dieAt s (dieOfLine l)
    let s1 := if y.gated || (tblGet? y.l2 l).isSome then s else (l2Room s l).1
    let s2 := putLine s1 l v
    if poison then markPoisoned s2 l 2 else s2

/-- The home's current value of a line. -/
def homeData (s : State) (l : Nat) : Option (State × BitVec 1024) :=
  match fetchLine s l (blockKey s (blockOfLine l)) false with
  | .error _ => none
  | .ok (s1, x) => some (s1, x.data)

/-! ### Remote-data caches (06 R121, R126, R129) -/

/-- Replace a line of the remote-data cache of a die. -/
def setRdc (s : State) (d l : Nat) (x : RdcLine) : State :=
  let y := dieAt s d
  setDie s d { y with rdc := tblSet y.rdc l x }

/-- Remove a line from the remote-data cache of a die. -/
def eraseRdc (s : State) (d l : Nat) : State :=
  let y := dieAt s d
  setDie s d { y with rdc := tblErase y.rdc l }

/-- The store that ownership of a line was granted for has still to be performed (06 R126). -/
def owedLive (s : State) (x : RdcLine) : Bool :=
  match x.owed with
  | none => false
  | some (.op pos id) => (tileAt s pos).ops.any (fun o => o.id == id && !o.finished && !withheld o.held && o.got.isSome) && !tileEvicted s pos
  | some ag => ag.live s

/-- A line leaves the cache of a die: one in M or O goes to the write-back buffer; a clean copy is dropped (06 R129). -/
def evictRdc (s : State) (die line : Nat) : State :=
  let y := dieAt s die
  match tblGet? y.rdc line with
  | none => s
  | some x =>
    if x.st = .M ∨ x.st = .O then
      later (setDie s die
        { y with rdc := tblErase y.rdc line, wbuf := tblSet y.wbuf line { data := x.data, dirty := true, poison := x.poison, orig := x.orig } })
        .writeBackAcknowledgement (.two die line)
    else eraseRdc s die line

/-- Lines that the remote-data cache of a die holds: 64 MiB (01 Table 1-7). -/
def rdcSize : Nat := 524288

/-- Put a line into the remote-data cache of a die: a full one first evicts a line of its choice (log entry 90). -/
def putRdc (s : State) (d l : Nat) (x : RdcLine) : State :=
  let y := dieAt s d
  if (tblGet? y.rdc l).isSome || decide (y.rdc.length < rdcSize) then setRdc s d l x
  else
    match y.rdc[(Config.freeWord s.fresh).toNat % rdcSize]? with
    | some e => setRdc (evictRdc (nextFresh s) d e.1) d l x
    | none => setRdc s d l x

/-- RDC_EVICTION; a line whose granted store has still to be performed stays. -/
def execRdcEviction (s : State) : Out := with2 s fun die line =>
  .next (if (tblGet? (dieAt s die).rdc line).any (owedLive s) then s else evictRdc s die line)

/-- The store that a grant of ownership is for. -/
def owedBy (r : CmpReq) : Option Agent :=
  match r.kind, r.agent with
  | .own, .access p k i => some (.access p k i)
  | .own, .inline p k => some (.inline p k)
  | .own, .op p i => some (.op p i)
  | _, _ => none

/-- What the access that caused a request was made for. -/
def CmpReq.orig (r : CmpReq) : Origin := { oc := r.oc, part := r.part, cls := r.cls, key := r.key }

/-- Grant data to the requester, where it is on this package. -/
def grant (s : State) (r : CmpReq) (st : LineSt) (v : BitVec 1024) (poison : Bool) : State :=
  if r.pkg = s.pkg.toNat then putRdc s r.die r.line { st := st, data := v, poison := poison, owed := owedBy r, orig := r.orig } else s

/-- The data of a grant crosses from the home die to the requester's at once (03 R72, R73). -/
def grantClear (s : State) (r : CmpReq) : Bool :=
  r.kind.atHome || r.pkg != s.pkg.toNat || r.die == dieOfLine r.line || clearWay s (dieOfLine r.line) r.die (r.oc % 4)

/-! ### The end of a transaction (06 Table 6-5) -/

/-- Metadata owned by the requester. -/
def ownedBy (st : LineSt) (r : CmpReq) : LineMeta :=
  { st := st, xd := false, hint := 0, opkg := BitVec.ofNat 8 r.pkg, odie := BitVec.ofNat 3 r.die }

/-- Metadata after the owner has become a sharer. -/
def ownerShares (s : State) (m : LineMeta) : LineMeta :=
  { addSharer s m m.opkg.toNat with st := .S, opkg := 0, odie := 0 }

/-- The data a requester of ownership receives: the owner's dirty data, or its own copy, or the home's value. -/
def ownData (s : State) (r : CmpReq) (answer : Option (BitVec 1024 × Bool)) : Option (State × BitVec 1024 × Bool) :=
  match answer with
  | some (v, p) => some (s, v, p)
  | none =>
    match (if r.pkg = s.pkg.toNat then tblGet? (dieAt s r.die).rdc r.line else none) with
    | some x => some (s, x.data, x.poison)
    | none => (homeData s r.line).map (fun x => (x.1, x.2, false))

/-- Apply a transition with the answers it has collected. -/
def transition (s : State) (r : CmpReq) (answer : Option (BitVec 1024 × Bool)) : State :=
  let l := r.line
  let m := metaOf s l
  match r.kind with
  | .read =>
    (match m.st, answer with
     | .I, _ => (match homeData s l with
        | some (s1, v) => grant (setMeta s1 l (ownedBy .E r)) r .E v false
        | none => s)
     | .S, _ => (match homeData s l with
        | some (s1, v) => grant (setMeta s1 l (addSharer s m r.pkg)) r .S v false
        | none => s)
     | .E, none => (match homeData s l with
        | some (s1, v) => grant (setMeta s1 l (addSharer s (ownerShares s m) r.pkg)) r .S v false
        | none => s)
     | .O, none => (match homeData s l with
        | some (s1, v) => grant (setMeta s1 l (addSharer s m r.pkg)) r .S v false
        | none => s)
     | .M, none => (match homeData s l with
        | some (s1, v) => grant (setMeta s1 l (addSharer s (ownerShares s m) r.pkg)) r .S v false
        | none => s)
     | .broken, _ => s
     | .poisoned, _ => s
     | _, some (v, p) => grant (setMeta s l (addSharer s { m with st := .O } r.pkg)) r .S v p)
  | .own =>
    if m.st = .broken ∨ m.st = .poisoned then s
    else
      (match ownData s r answer with
       | some (s1, v, p) => grant (setMeta s1 l (ownedBy .M r)) r .M v p
       | none => s)
  | .homeLoad =>
    if m.st = .E ∨ m.st = .M ∨ m.st = .O then
      let s1 := setMeta s l (ownerShares s m)
      match answer with
      | some (v, p) => writeHome s1 l v p
      | none => s1
    else s
  | .homeStore =>
    if m.st = .broken ∨ m.st = .poisoned then s
    else
      let s1 := setMeta s l LineMeta.idle
      match answer with
      | some (v, p) => writeHome s1 l v p
      | none => s1

/-! ### Lines homed on another package (06 R121, R128; log entry 5) -/

/-- A copy of a line in the caches of this package, with its poison: any copy holds the current value. -/
def localCopy (s : State) (l : Nat) : Option (BitVec 1024 × Bool) :=
  s.dies.toList.findSome? (fun d =>
    match tblGet? d.rdc l, tblGet? d.wbuf l with
    | some x, _ => some (x.data, x.poison)
    | none, some b => some (b.data, b.poison)
    | none, none => none)

/-- A copy that a read elsewhere leaves: dirty as O, clean as S. -/
def RdcLine.shared (x : RdcLine) : RdcLine := { x with st := if x.st = .M ∨ x.st = .O then .O else .S }

/-- Every copy of a line in the remote-data caches of this package becomes a shared one. -/
def shareCopies (s : State) (l : Nat) : State :=
  { s with dies := s.dies.map (fun d => match tblGet? d.rdc l with | some x => { d with rdc := tblSet d.rdc l x.shared } | none => d) }

/-- A request of this package's cache to a home on another package: the answer brings the line, from a copy in this package where there is one, exclusive or
shared as that home decides; ownership ends every other copy. -/
def remoteGrant (s : State) (r : CmpReq) : State :=
  if r.pkg ≠ s.pkg.toNat ∨ pkgOfLine r.line ∈ s.lostPkgs then s
  else
    match localCopy s r.line with
    | some (v, p) =>
      if r.kind = .own then grant (dropCopies s r.line) r .M v p else grant (shareCopies s r.line) r .S v p
    | none =>
      grant (nextFresh s) r (if r.kind = .own then .M else if Config.freeBool s.fresh then .E else .S) (Config.freeLine s.fresh)
        (r.kind == .own && Config.freeBool (s.fresh + 1)) |> nextFresh

/-! ### Requests at the home (06 R126) -/

/-- Begin the transaction of a request: granted at once, or after the answers to its invalidations or recalls (06 R128). -/
def runTrans (s : State) (r : CmpReq) : State :=
  let ts := targetsOf s (metaOf s r.line) r
  if ts = [] then releaseNext (transition s r none) r.line
  else
    let d := dieOfLine r.line
    let y := dieAt s d
    ts.foldl (fun s t => later s .invalidation (.two r.line t))
      (setDie s d { y with trans := tblSet y.trans r.line { req := r, awaiting := ts, answer := none } })

/-- The request that a cache has sent for a line. -/
def sentReq (s : State) (line pkg die : Nat) (kind : ReqKind) : CmpReq :=
  let r : CmpReq := { line := line, kind := kind, pkg := pkg, die := die }
  if pkg = s.pkg.toNat then ((dieAt s die).sent.find? (fun x => x.line == line && x.kind == kind)).getD r else r

/-- A request of a cache has been served: it is no longer sent nor held, and its beat has been performed. -/
def served (s : State) (r : CmpReq) : State :=
  let s1 := unhold s r
  if r.pkg = s.pkg.toNat then
    (let y := dieAt s1 r.die
     dropBeats (setDie s1 r.die { y with sent := y.sent.filter (fun x => !(x.line == r.line && x.kind == r.kind)) }) r.agent r.line)
  else s1

/-- The requester has the line already, or is writing it back. -/
def hasCopy (s : State) (r : CmpReq) : Bool :=
  r.pkg == s.pkg.toNat &&
    ((tblGet? (dieAt s r.die).rdc r.line).any (fun x => r.kind == .read || x.st == .E || x.st == .M) ||
      (tblGet? (dieAt s r.die).wbuf r.line).isSome)

/-- The path of a request, while a port carries it. -/
def reqPath (s : State) (r : CmpReq) : Option (List Nat) := pathTo s r.part r.oc r.die r.line

/-- A request of a cache has reached its home: it is held there already, or its beats have crossed; one of another package comes over a port that is UP, and waits
while a checkpoint is saved (03 R72 to R74; 22 R411; 23 R420). -/
def reqArrives (s : State) (r : CmpReq) : State × Bool :=
  if homedHere s r.line && (dieAt s (dieOfLine r.line)).cmp.any (·.same r) then (s, true)
  else if r.pkg ≠ s.pkg.toNat then (s, linkUp s r.pkg && s.ctl.ck != 1)
  else if hasBeat s r.agent r.line then leaveBeats s r.agent r.line
  else (s, (reqPath s r).any (fun path => path.all (fun d => clearWay s r.die d (r.oc % 4))))

/-- A request that is the next of its line at its home: its transaction begins when the home has the line and its metadata. A line that is not granted to a cache
leaves its requester to ask again (06 R126, R130, R136). -/
def takeReq (s : State) (r : CmpReq) : State :=
  if hasCopy s r then releaseNext (served s r) r.line
  else
    match fetchLine s r.line (blockKey s (blockOfLine r.line)) false with
    | .error (s1, .busy) => nextCycle s1 (reqRow r) (reqArg r)
    | .error (s1, _) => releaseNext (served s1 r) r.line
    | .ok (s1, _) =>
      let s2 := served s1 r
      if (metaOf s2 r.line).st = .broken ∨ (metaOf s2 r.line).st = .poisoned then releaseNext s2 r.line else runTrans s2 r

/-- A request of a cache goes to its home: held there behind a running transaction, behind earlier requests and behind the record of a read that is still to be
written (21 R387), it begins when the data that it brings may cross too. A home on another package answers at once. -/
def beginReq (s : State) (r : CmpReq) : State :=
  if !homedHere s r.line && s.lostPkgs.contains (pkgOfLine r.line) then served s r
  else
    let a := reqArrives s r
    if !a.2 then nextCycle a.1 (reqRow r) (reqArg r)
    else if !homedHere s r.line then
      (if (reqPath s r).all (wayBack a.1 r.die r.oc) then remoteGrant (served a.1 r) r else nextCycle a.1 (reqRow r) (reqArg r))
    else
      let s1 := hold a.1 r
      if transOn s1 r.line || !(headOf s1 r.line).any (·.same r) then s1
      else if recordOwed s1 r.line || !grantClear s1 r then nextCycle s1 (reqRow r) (reqArg r)
      else takeReq s1 r

/-- The line's state makes an access at the home wait for a transaction (06 Table 6-5). -/
def needsTrans (st : LineSt) (write : Bool) : Bool :=
  match st with
  | .E => true
  | .M => true
  | .O => true
  | .S => write
  | _ => false

/-- The transaction that the oldest held access at a home needs begins. -/
def beginHome (s : State) (line : Nat) (kind : ReqKind) : State :=
  let r : CmpReq := { line := line, kind := kind, pkg := s.pkg.toNat, die := dieOfLine line }
  if !homedHere s line || transOn s line || !needsTrans (metaOf s line).st (kind == .homeStore) then s
  else
    match headOf s line with
    | none => runTrans s r
    | some x => if x.kind = kind then runTrans s x else s

/-- COHERENCE_READ (06 R127). -/
def execCoherenceRead (s : State) : Out := with3 s fun line rpkg rdie => .next (beginReq s (sentReq s line rpkg rdie .read))

/-- OWNERSHIP_REQUEST (06 R127). -/
def execOwnershipRequest (s : State) : Out := with3 s fun line rpkg rdie => .next (beginReq s (sentReq s line rpkg rdie .own))

/-- HOME_LOAD: the transaction a load at the home needs (06 R127). -/
def execHomeLoad (s : State) : Out := with1 s fun line => .next (beginHome s line .homeLoad)

/-- HOME_STORE_OR_ATOMIC: the transaction a store or atomic at the home needs (06 R127). -/
def execHomeStoreOrAtomic (s : State) : Out := with1 s fun line => .next (beginHome s line .homeStore)

/-- A request that keeps copies alive as shared ones. -/
def ReqKind.recalls : ReqKind → Bool
  | .read => true
  | .homeLoad => true
  | _ => false

/-- A die of this package answers: its dirty data, from its cache or its write-back buffer, or nothing (06 R128, R129). -/
def dieAnswer (s : State) (l t : Nat) (kind : ReqKind) : State × Option (BitVec 1024 × Bool) :=
  let y := dieAt s t
  match tblGet? y.rdc l, tblGet? y.wbuf l with
  | some x, _ =>
    let dirty := x.st == .M || x.st == .O
    let a := if dirty then some (x.data, x.poison) else none
    if !kind.recalls then (eraseRdc s t l, a)
    else (setRdc s t l { x with st := if dirty && kind == .read then .O else .S }, a)
  | none, some b => (s, some (b.data, b.poison))
  | none, none => (s, none)

/-- A holder on another package answers: the owner dirty where the home says so, or as it chooses (log entry 5). -/
def farAnswer (s : State) (m : LineMeta) (t : Nat) : State × Option (BitVec 1024 × Bool) :=
  if t < 256 then (s, none)
  else if m.st = .E ∧ Config.freeBool s.fresh = false then (nextFresh s, none)
  else (nextFresh (nextFresh s), some (Config.freeLine s.fresh, Config.freeBool (s.fresh + 1)))

/-- The home learns that a line's data is lost: ST := Broken, the transaction ends, every copy is discarded, the record is written (21 R389). -/
def breakLine (s : State) (l code : Nat) : State :=
  let s1 := setMeta (dropTrans (dropCopies s l) l) l { LineMeta.idle with st := .broken }
  releaseNext
    (keyRec s1 (dieOfLine l) (blockKey s (blockOfLine l))
      (recordNow s 0x09 (placeOf s (homePos l) none) (BitVec.ofNat 64 (l * 128)) (BitVec.ofNat 64 code))) l

/-- The owner named by a target is on a package that is lost (21 R394). -/
def targetLost (s : State) (t : Nat) : Bool := decide (256 ≤ t) && s.lostPkgs.contains (t - 256)

/-- A home on another package invalidates or recalls a copy, as it chooses; its message comes over a port that is UP. -/
def farInvalidate (s : State) (l t : Nat) : State :=
  if !linkUp s (pkgOfLine l) then nextCycle s .invalidation (.two l t)
  else
  let c := (Config.freeWord s.fresh).toNat % 3
  let s1 := nextFresh s
  match tblGet? (dieAt s t).rdc l with
  | none => s1
  | some x => if c = 0 then eraseRdc s1 t l else setRdc s1 t l (if c = 1 then x.shared else { x with st := .S })

/-- The packages of a target: of a HINT bit every one that the partition's routing names and that is not lost, or the owner's. -/
def targetPkgs (s : State) (r : CmpReq) (t : Nat) : List Nat :=
  if t < 8 then []
  else if t < 256 then
    (match r.part with
     | some p => ((partAt s p).routes.map (·.1)).filter (fun q => q / 16 == t - 8 && !s.lostPkgs.contains q)
     | none => [])
  else [t - 256]

/-- The path of an invalidation or recall from a die to a target: another die, or the piers to its packages; none while no port carries it. A message that no
partition's access has caused takes no partition's route (log entry 95). -/
def targetPath (s : State) (r : CmpReq) (d t : Nat) : Option (List Nat) :=
  if t < 8 then some (if t = d then [] else [t])
  else if r.part = none then some []
  else
    (targetPkgs s r t).foldl (fun acc q =>
      acc.bind (fun path => (pierOf s r.part q r.oc).map (fun j => path ++ (if portDie j = d then [] else [portDie j]) ++ [256 + q]))) (some [])

/-- For whom a message that a request has caused is sent (03 R72; 19 R349). -/
def CmpReq.who (r : CmpReq) (ag : Agent) : Who :=
  { pos := homePos r.line, slot := none, quay := homePos r.line, asid := 0, root := 0, sup := true, part := r.part, cls := r.cls, ag := ag, oc := r.oc }

/-- Replace the transaction of a line. -/
def setTrans (s : State) (l : Nat) (x : Trans) : State :=
  let y := dieAt s (dieOfLine l)
  setDie s (dieOfLine l) { y with trans := tblSet y.trans l x }

/-- The answer of a target crosses back to the home; after the last the transaction ends (06 R126, R128). It is one beat, from a die in its hawser, and from other
packages by the hawsers from their piers (03 R72, R74; log entry 95). -/
def answerMoves (s : State) (l t : Nat) (x : Trans) : State :=
  let d := dieOfLine l
  let w := x.req.who (.answer l t)
  let path := (targetPath s x.req d t).getD []
  let r :=
    if t < 8 then travel s w t (if t = d then [] else [d]) l (beatUnits path 1)
    else if wayBack s d x.req.oc path then pay s w.part w.cls w.ag l (beatUnits path 1)
    else (s, false)
  if !r.2 then nextCycle r.1 .invalidation (.two l t)
  else
    let x1 := { x with flying := x.flying.erase t }
    let s1 := setTrans (dropBeats r.1 w.ag l) l x1
    if x1.awaiting = [] ∧ x1.flying = [] then later s1 .transactionEnd (.one l) else s1

/-- An invalidation or recall is answered by one target, and the answer sets out. -/
def answered (s : State) (l t : Nat) (x : Trans) : State :=
  let a := if t < 8 then dieAnswer s l t x.req.kind else farAnswer s (metaOf s l) t
  let x1 : Trans :=
    { x with awaiting := x.awaiting.erase t, flying := x.flying ++ [t], answer := match a.2 with | some v => some v | none => x.answer }
  answerMoves (setTrans a.1 l x1) l t x1

/-- A target holds a line that ownership was granted for, for a store that has still to be performed (06 R126). -/
def owedAt (s : State) (l t : Nat) : Bool := decide (t < 8) && (tblGet? (dieAt s t).rdc l).any (owedLive s)

/-- A possible holder receives an invalidation or recall, which crosses in one beat, and answers; and its answer goes on (06 R128, R129; 21 R394). It waits while its
beat is held or the budget of whoever caused it is exhausted, and while a store that ownership was granted for has still to be performed (06 R126). -/
def invalidate (s : State) (l t : Nat) : State :=
  if !homedHere s l then (if owedAt s l t then nextCycle s .invalidation (.two l t) else farInvalidate s l t)
  else
    match transAt s l with
    | none => s
    | some x =>
      if x.flying.contains t then answerMoves s l t x
      else if !x.awaiting.contains t then s
      else if targetLost s t then breakLine s l 3
      else
        match targetPath s x.req (dieOfLine l) t with
        | none => nextCycle s .invalidation (.two l t)
        | some path =>
          let w := x.req.who (.inval l t)
          let r := travel s w (dieOfLine l) path l (beatUnits path 1)
          if !r.2 || owedAt s l t then nextCycle r.1 .invalidation (.two l t) else answered (dropBeats r.1 w.ag l) l t x

/-- INVALIDATION. -/
def execInvalidation (s : State) : Out := with2 s fun line target => .next (invalidate s line target)

/-- TRANSACTION_END: the last answer has arrived, and what is granted may cross; the metadata changes and the next held request is released (06 R126, R127). -/
def endTrans (s : State) (l : Nat) : State :=
  match transAt s l with
  | none => s
  | some x =>
    if x.awaiting ≠ [] ∨ x.flying ≠ [] then s
    else if !grantClear s x.req then nextCycle s .transactionEnd (.one l)
    else releaseNext (transition (dropTrans s l) x.req x.answer) l

/-- TRANSACTION_END. -/
def execTransactionEnd (s : State) : Out := with1 s fun line => .next (endTrans s line)

/-- A whole transaction at once, for what is written back in one instant: begun, answered and ended; an owner on a lost package leaves the line Broken
(21 R394). -/
def settleLine (s : State) (r : CmpReq) : State :=
  let m := metaOf s r.line
  if (targetsOf s m r).any (targetLost s) then breakLine s r.line 3
  else
  let s1 := (targetsOf s m r).foldl (fun (acc : State × Option (BitVec 1024 × Bool)) t =>
    let a := if t < 8 then dieAnswer acc.1 r.line t r.kind else farAnswer acc.1 m t
    (a.1, match a.2 with | some v => some v | none => acc.2)) (s, none)
  transition s1.1 r s1.2

/-! ### Evictions (06 R129) -/

/-- A write-back reaches the home: M becomes I and O becomes S with the remaining sharers; a buffer whose data has already been passed on changes
nothing (06 R129). -/
def writeBack (s : State) (pkg die l : Nat) (b : LineBuf) : State :=
  let m := metaOf s l
  if m.opkg.toNat = pkg ∧ m.odie.toNat = die ∧ (m.st = .M ∨ m.st = .E ∨ m.st = .O) then
    let m' : LineMeta := if m.st = .O then { m with st := .S, opkg := 0, odie := 0 } else LineMeta.idle
    writeHome (setMeta s l m') l b.data b.poison
  else s

/-- For whom a cache writes a line back: the access that last wrote it (03 R72; 19 R349). -/
def Origin.who (o : Origin) (die line : Nat) : Who :=
  { pos := homePos line, slot := none, quay := homePos line, asid := 0, root := 0, sup := true, part := o.part, cls := o.cls, ag := .wback die line, oc := o.oc }

/-- A cache of this package writes back: two beats of data cross to the home, where the write-back waits behind a running transaction, and one of acknowledgement
comes back; then the buffer frees (06 R129; 03 R72 to R74; log entry 95). -/
def ownWriteBack (s : State) (die line : Nat) : State :=
  match tblGet? (dieAt s die).wbuf line with
  | none => s
  | some b =>
    match if b.orig.part = none then some [] else pathTo s b.orig.part b.orig.oc die line with
    | none => nextCycle s .writeBackAcknowledgement (.two die line)
    | some path =>
      let w := b.orig.who die line
      let r := travel s w die path line (beatUnits path 3)
      if !r.2 || !wayBack r.1 die w.oc path || (homedHere s line && transOn s line) then nextCycle r.1 .writeBackAcknowledgement (.two die line)
      else
        let s1 := dropBeats r.1 w.ag line
        let s2 := if homedHere s line then writeBack s1 s.pkg.toNat die line b else s1
        let y := dieAt s2 die
        setDie s2 die { y with wbuf := tblErase y.wbuf line }

/-- A cache of another package writes a line homed here back, with the data and the poison bit it holds (log entry 5), over a port that is UP and not while a
checkpoint is saved (22 R410; 23 R420). -/
def farWriteBack (s : State) (pkg die line : Nat) : State :=
  if !homedHere s line || pkg == s.pkg.toNat then s
  else if transOn s line || !linkUp s pkg || s.ctl.ck == 1 then nextCycle s .writeBackAcknowledgement (.three pkg die line)
  else
    nextFresh (nextFresh (writeBack s pkg die line { data := Config.freeLine s.fresh, dirty := true, poison := Config.freeBool (s.fresh + 1) }))

/-- WRITE_BACK_ACKNOWLEDGEMENT: of a die of this package, or of a package and its die. -/
def execWriteBackAcknowledgement (s : State) : Out :=
  match s.arg with
  | .two die line => .next (ownWriteBack s die line)
  | .three pkg die line => .next (farWriteBack s pkg die line)
  | _ => .next s

/-! ### One access to one line (07 R142) -/

/-- The kinds of access that differ in their point of coherence (07 Table 7-1). -/
inductive LKind where
  | load | store | atomic
  deriving DecidableEq, Repr

/-- What an attempt at a line answers: performed with the old data and poison, not yet, or refused. -/
inductive LAns where
  | ok (s : State) (old : BitVec 1024) (poison poisonedLine : Bool)
  | wait (s : State)
  | failed (s : State)
  | frozen (s : State)
  | broken (s : State)

/-- A cache asks for a line once: the request is charged with the line it brings, and sets out. It waits while no pier is UP or the budget is exhausted
(19 R349, R350; 22 R411; log entry 95). -/
def askLine (s : State) (w : Who) (e l : Nat) (kind : ReqKind) : State :=
  let r : CmpReq :=
    { line := l, kind := kind, pkg := s.pkg.toNat, die := e, agent := w.ag, oc := w.oc, part := w.part, cls := w.cls, key := w.key }
  if (dieAt s e).sent.any (fun x => x.line == l && x.kind == kind) then s
  else
    match pathTo s w.part w.oc e l with
    | none => s
    | some path =>
      let p := pay s w.part w.cls w.ag l ((if homedHere s l then [(1, 1)] else []) ++ beatUnits path 3)
      if !p.2 then p.1
      else
        let s2 := enterPath p.1 e w.oc path w.part w.ag l
        let y := dieAt s2 e
        later (setDie s2 e { y with sent := y.sent ++ [r] }) (reqRow r) (reqArg r)

/-- The transaction that an access at a home needs is asked for, once. -/
def askHome (s : State) (l : Nat) (write : Bool) : State :=
  let i : Instr := if write then .homeStoreOrAtomic else .homeLoad
  if s.agenda.contains (.event i (.one l)) then s else later s i (.one l)

/-- What an access writes: from the old data and its poison, the new data and whether poisoned data is stored; none writes nothing. -/
abbrev LineUpd := BitVec 1024 → Bool → Option (BitVec 1024 × Bool)

/-- The seal entry or metadata of a line's block refuses an access under a key slot (06 R134, R136, R138). -/
def sealRefuses (s : State) (l k : Nat) (write : Bool) : Option SealBad :=
  match entOf s (blockOfLine l) with
  | some e => if e.failed || e.key.toNat != k then some .failed else if write && e.frozen then some .frozen else none
  | none => if blockKey s (blockOfLine l) != k then some .failed else none

/-- A hit in the remote-data cache of the requester's die: any copy serves a load, E and M a store (06 R121). The store that ownership was granted for is
then performed. A copy with its poison bit set is no Poisoned line (06 R129, R130). -/
def rdcAccess (s : State) (e l : Nat) (w : Who) (x : RdcLine) (upd : LineUpd) : LAns :=
  let owed := if x.owed = some w.ag then none else x.owed
  match upd x.data false with
  | none => .ok s x.data x.poison false
  | some (v, p) =>
    .ok (setRdc s e l { st := .M, data := v, poison := x.poison || p, owed := owed, orig := { oc := w.oc, part := w.part, cls := w.cls, key := w.key } })
      x.data x.poison false

/-- The request of an access that the home quay performs itself. -/
def homeReq (s : State) (w : Who) (l : Nat) (write : Bool) : CmpReq :=
  { line := l, kind := if write then .homeStore else .homeLoad, pkg := s.pkg.toNat, die := dieOfLine l, agent := w.ag, oc := w.oc, part := w.part, cls := w.cls }

/-- An access waits for its turn at a home, in the comparator. -/
def waitHome (s : State) (w : Who) (l : Nat) (write : Bool) : State := hold s (homeReq s w l write)

/-- An access performed at the home quay of a line of this package, when it is the oldest request for the line and its answer may cross too (06 R119, R126, R127,
R130). It is charged when it sets out: the quay's cycle, and a beat and its answer where it comes from another die. -/
def homeAccess (s : State) (w : Who) (e l k : Nat) (kind : LKind) (upd : LineUpd) : LAns :=
  let path := if dieOfLine l = e then [] else [dieOfLine l]
  let write := kind != .load
  let r := if heldFor s l w.ag then (s, true) else travel s w e path (homeMsg l) ((1, 1) :: beatUnits path 2)
  let s1 := r.1
  if !r.2 then .wait s1
  else if !homeTurn s1 l w.ag || !wayBack s1 e w.oc path then .wait (waitHome s1 w l write)
  else
      match fetchLine s1 l k write with
      | .error (s2, .failed) => .failed s2
      | .error (s2, .frozen) => .frozen s2
      | .error (s2, .busy) => .wait (waitHome s2 w l write)
      | .ok (s2, x) =>
        let st := (metaOf s2 l).st
        let psn := st == .poisoned
        if needsTrans st write then .wait (askHome (waitHome s2 w l write) l write)
        else
          match upd x.data psn with
          | none => .ok s2 x.data psn psn
          | some (v, p) => .ok (let s3 := putLine s2 l v; if p then markPoisoned s3 l 1 else s3) x.data psn psn

/-- What the home of a line of another package says of it to one access: nothing against it, its block failed, frozen, the line Poisoned or Broken; a free
choice (06 R130, R136, R138; log entry 5). -/
def farSays (s : State) : Nat := (Config.freeWord s.fresh).toNat % 8

/-- What the home of a line of another package answers to an access that has crossed to it: its block failed or is frozen, the line is Broken or Poisoned, or its
data, which is what a cache of this package holds, or free. -/
def farPerformed (s : State) (far l : Nat) (kind : LKind) : LAns :=
  let s1 := dropCopies s l
  let v := Config.freeLine s.fresh
  if far = 1 then .failed s
  else if far = 2 ∧ kind ≠ .load then .frozen s
  else if far = 3 then .broken s1
  else if far = 4 ∨ kind ≠ .atomic then .ok (nextFresh s1) v true true
  else
    let old := (localCopy s l).getD (v, Config.freeBool (s.fresh + 1))
    .ok (nextFresh (nextFresh s1)) old.1 old.2 false

/-- An access to a line homed on another package (06 R121, R127, R130, R136, R138): served by the cache of its die, which asks for the line, or performed at that
home, once a port carries it there and back. -/
def farAccess (s0 : State) (w : Who) (e l : Nat) (kind : LKind) (upd : LineUpd) : LAns :=
  let s := nextFresh s0
  let write := kind != .load
  let path := pathTo s w.part w.oc e l
  let sent := hasBeat s w.ag (homeMsg l)
  let far := if path.isNone && !sent then 0 else farSays s0
  if s.lostPkgs.contains (pkgOfLine l) then .broken s
  else if kind = .atomic ∨ sent = true ∨ (1 ≤ far ∧ far ≤ 4 ∧ (write = true ∨ far ≠ 2)) then
    let r := match path with
      | none => if sent then leaveBeats s w.ag (homeMsg l) else (s, false)
      | some p => travel s w e p (homeMsg l) (beatUnits p 2)
    if !r.2 || !wayBack r.1 e w.oc (path.getD []) then .wait r.1 else farPerformed r.1 far l kind
  else
    match tblGet? (dieAt s e).rdc l with
    | some x => if !write || x.st == .E || x.st == .M then rdcAccess s e l w x upd else .wait (askLine s w e l .own)
    | none => .wait (if (tblGet? (dieAt s e).wbuf l).isSome then s else askLine s w e l (if write then .own else .read))

/-- An access of an agent from die `e` to line `l` under key slot `k`, at its point of coherence (07 Table 7-1). -/
def lineAttempt (s : State) (w : Who) (e l k : Nat) (kind : LKind) (upd : LineUpd) : LAns :=
  if !homedHere s l then farAccess s w e l kind upd
  else if (metaOf s l).st = .broken then .broken s
  else if kind = .atomic ∨ e = dieOfLine l ∨ (metaOf s l).st = .poisoned then homeAccess s w e l k kind upd
  else
    match sealRefuses s l k (kind != .load), tblGet? (dieAt s e).rdc l with
    | some .failed, some _ => .failed s
    | some .frozen, some _ => .frozen s
    | _, some x =>
      if kind = .load ∨ x.st = .E ∨ x.st = .M then rdcAccess s e l w x upd else .wait (askLine s w e l .own)
    | _, none =>
      if (tblGet? (dieAt s e).wbuf l).isSome then .wait s
      else
        match fetchLine s l k (kind != .load) with
        | .error (s1, .failed) => .failed s1
        | .error (s1, .frozen) => .frozen s1
        | .error (s1, .busy) => .wait s1
        | .ok (s1, _) => .wait (askLine s1 w e l (if kind = .load then .read else .own))

/-- One access to one line under key slot `k`; once it is answered, the agent's places in hawsers and comparators are free. -/
def lineAccess (s : State) (w0 : Who) (e l k : Nat) (kind : LKind) (upd : LineUpd) : LAns :=
  let w := { w0 with key := some k }
  match lineAttempt s w e l k kind upd with
  | .ok s1 v p q => .ok (settled s1 l w.ag) v p q
  | .failed s1 => .failed (settled s1 l w.ag)
  | .frozen s1 => .frozen (settled s1 l w.ag)
  | .broken s1 => .broken (settled s1 l w.ag)
  | .wait s1 => .wait s1

end Sys2Proof.Machine
end

