-- ==== Sys2Proof/Machine/Translate.lean ====
section
/-!
DEFINITION. Translation, and one single-copy-atomic access of any agent to memory (06 R114 to R118; 07 R140, R142; 19 R349, R350;
20 R360 to R376; 21 R387).
-/
namespace Sys2Proof.Machine

open Sys2Proof

/-! ### Page-table entries (20 R361 to R363) -/

/-- An entry is malformed at a level (20 R363). -/
def pteMalformed (e : BitVec 64) (lvl : Nat) : Bool :=
  bitsOf e 55 52 != 0 ||
  (if e.getLsbD 1 then
    lvl == 0 || e.getLsbD 15 || e.getLsbD 7 || e.getLsbD 6 || bitsOf e (45 - 10 * lvl) 16 != 0 && lvl < 3 || (e.getLsbD 3 && !e.getLsbD 2)
  else lvl == 3 || bitsOf e 12 2 != 0)

/-- The answer of a walk. -/
inductive WalkAns where
  | leaf (s : State) (pte : BitVec 64) (lg : Nat)
  | absent (s : State)
  | migrating (s : State)
  | malformed (s : State)
  | wait (s : State)

/-- Bits of a line from a byte offset. -/
def sliceLine (v : BitVec 1024) (off n : Nat) : Nat := v.toNat / 2 ^ (8 * off) % 2 ^ (8 * n)

/-- The walk from a table, `n` levels left (20 R361, R364): each entry is one acquire load under the partition's table key slot. A read that meets a Broken line
ends the walk as MALFORMED and raises COHERENCE_LOST with the entry's address at each such walk: R364 names only Poisoned lines and failed blocks, and this is
the model's choice (log entry 120). -/
def walkFrom (s : State) (w : Who) (va : Nat) : Nat → Nat → WalkAns
  | 0, _ => .malformed s
  | n + 1, t =>
    let lvl := 3 - n
    let a := t + 8 * (va / 2 ^ (46 - 10 * lvl) % 1024)
    let tkey := (match w.part with | some p => (partAt s p).tkey.toNat | none => 0)
    if !populated s w.part a then .malformed s
    else
      match lineAccess s w (dieOf w.quay) (lineOf a) tkey .load (fun _ _ => none) with
      | .wait s1 => .wait s1
      | .failed s1 => .malformed (raiseFor s1 w cSEALTAG (BitVec.ofNat 64 a))
      | .frozen s1 => .malformed s1
      | .broken s1 => .malformed (raiseFor s1 w cCOHLOST (BitVec.ofNat 64 a))
      | .ok s1 v psn _ =>
        if psn then .malformed (raiseFor s1 w cPOISON (BitVec.ofNat 64 a))
        else
          let e : BitVec 64 := BitVec.ofNat 64 (sliceLine v (a % 128) 8)
          if !e.getLsbD 0 then (if e.getLsbD 7 then .migrating s1 else .absent s1)
          else if pteMalformed e lvl then .malformed s1
          else if e.getLsbD 1 then .leaf s1 e (46 - 10 * lvl)
          else
            match n with
            | 0 => .malformed s1
            | m + 1 => walkFrom s1 w va (m + 1) (bitsOf e 51 13 * 2 ^ 13)

/-- The walk that a miss of an agent on an address takes part in: misses of one quay on one page share one (20 R367). -/
def walkRef (w : Who) (va : Nat) : WalkRef := { asid := w.asid, root := w.root, granule := va % 2 ^ 56 / 2 ^ 16 }

/-- The walk for the page of a miss that is under way, or whose outcome its agent has still to learn. -/
def walkAt (s : State) (w : Who) (va : Nat) : Option WalkRun :=
  (quayAt s w.quay).walks.find? (fun x => x.page == walkRef w va && (x.out.isNone || x.agents.contains w.ag))

/-- Replace a walk of a quay. -/
def setWalk (s : State) (quay : Nat) (old new : WalkRun) : State :=
  let q := quayAt s quay
  setQuay s quay { q with walks := q.walks.map (fun x => if x = old then new else x) }

/-- A walk starts, and is charged one walker slot, unless one for the page is under way, which the miss then shares; none where the budget is exhausted
(19 R349; 20 R367). -/
def startWalk (s : State) (w : Who) (va : Nat) : Option State :=
  match walkAt s w va with
  | some x => some (if x.agents.contains w.ag then s else setWalk s w.quay x { x with agents := x.agents ++ [w.ag] })
  | none =>
    (charge s w.part 2 w.cls 1).map (fun s1 =>
      let q := quayAt s1 w.quay
      setQuay s1 w.quay { q with walks := q.walks ++ [{ page := walkRef w va, agents := [w.ag], out := none }] })

/-- A walk has ended, in a leaf, which the TLB then holds, or with an outcome that the other misses that share it have still to learn. -/
def endWalk (s : State) (w : Who) (va : Nat) (out : Option WalkEnd) : State :=
  let q := quayAt s w.quay
  let mine := fun (x : WalkRun) => x.page == walkRef w va && x.out.isNone
  setQuay s w.quay
    { q with
      walks := q.walks.filterMap (fun x =>
        if !mine x then some x
        else if out.isNone || (x.agents.erase w.ag).isEmpty then none else some { x with agents := x.agents.erase w.ag, out := out }) }

/-- Some misses on a page have learnt the outcome of their walk. -/
def learnt (s : State) (w : Who) (va : Nat) (ags : List Agent) : State :=
  let q := quayAt s w.quay
  setQuay s w.quay
    { q with
      walks := (q.walks.filter (fun x => x.page == walkRef w va && x.out.isSome)).foldl (fun ws x =>
        let left := x.agents.filter (fun a => !ags.contains a)
        if left.isEmpty then ws.erase x else ws.map (fun y => if y = x then { x with agents := left } else y)) q.walks }

/-- The answer that an outcome is. -/
def WalkEnd.answer (s : State) : WalkEnd → WalkAns
  | .absent => .absent s
  | .migrating => .migrating s
  | .malformed => .malformed s

/-- A walk from an agent's root, or the outcome of the one that it has shared (20 R361, R367). -/
def walk (s : State) (w : Who) (va : Nat) : WalkAns :=
  match (walkAt s w va).bind (·.out) with
  | some e => e.answer (learnt s w va [w.ag])
  | none =>
    match startWalk s w va with
    | none => .wait s
    | some s1 =>
      match walkFrom s1 w va 4 (bitsOf w.root 51 13 * 2 ^ 13) with
      | .leaf s2 pte lg => .leaf (endWalk s2 w va none) pte lg
      | .absent s2 => .absent (endWalk s2 w va (some .absent))
      | .migrating s2 => .migrating (endWalk s2 w va (some .migrating))
      | .malformed s2 => .malformed (endWalk s2 w va (some .malformed))
      | .wait s2 => .wait s2

/-! ### The TLB (20 R366) -/

/-- An entry matches an access. -/
def tlbMatch (e : TlbEnt) (va : Nat) (asid : BitVec 9) : Bool :=
  va / 2 ^ e.lg == e.vbase / 2 ^ e.lg && (e.leaf.getLsbD 5 || e.asid == asid)

/-- What a leaf says of an address: its physical address, key slot and permissions (20 R376). -/
def leafSays (e : TlbEnt) (va : Nat) : Nat × Nat × Nat :=
  (bitsOf e.leaf 51 e.lg * 2 ^ e.lg + va % 2 ^ e.lg, bitsOf e.leaf 14 8, bitsOf e.leaf 5 2)

/-- The entries that match an access. -/
def tlbMatches (es : List TlbEnt) (va : Nat) (asid : BitVec 9) : List TlbEnt := es.filter (fun e => tlbMatch e va asid)

/-- Of entries in the order in which they were filled, a later one is of a smaller page than an earlier one and differs from it for an address. -/
def splitDiffers (va : Nat) : List TlbEnt → Bool
  | [] => false
  | e :: m => m.any (fun x => decide (x.lg < e.lg) && leafSays x va != leafSays e va) || splitDiffers va m

/-- A large page that is being split is held beside small entries filled since, which differ from it for an address: the results of an access are undefined. A
stale small entry under a leaf filled later is no such window: it wins (20 R376). -/
def tlbDiffers (es : List TlbEnt) (va : Nat) (asid : BitVec 9) : Bool := splitDiffers va (tlbMatches es va asid)

/-- The entry that translates an access: the smallest page; of several of one size, an unpredictable one (20 R366). -/
def tlbFind (s : State) (es : List TlbEnt) (va : Nat) (asid : BitVec 9) : Option TlbEnt :=
  let m := tlbMatches es va asid
  match m.filter (fun e => e.lg == (m.map (·.lg)).foldl min 64) with
  | [] => none
  | [e] => some e
  | found => found[(Config.freeWord s.fresh).toNat % found.length]?

/-- The capacity of a TLB (20). -/
def tlbSize : Nat := 2048

/-- Hold a leaf in a quay's TLB; when full, some entry is replaced (20 R366). -/
def tlbFill (s : State) (quay : Nat) (e : TlbEnt) : State :=
  let q := quayAt s quay
  if q.tlb.contains e then s
  else setQuay s quay { q with tlb := (q.tlb ++ [e]).drop (q.tlb.length + 1 - tlbSize) }

/-- What an access needs of its page (20 R365). -/
structure Need where
  r : Bool
  w : Bool
  deriving DecidableEq, Repr

/-- The answer of a translation for an access (20 Table 20-5). -/
inductive TransAns where
  | leaf (s : State) (pa key : Nat)
  | refused (s : State)
  | absent (s : State)
  | migrating (s : State)
  | wait (s : State)

/-- The partition owns a key slot or has been granted it (22 R401). -/
def mayUseKey (s : State) (part : Option Nat) (k : Nat) : Bool :=
  match part with
  | some p => (keyUsers s k).contains p
  | none => false

/-- The permission check of a leaf (20 R365; 22 R401; 06 R115). -/
def permit (s : State) (w : Who) (need : Need) (va : Nat) (e : BitVec 64) (lg : Nat) : TransAns :=
  let pa := bitsOf e 51 lg * 2 ^ lg + va % 2 ^ lg
  let key := bitsOf e 14 8
  if (need.r && !e.getLsbD 2) || (need.w && !e.getLsbD 3) || (!w.sup && !e.getLsbD 4) || !mayUseKey s w.part key || !populated s w.part pa then
    .refused s
  else .leaf s pa key

/-- Translate an address at an agent's quay: from the TLB, or by a walk whose leaf the TLB then holds. -/
def translate (s : State) (w : Who) (need : Need) (va : Nat) : TransAns :=
  match tlbFind s (quayAt s w.quay).tlb va w.asid with
  | some e => permit s w need va e.leaf e.lg
  | none =>
    match walk s w va with
    | .leaf s1 pte lg =>
      permit (tlbFill s1 w.quay { vbase := va / 2 ^ lg * 2 ^ lg, lg := lg, asid := w.asid, leaf := pte }) w need va pte lg
    | .absent s1 => .absent s1
    | .migrating s1 => .migrating s1
    | .malformed s1 => .refused s1
    | .wait s1 => .wait s1

/-- The STVAL of PAGE_FAULT (20 R373). -/
def faultValue (va : Nat) (write : Bool) (asid : BitVec 9) : Word :=
  BitVec.ofNat 64 (va % 2 ^ 56 / 2 ^ 16 * 2 ^ 16 + (if write then 2 ^ 15 else 0) + asid.toNat)

/-- PAGE_FAULT, at most once for an ASID of a partition and a granule until it is next re-walked (20 R373). -/
def pageFault (s : State) (w : Who) (va : Nat) (write : Bool) : State :=
  match w.part with
  | none => s
  | some p =>
    let x := partAt s p
    let k := (w.asid.toNat, va % 2 ^ 56 / 2 ^ 16)
    if x.pfSeen.contains k then s
    else raiseEvent (setPart s p { x with pfSeen := k :: x.pfSeen }) p cPAGE (faultValue va write w.asid)

/-! ### Scratch and operand bank (06 R116 to R118; 08 R167) -/

/-- Some poison unit of `n` bytes from an offset is poisoned. -/
def unitsPoison (p : Mem) (off n : Nat) : Bool :=
  (List.range ((off + n - 1) / 64 + 1 - off / 64)).any (fun i => memGet p (off / 64 + i) != 0)

/-- The poison bits after a store of `n` bytes: set by poisoned data, cleared where one access writes all 64 bytes of a unit unpoisoned (08 R167). -/
def unitsStore (p : Mem) (off n : Nat) (whole poison : Bool) : Mem :=
  (List.range ((off + n - 1) / 64 + 1 - off / 64)).foldl (fun p i =>
    let u := off / 64 + i
    if poison then memSet p u 1
    else if whole && decide (off ≤ 64 * u ∧ 64 * u + 64 ≤ off + n) then memSet p u 0
    else p) p

/-- What a store or atomic writes: nothing, the bytes of `data` that `mask` names with their poison, or a refusal of the record (07 Table 7-7). -/
inductive Upd where
  | keep
  | put (data : Nat) (mask : Nat) (poison : Bool)
  | refuse (cause : Nat)
  deriving DecidableEq, Repr

/-- All bytes of an access. -/
def fullMask (n : Nat) : Nat := 2 ^ n - 1

/-- Some byte is written. -/
def anyByte (n mask : Nat) : Bool := mask % 2 ^ n != 0

/-! ### The local window (06 R116, R117) -/

/-- A region of the local window. -/
inductive Region where
  /-- scratch of the tile at `pos`, from an offset -/
  | scratch (pos off : Nat)
  | bank (pos off : Nat)
  | none
  deriving DecidableEq, Repr

/-- Two tiles lie in one task domain (02 R43). -/
def sameDomain (s : State) (p q : Nat) : Bool := (tileAt s p).dom.isSome && (tileAt s p).dom == (tileAt s q).dom

/-- The region that `n` bytes from a local-window address lie in, seen from a tile; a range that leaves its region, or a neighbour window that does not
serve, is none. -/
def regionOf (s : State) (pos va n : Nat) : Region :=
  let o := va % 2 ^ 56 - Config.localBase
  if o + n ≤ Config.scratchSize then .scratch pos o
  else if Config.bankOff ≤ o ∧ o + n ≤ Config.bankOff + Config.bankSize then .bank pos (o - Config.bankOff)
  else
    match [0, 1, 2, 3].find? (fun d => decide (Config.neighbourOff d ≤ o ∧ o + n ≤ Config.neighbourOff d + Config.scratchSize)) with
    | some d =>
      (match neighbour pos d with
       | some q => if sameDomain s pos q then .scratch q (o - Config.neighbourOff d) else .none
       | none => .none)
    | none => .none

/-! ### One access (07 R142) -/

/-- Why an access was refused at its translation quay or point of coherence (12 Table 12-14, rows 7 and 8). -/
inductive Bad where
  | access | failed | broken | frozen | poison | barrier
  deriving DecidableEq, Repr

/-- The answer of an access: performed with the old bytes and poison; not yet; withheld (20 Table 20-5); or refused. -/
inductive MemAns where
  | ok (s : State) (old : Nat) (poison : Bool)
  | wait (s : State)
  | held (s : State) (migrating : Bool)
  | bad (s : State) (why : Bad)

/-- An access touches the spill region of a tile in a task domain (02 R49). -/
def inSpill (t : Tile) (off n : Nat) : Bool := t.dom.isSome && decide (Config.spillOff < off + n)

/-- A message of which everything that its memory held is free: handler, payload, sender, identifier, its field, and class. -/
def freeMsg (n : Nat) (m : Msg) : Msg :=
  { m with
    hnd := (Config.freeWord n).setWidth 6
    payload := m.payload.mapIdx (fun i _ => (Config.freeWord (n + 4 + i), Config.freeBool (n + 4 + i)))
    sender := Config.freeWord (n + 1)
    wid := Config.freeWord (n + 2)
    widf := Config.freeWord (n + 3)
    budget := (Config.freeWord n).setWidth 4 }

/-- The free values of one message. -/
def freesPerMsg : Nat := 64

/-- What the spill region held becomes undefined when a program's access touches it: the messages held there are free values (02 R49). -/
def spillTouched (s : State) (pos : Nat) : State :=
  let t := tileAt s pos
  { setTile s pos { t with spill := t.spill.mapIdx (fun i m => freeMsg (s.fresh + 1 + freesPerMsg * i) m) }
    with fresh := s.fresh + 1 + freesPerMsg * t.spill.length }

/-! ### Wakes (07 R158) -/

/-- The slots SUSPENDED in BARW, with their records. -/
def barWaiters (s : State) : List (Nat × Nat × Word) :=
  s.tiles.flatMap (fun e =>
    (List.range 4).filterMap (fun k =>
      match (vget Slot.reset e.2.slots k).phase with
      | .barw va _ _ => some (e.1, k, va)
      | _ => none))

/-- Records of the launch queues whose registration at a wait record meets a condition look at it again (19 R344). -/
def wakeLaunches (s : State) (hit : Nat → Bool) : State :=
  if s.parts.any (fun e => e.2.queues.toList.any (fun q => q.any (fun l => l.wait.any hit))) then
    { s with parts := s.parts.map (fun e =>
        (e.1, { e.2 with queues := e.2.queues.map (fun q => q.map (fun l => if l.wait.any hit then { l with wait := none } else l)) })) }
  else s

/-- Watches of virtual functions whose registration meets a condition look at their records again (22 R409). -/
def wakeWatches (s : State) (hit : Nat → Bool) : State :=
  if s.vfs.any (fun e => e.2.reg.toList.any (fun r => r.any hit)) then
    { s with vfs := s.vfs.map (fun e => (e.1, { e.2 with reg := e.2.reg.map (fun r => if r.any hit then none else r) })) }
  else s

/-- Where a watch registers whose record cannot be translated: above every physical address. -/
def unreadable : Nat := 2 ^ 56

/-- A generation whose bytes at `r` a write of `n` bytes replaces under a mask. -/
def patchedGen (pa n data mask r : Nat) (old : BitVec 32) : BitVec 32 :=
  BitVec.ofNat 32 (ofBytesLE ((List.range 4).map (fun i => BitVec.ofNat 8
    (if pa ≤ r + i ∧ r + i < pa + n ∧ mask.testBit (r + i - pa) then data / 2 ^ (8 * (r + i - pa)) else old.toNat / 2 ^ (8 * i)))))

/-- A write at a record where a function is registered, which changes its generation: one more vector is due; what has not been read yet is read again
(22 R409). -/
def noteWatch (hit : Nat → Bool) (patch : Nat → BitVec 32 → BitVec 32) (x : Vf) (k : Nat) : Vf :=
  match vget none x.reg k, vget none x.seen k with
  | some r, some g => if hit r then { x with seen := vset x.seen k (some (patch r g)), due := vset x.due k (vget 0 x.due k + 1) } else x
  | some r, none => if hit r then { x with reg := vset x.reg k none } else x
  | none, _ => x

/-- Every watch registered at a record whose generation a write changes. -/
def noteWatches (s : State) (hit : Nat → Bool) (patch : Nat → BitVec 32 → BitVec 32) : State :=
  if s.vfs.any (fun e => e.2.reg.toList.any (fun r => r.any hit)) then
    { s with vfs := s.vfs.map (fun e => (e.1, [0, 1, 2].foldl (noteWatch hit patch) e.2)) }
  else s

/-- What the hardware has registered at home quays looks again: launch records and watches. -/
def wakeQueued (s : State) (hit : Nat → Bool) : State := wakeWatches (wakeLaunches s hit) hit

/-- The generation of a record at an offset of a tile's scratch differs in two states. -/
def generationMoved (before after : State) (pos off : Nat) : Bool :=
  memRead (tileAt before pos).scratch off 4 != memRead (tileAt after pos).scratch off 4

/-- A write at a scratch port that changes the generation of a record sends a wake message to each slot registered there. -/
def wakeScratch (before after : State) (pos : Nat) : State :=
  (barWaiters before).foldl (fun s x =>
    match regionOf before x.1 x.2.2.toNat 16 with
    | .scratch q off => if q = pos ∧ generationMoved before after pos off = true then later s .barrierWake (.two x.1 x.2.1) else s
    | _ => s) after

/-- A write of `n` bytes at a physical address that changes a byte of the generation at `r`. -/
def changesAt (pa n old data mask r : Nat) : Bool :=
  [0, 1, 2, 3].any (fun i =>
    decide (pa ≤ r + i ∧ r + i < pa + n) && mask.testBit (r + i - pa) &&
      old / 2 ^ (8 * (r + i - pa)) % 256 != data / 2 ^ (8 * (r + i - pa)) % 256)

/-- A write to global memory that changes the generation of a record sends a wake message to each slot and launch record registered at its home quay. -/
def wakeGlobal (s : State) (pa n old data mask : Nat) : State :=
  (barWaiters s).foldl (fun s1 x =>
    match (slotAt s x.1 x.2.1).barPa with
    | some r => if changesAt pa n old data mask r then later s1 .barrierWake (.two x.1 x.2.1) else s1
    | none => s1) (noteWatches (wakeLaunches s (changesAt pa n old data mask)) (changesAt pa n old data mask) (patchedGen pa n data mask))

/-- A block of global memory has been written anew: each slot registered for a record in it looks again. -/
def wakeBlock (s : State) (b : Nat) : State :=
  (barWaiters s).foldl (fun s1 x =>
    if (slotAt s x.1 x.2.1).barPa.any (fun r => blockOf r == b) then later s1 .barrierWake (.two x.1 x.2.1) else s1)
    (wakeQueued s (fun r => blockOf r == b))

/-- An access at a scratch port: `n` bytes at an offset, in one instant. -/
def scratchAccess (s0 : State) (pos off n : Nat) (upd : Nat → Bool → Upd) : MemAns :=
  let spill := inSpill (tileAt s0 pos) off n
  let s := if spill then spillTouched s0 pos else s0
  let t := tileAt s pos
  let old := if spill then (Config.freeVec s0.fresh).toNat % 2 ^ (8 * n) else memRead t.scratch off n
  let psn := unitsPoison t.scratchP off n
  match upd old psn with
  | .keep => .ok s old psn
  | .refuse c => .bad s (if c = cPOISON then .poison else .barrier)
  | .put v mask p =>
    if anyByte n mask then
      .ok (wakeScratch s (setTile s pos
        { t with
          scratch := memWriteMask t.scratch off n mask v
          scratchP := unitsStore t.scratchP off n (mask % 2 ^ n == fullMask n) p }) pos) old psn
    else .ok s old psn

/-- An access at an operand-bank port. -/
def bankAccess (s : State) (pos off n : Nat) (upd : Nat → Bool → Upd) : MemAns :=
  let t := tileAt s pos
  let old := memRead t.bank off n
  let psn := unitsPoison t.bankP off n
  match upd old psn with
  | .put v mask p =>
    .ok (setTile s pos
      { t with
        bank := memWriteMask t.bank off n mask v
        bankP := unitsStore t.bankP off n (mask % 2 ^ n == fullMask n) p }) old psn
  | _ => .ok s old psn

/-- A line with `n` bytes at an offset replaced under a mask. -/
def mergeLine (v : BitVec 1024) (off n mask data : Nat) : BitVec 1024 :=
  let m : Nat := ((List.range n).map (fun i => if mask.testBit i then 255 * 2 ^ (8 * i) else 0)).foldl (· + ·) 0
  let mm : BitVec 1024 := BitVec.ofNat 1024 (m * 2 ^ (8 * off))
  (v &&& ~~~mm) ||| (BitVec.ofNat 1024 (data * 2 ^ (8 * off)) &&& mm)

/-- The record of a read in the die log: a new one for the first read since the line became Poisoned, into which later ones merge while the log has it (21 R387). -/
def poisonLog (s : State) (l : Nat) (r : ErrRec) : State :=
  let y := dieAt s (dieOfLine l)
  if y.poisonSeen.contains l then
    (match bumpLast (fun x => x.kind == 0x05 && x.addr == r.addr) y.log with
     | some ls => setDie s (dieOfLine l) { y with log := ls }
     | none => logRec s (dieOfLine l) r)
  else logRec (setDie s (dieOfLine l) { y with poisonSeen := l :: y.poisonSeen }) (dieOfLine l) r

/-- The POISON_READ records of a read of a Poisoned line (21 R387): one in the die log, and one in the queue of a reading slot's partition, before which the comparator
releases no other access to the line. -/
def poisonRead (s : State) (w : Who) (l : Nat) (rmw : Bool) : State :=
  let r := recordNow s 0x05 (placeOf s w.pos w.slot) (BitVec.ofNat 64 (l * 128)) (if rmw then 1 else 0)
  let s1 := poisonLog s l r
  match w.slot, w.part with
  | some _, some p => partRec s1 p r
  | _, _ => s1

/-- COHERENCE_LOST goes to the supervisor of the partition once for each line and partition (21 R389). -/
def lostOnce (s : State) (w : Who) (l : Nat) (tval : Word) : State :=
  match w.part with
  | none => s
  | some p =>
    let y := dieAt s (dieOfLine l)
    if y.lostTold.contains (l, p) then s
    else raiseEvent (setDie s (dieOfLine l) { y with lostTold := (l, p) :: y.lostTold }) p cCOHLOST tval

/-- An access to `n` bytes of one line at a physical address. -/
def physAccess (s : State) (w : Who) (pa n key : Nat) (kind : LKind) (upd : Nat → Bool → Upd) : MemAns :=
  let l := lineOf pa
  let off := pa % 128
  let f : LineUpd := fun v p =>
    match upd (sliceLine v off n) p with
    | .put d m q => if anyByte n m then some (mergeLine v off n m d, q) else none
    | _ => none
  match lineAccess s w w.die l key kind f with
  | .wait s1 => .wait s1
  | .failed s1 => .bad s1 .failed
  | .frozen s1 => .bad s1 .frozen
  | .broken s1 => .bad s1 .broken
  | .ok s1 v psn pl =>
    let s2 := if pl && (kind != .store) then poisonRead s1 w l (kind == .atomic) else s1
    match upd (sliceLine v off n) pl with
    | .refuse c => .bad s2 (if c = cPOISON then .poison else .barrier)
    | .put d m _ => .ok (wakeGlobal s2 pa n (sliceLine v off n) d m) (sliceLine v off n) psn
    | .keep => .ok s2 (sliceLine v off n) psn

/-- What a kind of access needs of its page (20 R365). -/
def needOf : LKind → Need
  | .load => { r := true, w := false }
  | .store => { r := false, w := true }
  | .atomic => { r := true, w := true }

/-- What an access observes is undefined: a free value, with a free poison bit (20 R368, R376). -/
def observeFree (n : Nat) : MemAns → MemAns
  | .ok s _ _ => .ok (nextFresh s) ((Config.freeVec s.fresh).toNat % 2 ^ (8 * n)) (Config.freeBool s.fresh)
  | r => r

/-- One access to global memory by virtual address, translated where it is made. -/
def globalAccess (s : State) (w : Who) (va n : Nat) (kind : LKind) (upd : Nat → Bool → Upd) : MemAns :=
  match translate s w (needOf kind) (va % 2 ^ 56) with
  | .leaf s1 pa key =>
    let r := physAccess s1 w pa n key kind upd
    if tlbDiffers (quayAt s w.quay).tlb (va % 2 ^ 56) w.asid then observeFree n r else r
  | .refused s1 => .bad s1 .access
  | .absent s1 => .held s1 false
  | .migrating s1 => .held s1 true
  | .wait s1 => .wait s1

/-- The number of the message by which an access goes to the scratch of a tile of another die. -/
def scratchMsg (q : Nat) : Nat := 2 ^ 55 + q

/-- A request to a scratch on another die, and its answer, cross a hawser: two beats, in their order and held behind markers that have not joined (03 R72, R73;
19 R349). -/
def crossTo (s : State) (w : Who) (q : Nat) (f : State → MemAns) : MemAns :=
  let d := dieOf q
  if d = w.die then f s
  else
    let msg := scratchMsg q
    let r := travel s w w.die [d] msg [(0, 2)]
    if !r.2 || !wayBack r.1 w.die w.oc [d] then .wait r.1 else f (dropBeats r.1 w.ag msg)

/-- One access by effective address: the local window or global memory. An operand bank is not reached this way. -/
def memAccess (s : State) (w : Who) (va n : Nat) (kind : LKind) (upd : Nat → Bool → Upd) : MemAns :=
  if isGlobal (BitVec.ofNat 64 va) then globalAccess s w va n kind upd
  else
    match regionOf s w.pos va n with
    | .scratch pos off => crossTo s w pos (fun s1 => scratchAccess s1 pos off n upd)
    | .bank _ _ => .bad s .access
    | .none => .bad s .access

/-- A read. -/
def readOnly (_ : Nat) (_ : Bool) : Upd := .keep

/-- The agent of a slot of a tile (20 R360, R321). -/
def slotWho (s : State) (pos k : Nat) : Who :=
  let t := slotAt s pos k
  { pos := pos, slot := some k, quay := transQuay pos, asid := t.asid.setWidth 9, root := t.ptbase, sup := t.sstatus.getLsbD 0
    part := partOf s pos, cls := t.budget.toNat, ag := .inline pos k }

/-- The agent of an outstanding access: its slot with the address space and view it had at issue. -/
def accessWho (s : State) (pos k : Nat) (a : Access) : Who :=
  { slotWho s pos k with asid := a.asid, root := a.root, sup := a.sup, ag := .access pos k a.id, oc := a.cls.toNat }

/-- The agent of an asynchronous operation. -/
def opWho (s : State) (pos : Nat) (o : AsyncOp) : Who :=
  { slotWho s pos o.slot with slot := none, asid := o.asid, root := o.root, sup := o.sup, ag := .op pos o.id, oc := o.cls.toNat }

/-- The entry that translates a global address of an agent, where one is at hand. -/
def entryAt (s : State) (w : Who) (va : Nat) : Option TlbEnt := tlbFind s (quayAt s w.quay).tlb (va % 2 ^ 56) w.asid

/-- The physical address that a global address of an agent names, where its translation is at hand. -/
def paAt (s : State) (w : Who) (va : Nat) : Option Nat :=
  (entryAt s w va).map (fun e => bitsOf e.leaf 51 e.lg * 2 ^ e.lg + va % 2 ^ 56 % 2 ^ e.lg)

/-- The physical address that a global address names in the page tables as they stand. -/
def paFull (s : State) (w : Who) (va : Nat) : Option Nat :=
  match paAt s w va with
  | some p => some p
  | none =>
    match walk s w (va % 2 ^ 56) with
    | .leaf _ pte lg => some (bitsOf pte 51 lg * 2 ^ lg + va % 2 ^ 56 % 2 ^ lg)
    | _ => none

/-- The line that it names. -/
def lineAt (s : State) (w : Who) (va : Nat) : Option Nat := (paAt s w va).map lineOf

/-! ### Replay queues (20 R372) -/

/-- The capacity of a replay queue. -/
def replaySize : Nat := 64

/-- A held access takes its place in a quay's replay queue, once; none while the queue is full. -/
def enterReplay (s : State) (quay : Nat) (ag : Agent) : Option State :=
  let q := quayAt s quay
  if q.replay.contains ag then some s
  else if q.replay.length < replaySize then some (setQuay s quay { q with replay := q.replay ++ [ag] })
  else none

/-- A held access leaves the queue. -/
def leaveReplay (s : State) (quay : Nat) (ag : Agent) : State :=
  let q := quayAt s quay
  if q.replay.contains ag then setQuay s quay { q with replay := q.replay.erase ag } else s

/-- A withheld access of an agent: held in the replay queue of its quay, a fault-held one with its PAGE_FAULT, or answered with a retry while the queue is full;
ABSENT counts for the drain limit from its first cycle, which `old` has kept (20 R371 to R373, R375). -/
def withhold (s : State) (w : Who) (va : Nat) (migrating write : Bool) (old : Option Blocked) : State × Blocked :=
  let kept := match old with | some o => if o.va.toNat = va then o.since else 0 | none => 0
  let b : Blocked :=
    { va := BitVec.ofNat 64 va, asid := w.asid, migrating := migrating, write := write, root := w.root, quay := w.quay
      since := if migrating || kept != 0 then kept else s.cycle.toNat + 1 }
  match enterReplay s w.quay w.ag with
  | some s1 => (if migrating then s1 else pageFault s1 w va write, b)
  | none => (s, { b with retry := true })

/-- An access of the host or of hardware is never held; ABSENT raises PAGE_FAULT all the same (22 R408). -/
def notHeld (s : State) (w : Who) (va : Nat) (migrating write : Bool) : State := if migrating then s else pageFault s w va write

/-! ### Operations of several accesses (19 R350) -/

/-- A part of an operation that its agent has performed. -/
def fetchedAt (s : State) (ag : Agent) (va : Nat) : Option Fetched := s.fetched.find? (fun f => f.agent == ag && f.va == va)

/-- A part of an operation has been performed. -/
def noteFetched (s : State) (ag : Agent) (va data : Nat) (poison : Bool) : State :=
  { s with fetched := s.fetched ++ [{ agent := ag, va := va, data := data, poison := poison }] }

/-- One access of an operation of several: performed once, however often the operation is tried again. -/
def accessOnce (s : State) (w : Who) (va n : Nat) (kind : LKind) (upd : Nat → Bool → Upd) : MemAns :=
  match fetchedAt s w.ag va with
  | some f => .ok s f.data f.poison
  | none =>
    match memAccess s w va n kind upd with
    | .ok s1 v p => .ok (noteFetched s1 w.ag va v p) v p
    | r => r

end Sys2Proof.Machine
end

