-- ==== Sys2Proof/Machine/Access.lean ====
section
/-!
DEFINITION. The accesses of a slot: what holds them in order, how they are performed and answered, loads, stores, atomics and fences
(07 R140 to R155; 12 R261 to R266, R424; 20 R371 to R375).
-/
namespace Sys2Proof.Machine

open Sys2Proof

/-! ### The accesses of a slot's asynchronous operations (07 R146, R156) -/

/-- The low 56 bits of an address. -/
def va56 (a : Nat) : Nat := a % 2 ^ 56

/-- Bytes of an element of GATHER and SCATTER (12 R273). -/
def elemBytes (z : Nat) : Nat := if z = 0 then 4 else if z = 1 then 8 else 64

/-- Bytes of an accumulator image (11 R238). -/
def imageSize : Nat := 7744

/-- Bytes of an element of a collective (12 R278). -/
def collElem (ty : Nat) : Nat := match ty with | 0 => 4 | 1 => 2 | 2 => 4 | 3 => 8 | _ => imageSize

/-- Bytes of a block. -/
def CollDesc.block (d : CollDesc) : Nat := d.count * collElem d.ty

/-- Bytes of IN that a member uses (12 R278, Table 12-11). -/
def CollDesc.inLen (d : CollDesc) (rank n : Nat) : Nat :=
  match d.op with
  | 1 => d.block
  | 2 => n * d.block
  | 3 => d.block
  | 4 => if rank = d.root then d.block else 0
  | 5 => n * d.block
  | _ => 0

/-- Bytes of OUT. -/
def CollDesc.outLen (d : CollDesc) (n : Nat) : Nat :=
  match d.op with
  | 3 => n * d.block
  | 5 => n * d.block
  | 6 => 0
  | _ => d.block

/-- The operation writes memory. -/
def OpKind.writesMem : OpKind → Bool
  | .rmma .. => false
  | .rlda .. => false
  | .radds .. => false
  | .coll d _ _ _ n => d.outLen n != 0
  | _ => true

/-- The operation reads memory. -/
def OpKind.readsMem : OpKind → Bool
  | .rsta .. => false
  | .coll d _ _ rank n => d.inLen rank n != 0
  | _ => true

/-- The addresses of elements that a GATHER or SCATTER has still to move, as its index list in own scratch names them (12 R273). -/
def elementsLeft (t : Tile) (o : AsyncOp) : List Nat :=
  let of_ := fun (base idx n z : Nat) =>
    ((List.range (n - o.progress)).filter (fun k => !o.moved.contains (o.progress + k))).map (fun k =>
      va56 (base + memRead t.scratch (idx - Config.localBase + 4 * (o.progress + k)) 4 * elemBytes z))
  match o.kind with
  | .gather _ base idx n z => of_ base idx n z
  | .scatter _ base idx n z => of_ base idx n z
  | _ => []

/-- The size of the elements. -/
def elementSize (o : AsyncOp) : Nat :=
  match o.kind with
  | .gather _ _ _ _ z => elemBytes z
  | .scatter _ _ _ _ z => elemBytes z
  | _ => 0

/-- The elements of a GATHER or SCATTER, which no lock-table entry covers, and `hits` says which ranges a later access touches: it waits for them, a load for
those that are read too (07 R143, R146; log entry 96). -/
def elementsMeet (t : Tile) (o : AsyncOp) (hits : Nat → Nat → Bool) : Bool := (elementsLeft t o).any (fun x => hits x (elementSize o))

/-- Naturally aligned 64-byte units that a range touches. -/
def unitsOf (start len : Nat) : Nat := if len = 0 then 0 else (start + len - 1) / 64 - start / 64 + 1

/-- Unit `u` of a range as its first address and its bytes: at most one naturally aligned 64-byte unit. -/
def unitOf (start len u : Nat) : Nat × Nat :=
  let lo := if u = 0 then start else 64 * (start / 64 + u)
  (lo, min (start + len) (64 * (start / 64 + u + 1)) - lo)

/-- Bytes of an A operand (11 R244). -/
def aSize : Nat := 1536

/-- The pieces of an exchange, row by row: direction, source and destination offset, and at most one destination unit of bytes. -/
def nxPieces (ds : List NxDir) : List (Nat × Nat × Nat × Nat) :=
  ds.flatMap (fun e =>
    (List.range e.rows).flatMap (fun r =>
      let src := e.src + r * e.sstr
      let dst := e.dst + r * e.dstr
      (List.range (unitsOf dst e.rowLen)).map (fun u =>
        let lo := if u = 0 then dst else 64 * (dst / 64 + u)
        (e.dir, src + (lo - dst), lo, min (dst + e.rowLen) (64 * (dst / 64 + u + 1)) - lo))))

/-! ### Registered ranges (07 Table 7-6) -/

/-- A registered range: its address in the form the instruction names, its length, and whether it is a destination. -/
structure Range where
  start : Nat
  len : Nat
  dest : Bool
  deriving DecidableEq, Repr

/-- Bytes of a B operand: 9,216 in paired mode, 4,608 in wide mode (11 Table 11-4). -/
def bSize (mode : BitVec 1) : Nat := if mode = 1 then 9216 else 4608

/-- The bytes from the first to the last of `rows` rows. -/
def rowSpan (rows rowLen stride : Nat) : Nat := (rows - 1) * stride + rowLen

/-- The ranges an operation registers (07 Table 7-6). -/
def OpKind.ranges : OpKind → List Range
  | .copy dst src len => [⟨src, len, false⟩, ⟨dst, len, true⟩]
  | .gather dst _ idx n z => [⟨idx, 4 * n, false⟩, ⟨dst, n * elemBytes z, true⟩]
  | .scatter src _ idx n z => [⟨idx, 4 * n, false⟩, ⟨src, n * elemBytes z, false⟩]
  | .nxch ds => ds.flatMap (fun d =>
      [⟨Config.localBase + d.src, rowSpan d.rows d.rowLen d.sstr, false⟩,
       ⟨Config.localBase + Config.neighbourOff d.dir + d.dst, rowSpan d.rows d.rowLen d.dstr, true⟩])
  | .rmma _ none a _ _ _ _ => [⟨Config.localBase + a, aSize, false⟩]
  | .rmma _ (some _) _ _ _ _ _ => []
  | .rlda _ a => [⟨Config.localBase + a, imageSize, false⟩]
  | .radds _ a => [⟨Config.localBase + a, imageSize, false⟩]
  | .rsta _ a => [⟨Config.localBase + a, imageSize, true⟩]
  | .obcp sc bk len toScratch =>
      [⟨Config.localBase + sc, len, toScratch⟩, ⟨Config.localBase + Config.bankOff + bk, len, !toScratch⟩]
  | .coll d _ _ rank n =>
      (if d.inLen rank n = 0 then [] else [⟨va56 d.inp, d.inLen rank n, false⟩]) ++
        (if d.outLen n = 0 then [] else [⟨va56 d.out, d.outLen n, true⟩])

/-- The bytes of registered source ranges that an operation reads, unit by unit, as addresses and lengths. What a collective reads of its member is read whole
(log entry 106). -/
def OpKind.sources : OpKind → List (Nat × Nat)
  | .copy dst src len => (List.range (unitsOf dst len)).map (fun u => (src + ((unitOf dst len u).1 - dst), (unitOf dst len u).2))
  | .gather _ _ idx n _ => (List.range n).map (fun k => (idx + 4 * k, 4))
  | .scatter src _ _ n z => (List.range n).map (fun k => (src + elemBytes z * k, elemBytes z))
  | .nxch ds => (nxPieces ds).map (fun x => (Config.localBase + x.2.1, x.2.2.2))
  | .rmma _ none a _ _ _ _ => (List.range (aSize / 64)).map (fun k => (Config.localBase + a + 64 * k, 64))
  | .rlda _ a => (List.range (imageSize / 64)).map (fun k => (Config.localBase + a + 64 * k, 64))
  | .radds _ a => (List.range (imageSize / 64)).map (fun k => (Config.localBase + a + 64 * k, 64))
  | .obcp sc bk len toScratch =>
    (List.range (len / 64)).map (fun k => (Config.localBase + (if toScratch then Config.bankOff + bk else sc) + 64 * k, 64))
  | _ => []

/-- Unit `n` of an operation has still to be read. -/
def AsyncOp.unread (o : AsyncOp) (n : Nat) : Bool :=
  decide (o.progress ≤ n) && !o.moved.contains n && !(o.got.isSome && n == o.progress) && !o.read.any (fun x => x.1 == n)

/-- A later load touches bytes that an operation has still to read: it is performed after them, so that it never observes an older store than they do
(07 R143; log entry 96). A store to them is refused by R155. -/
def sourcesMeet (o : AsyncOp) (hits : Nat → Nat → Bool) : Bool :=
  o.kind.sources.zipIdx.any (fun x => o.unread x.2 && hits x.1.1 x.1.2)

/-- A later access of slot `k`, of an order class, is behind an operation that the slot issued before its access number `lim`: by the class rule, or because
they touch one location. -/
def behindOps (t : Tile) (k lim : Nat) (cls : BitVec 3) (store : Bool) (hits : Nat → Nat → Bool) : Bool :=
  t.ops.any (fun o => o.slot == k && !o.finished && decide (o.before ≤ lim) &&
    ((o.cls == cls && (o.kind.writesMem || (store && o.kind.readsMem))) || elementsMeet t o hits || (!store && sourcesMeet o hits)))

/-! ### Order (07 R146) -/

/-- The access reads. -/
def AccKind.isLoad : AccKind → Bool
  | .store .. => false
  | _ => true

/-- The access writes. -/
def AccKind.isStore : AccKind → Bool
  | .load .. => false
  | .vload .. => false
  | _ => true

/-- Byte `i` of the access is touched. -/
def AccKind.touches : AccKind → Nat → Bool
  | .vload _ lanes, i => lanes.getLsbD (i / 4)
  | .store _ mask _, i => mask.getLsbD i
  | _, _ => true

/-- The addresses an access touches, rising. -/
def Access.bytes (a : Access) : List Nat :=
  ((List.range a.size).filter a.kind.touches).map (fun i => a.va.toNat % 2 ^ 56 + i)

/-- Two accesses of one slot in program order are in local order (07 Table 7-3); fences, tokens and dependencies hold the issue itself back. Two loads of one
location are kept in order too, so that the second never observes an older store than the first (07 R143; log entry 96). -/
def Access.before (a b : Access) : Bool :=
  (a.cls == b.cls && (a.kind.isStore || b.kind.isStore)) || a.bytes.any (fun x => b.bytes.contains x) || (a.acq && a.kind.isLoad) ||
    (b.rel && b.kind.isStore)

/-- The accesses of a slot issued before one of them. -/
def earlier (outs : List Access) (id : Nat) : List Access := outs.takeWhile (fun a => a.id != id)

/-- A pass that remains may load a byte of an access: its base is written by a pass or comes from a port, or its bytes meet. -/
def passLoads (x : Slot) (passes : List Instr) (a : Access) (i : Instr) : Bool :=
  let meets := fun (b : BitVec 5) (off n : Nat) =>
    (passes.flatMap dstsOf).contains ⟨.s, b.toNat⟩ || x.sPend.getLsbD b.toNat || (portOf ⟨.s, b.toNat⟩).isSome ||
      (let lo := (x.sreg b.toNat + BitVec.ofNat 64 off).toNat % 2 ^ 56
       a.bytes.any (fun y => decide (lo ≤ y) && decide (y < lo + n)))
  match i with
  | .vld _ _ b _ _ _ o => meets b (64 * o.toNat) 64
  | .vtbl _ _ b _ => meets b 0 1024
  | _ => false

/-- A load issued ahead of passes is behind their loads of the same bytes, which are earlier in program order (07 R143, R145; log entry 96). -/
def behindPasses (t : Tile) (k : Nat) (a : Access) : Bool :=
  let x := vget Slot.reset t.slots k
  a.late && x.rep.issuing && (t.passesLeft k x.rep).any (passLoads x (t.passesLeft k x.rep) a)

/-- Nothing that local order puts before an access of slot `k` of a tile is outstanding. -/
def inOrder (t : Tile) (k : Nat) (a : Access) : Bool :=
  !behindPasses t k a &&
  (earlier (vget Slot.reset t.slots k).outs a.id).all (fun b => !b.before a) &&
    !behindOps t k a.id a.cls a.kind.isStore (fun lo n => a.bytes.any (fun x => decide (lo ≤ x) && decide (x < lo + n)))

/-! ### Answers (12 R262, R424; 08 R167) -/

/-- A destination is pending until its reply arrives; a port entry is reserved (08 R166; 03 R59). -/
def expect (s : State) (r : Option Reg) : State :=
  match r with
  | none => s
  | some r =>
    match portOf r with
    | some k => portReserve s s.cur.pos s.cur.slot k (.access (me s).nextId)
    | none =>
      let t := me s
      if r.file = .v then setMe s { t with vPend := bitSet t.vPend r.num true }
      else if r.num = 0 then s
      else setMe s { t with sPend := bitSet t.sPend r.num true }

/-- A reply is written to its register, the lanes that were not read keeping their value and poison; or it fills the port entry that was reserved for it,
with 0 in those lanes (03 R59; 12 R262, R263). -/
def writeReply (s : State) (pos k : Nat) (r : Reply) : State :=
  let reg : Reg := ⟨if r.vector then .v else .s, r.rd.toNat⟩
  let e := laneBits r.lanes
  match portOf reg with
  | some b => portFill s pos k b (.access r.id) { data := if r.vector then r.data &&& e else (r.data.setWidth 64).setWidth 512, poison := r.poison }
  | none =>
    if r.vector then
      let t := slotAt s pos k
      wrV s pos k reg.num ((r.data &&& e) ||| (vget 0 t.v reg.num &&& ~~~e)) (r.poison || (r.lanes != 0xFFFF && t.vP.getLsbD reg.num))
    else wrS s pos k reg.num (r.data.setWidth 64) r.poison

/-- LOAD_REPLY: the oldest reply of a slot is written. -/
def execLoadReply (s : State) : Out := with2 s fun pos k =>
  let t := slotAt s pos k
  match t.replies with
  | [] => .next s
  | r :: rs => .next (writeReply (setSlot s pos k { t with replies := rs }) pos k r)

/-- The cause of a refused access (12 Table 12-14, rows 7 and 8). -/
def Bad.cause : Bad → Nat
  | .access => cACCESS
  | .failed => cSEALTAG
  | .broken => cCOHLOST
  | .frozen => cSEALWRAP
  | .poison => cPOISON
  | .barrier => cBARRIER

/-- Its place in 18 Table 18-24. -/
def Bad.row : Bad → Nat
  | .access => 13
  | _ => 14

/-- The virtual address of an access as a trap value. -/
def vaOf (a : Word) : Word := BitVec.ofNat 64 (a.toNat % 2 ^ 56)

/-- A failed answer: the destination is released, poisoned and undefined; the cause is taken at the next instruction boundary, or goes to the supervisor of
the partition when the slot is DRAINING (12 R424). -/
def failAccess (s : State) (pos k : Nat) (a : Access) (why : Bad) : State :=
  let s1 := match a.kind.dest with
    | none => s
    | some r =>
      nextFresh (writeReply s pos k
        { id := a.id, rd := BitVec.ofNat 5 r.num, vector := r.file == .v, data := Config.freeVec s.fresh
          lanes := match a.kind with | .vload _ l => l | _ => 0xFFFF
          poison := true })
  let t := slotAt s1 pos k
  if t.phase.isDraining then raiseAt s1 pos why.cause (vaOf a.va)
  else setSlot s1 pos k { t with answers := t.answers ++ [{ cause := why.cause, tval := vaOf a.va }] }

/-! ### What each kind does when it is performed -/

/-- The operations of ATOM with sx = 0 on data of `n` bytes (12 Table 12-2). -/
def atomResult (code n d a : Nat) : Nat :=
  let w := 8 * n
  let sd := (BitVec.ofNat w d).toInt
  let sa := (BitVec.ofNat w a).toInt
  match code with
  | 0 => a
  | 1 => (d + a) % 2 ^ w
  | 2 => d &&& a
  | 3 => d ||| a
  | 4 => d ^^^ a
  | 5 => if sd ≤ sa then d else a
  | 6 => if sd ≤ sa then a else d
  | 7 => min d a
  | _ => max d a

/-- A barrier record as its four fields (07 Table 7-14). -/
structure Bar where
  gen : Nat
  exp : Nat
  arr : Nat
  beats : Nat
  deriving DecidableEq, Repr

/-- Read a record. -/
def Bar.ofNat (x : Nat) : Bar :=
  { gen := x % 2 ^ 32, exp := x / 2 ^ 32 % 2 ^ 32, arr := x / 2 ^ 64 % 2 ^ 32, beats := x / 2 ^ 96 % 2 ^ 32 }

/-- Its 16 bytes. -/
def Bar.toNat (b : Bar) : Nat := b.gen + 2 ^ 32 * b.exp + 2 ^ 64 * b.arr + 2 ^ 96 * b.beats

/-- The test of 07 R160. -/
def Bar.test (b : Bar) : Bar := if b.arr = b.exp ∧ b.beats = 0 then { b with arr := 0, gen := (b.gen + 1) % 2 ^ 32 } else b

/-- A barrier operation on a record: refused on poison, or where `f` refuses (07 Table 7-7); `dataPoison` is the poison of what it stores. -/
def barUpd (f : Bar → Option Bar) (dataPoison : Bool) (old : Nat) (poison : Bool) : Upd :=
  if poison then .refuse cPOISON
  else
    match f (Bar.ofNat old) with
    | none => .refuse cBARRIER
    | some b => .put b.test.toNat (fullMask 16) dataPoison

/-- BARA: one more arrival. -/
def barArrive (b : Bar) : Option Bar := if b.arr + 1 ≤ b.exp then some { b with arr := b.arr + 1 } else none

/-- A beat addition. -/
def barAdd (n : Nat) (b : Bar) : Option Bar := if b.beats + n < 2 ^ 32 then some { b with beats := b.beats + n } else none

/-- A beat subtraction. -/
def barSub (n : Nat) (b : Bar) : Option Bar := if n ≤ b.beats then some { b with beats := b.beats - n } else none

/-- BARI. -/
def barInit (n : Nat) (b : Bar) : Option Bar := some { b with exp := n, arr := 0, beats := 0 }

/-- The point-of-coherence kind of an access. -/
def AccKind.lkind : AccKind → LKind
  | .load .. => .load
  | .vload .. => .load
  | .store .. => .store
  | _ => .atomic

/-- What an access writes when it is performed. An atomic whose data register is poisoned marks its destination, whether or not a compare-and-swap
stores (08 R167); `free` is the undefined value of an ATOM whose operation word is poisoned (12 R265). -/
def AccKind.upd (k : AccKind) (n free : Nat) (old : Nat) (poison : Bool) : Upd :=
  match k with
  | .load .. => .keep
  | .vload .. => .keep
  | .store d m p => .put d.toNat m.toNat p
  | .atom _ op opP x p =>
    .put (if opP then free % 2 ^ (8 * n) else atomResult (op.toNat % 16) n old (x.toNat % 2 ^ (8 * n))) (fullMask n) (opP || p)
  | .cas _ o new p =>
    if o.toNat % 2 ^ (8 * n) = old then .put (new.toNat % 2 ^ (8 * n)) (fullMask n) p
    else if p then .put old (fullMask n) p
    else .keep
  | .bara _ => barUpd barArrive false old poison
  | .bari n p => barUpd (barInit n.toNat) p old poison

/-- The reply of a performed access; an atomic's is poisoned when a register it reads is (12 R262, R265, R275; 08 R167). -/
def AccKind.reply (k : AccKind) (n old : Nat) (poison : Bool) : Option Reply :=
  match k with
  | .load rd sx =>
    some { rd := rd, vector := false, lanes := 0, poison := poison
           data := BitVec.ofNat 512 (if sx then (ofInt 64 (BitVec.ofNat (8 * n) old).toInt).toNat else old) }
  | .vload rd l => some { rd := rd, vector := true, data := BitVec.ofNat 512 old, lanes := l, poison := poison }
  | .atom rd _ opP _ p => some { rd := rd, vector := false, data := BitVec.ofNat 512 old, lanes := 0, poison := poison || opP || p }
  | .cas rd _ _ p => some { rd := rd, vector := false, data := BitVec.ofNat 512 old, lanes := 0, poison := poison || p }
  | .bara rd => some { rd := rd, vector := false, data := BitVec.ofNat 512 (old % 2 ^ 32), lanes := 0, poison := poison }
  | .store .. => none
  | .bari .. => none

/-! ### FENCE (07 R151; 03 R73) -/

/-- A fence whose earlier accesses have been performed and whose joins have been acknowledged lets its slot go on. -/
def settleFence (s : State) (pos k : Nat) : State :=
  let t := slotAt s pos k
  match t.fence with
  | none => s
  | some f =>
    if f.dies = [] ∧ t.outs.all (fun a => !f.mask.getLsbD a.cls.toNat) then setSlot s pos k { t with fence := none } else s

/-- JOIN_COMPLETE: a slot's markers have arrived at a destination, and beats behind them go on; once every beat ahead of them has been performed there, or the
package is lost, it acknowledges the fence (03 R73, R74; 07 R151). -/
def execJoinComplete (s : State) : Out := with3 s fun pos k dst =>
  let t := slotAt s pos k
  match t.fence with
  | none => .next s
  | some f =>
    if !f.dies.contains dst then .next s
    else
      let s1 := joinMarkers s pos k dst
      if aheadOfMarkers s1 pos k dst [] s1.hawsers && !(decide (256 ≤ dst) && s.lostPkgs.contains (dst - 256)) then .next s1
      else .next (settleFence (setSlot (dropMarkers s1 pos k (some dst)) pos k { t with fence := some { f with dies := f.dies.erase dst } }) pos k)

/-! ### ACCESS_PERFORM and translation (07 R142; 20 R360 to R375) -/

/-- Replace an outstanding access. -/
def updAccess (s : State) (pos k : Nat) (a : Access) : State :=
  let t := slotAt s pos k
  setSlot s pos k { t with outs := t.outs.map (fun b => if b.id = a.id then a else b) }

/-- An access is no longer outstanding. -/
def dropAccess (s : State) (pos k id : Nat) : State :=
  let t := slotAt s pos k
  setSlot s pos k { t with outs := t.outs.filter (fun b => b.id != id) }

/-- An access that translates ABSENT or MIGRATING is held, or answered with a retry while the queue is full; ABSENT counts for the drain limit from now
(20 R371 to R375). -/
def holdAccess (s : State) (pos k : Nat) (a : Access) (migrating : Bool) : State :=
  let w := accessWho s pos k a
  let a1 := { a with since := if a.since = 0 && !migrating then s.cycle.toNat + 1 else a.since }
  match enterReplay s w.quay w.ag with
  | some s1 =>
    let s2 := updAccess s1 pos k { a1 with stage := if migrating then .migHeld else .faultHeld }
    if migrating then s2 else pageFault s2 w a.va.toNat a.kind.isStore
  | none => updAccess s pos k { a1 with stage := .retry migrating }

/-- An access has been performed: its reply sets out, and whoever waited for it may go on. -/
def performed (s : State) (pos k : Nat) (a : Access) (old : Nat) (poison : Bool) : State :=
  let s1 := dropAccess s pos k a.id
  let s2 := match a.kind.reply a.size old poison with
    | some r => let t := slotAt s1 pos k; setSlot s1 pos k { t with replies := t.replies ++ [{ r with id := a.id }] }
    | none => s1
  settleFence s2 pos k

/-- The global address of an access that no TLB entry translates (20 R366). -/
def needsWalk (s : State) (w : Who) (a : Access) : Bool :=
  isGlobal a.va && (tlbFind s (quayAt s w.quay).tlb (a.va.toNat % 2 ^ 56) w.asid).isNone

/-! ### Aliases (20 R368) -/

/-- What a slot has still to do in global memory: whose access, in which address space, where, and whether it writes. -/
structure Touch where
  ag : Agent
  asid : BitVec 9
  va : Nat
  len : Nat
  write : Bool
  deriving DecidableEq, Repr

/-- The outstanding accesses of a slot and the ranges and elements of its unfinished operations, in global memory. -/
def slotTouches (s : State) (pos k : Nat) : List Touch :=
  let t := tileAt s pos
  let ofOp := fun (o : AsyncOp) =>
    o.kind.ranges.map (fun r => (⟨.op pos o.id, o.asid, r.start, r.len, r.dest⟩ : Touch)) ++
      (elementsLeft t o).map (fun x => (⟨.op pos o.id, o.asid, x, elementSize o, (match o.kind with | .scatter .. => true | _ => false)⟩ : Touch))
  (((slotAt s pos k).outs.map (fun b => (⟨.access pos k b.id, b.asid, va56 b.va.toNat, b.size, b.kind.isStore⟩ : Touch))) ++
    (t.ops.filter (fun o => o.slot == k && !o.finished)).flatMap ofOp).filter (fun x => isGlobal (BitVec.ofNat 64 x.va) && x.len != 0)

/-- A range page by page: first address and bytes. -/
def pagesOf (va n : Nat) : List (Nat × Nat) :=
  (List.range ((va + n - 1) / 2 ^ 16 + 1 - va / 2 ^ 16)).map (fun i =>
    let lo := max va (2 ^ 16 * (va / 2 ^ 16 + i))
    (lo, min (va + n) (2 ^ 16 * (va / 2 ^ 16 + i + 1)) - lo))

/-- The slot of a tile for which an agent makes its accesses. -/
def ownerSlot (s : State) : Agent → Option (Nat × Nat)
  | .access p k _ => some (p, k)
  | .inline p k => some (p, k)
  | .op p id => ((tileAt s p).ops.find? (fun o => o.id == id)).map (fun o => (p, o.slot))
  | _ => none

/-- The accesses that have passed one of an agent. -/
def passedOf (s : State) : Agent → List Passed
  | .access p k id => (((slotAt s p k).outs.find? (fun a => a.id == id)).map (·.passed)).getD []
  | .op p id => (((tileAt s p).ops.find? (fun o => o.id == id)).map (·.passed)).getD []
  | _ => []

/-- Bytes at physical addresses meet. -/
def paMeets (p n q m : Nat) : Bool := decide (p < q + m) && decide (q < p + n)

/-- Another access of the slot, outstanding or performed while this one was, meets its bytes, at `p`, through another virtual page of the same address space, and
one of the two writes: what they observe is undefined. -/
def aliased (s : State) (w : Who) (pos k va p n : Nat) (write : Bool) : Bool :=
  (slotTouches s pos k).any (fun x =>
    x.ag != w.ag && x.asid == w.asid && (write || x.write) &&
      (pagesOf x.va x.len).any (fun y => y.1 / 2 ^ 16 != va / 2 ^ 16 && (paAt s w y.1).any (fun q => paMeets p n q y.2))) ||
    (passedOf s w.ag).any (fun y => y.page != va / 2 ^ 16 && (write || y.write) && paMeets p n y.pa y.len)

/-- What is outstanding of a slot notes that an access of it through another page has been performed. -/
def notePassed (s : State) (w : Who) (pos k va p n : Nat) (write : Bool) : State :=
  let x : Passed := ⟨va / 2 ^ 16, p, n, write⟩
  let others := (slotTouches s pos k).filter (fun y => y.ag != w.ag && y.asid == w.asid)
  if others.isEmpty then s
  else
    let t := tileAt s pos
    let u := vget Slot.reset t.slots k
    setTile s pos
      { t with
        slots := vset t.slots k { u with outs := u.outs.map (fun a => if others.any (·.ag == .access pos k a.id) then { a with passed := a.passed ++ [x] } else a) }
        ops := t.ops.map (fun o => if others.any (·.ag == .op pos o.id) then { o with passed := o.passed ++ [x] } else o) }

/-- What an access of a slot observes: a free value where an alias of it is in play (20 R368). -/
def observed (s : State) (w : Who) (va n : Nat) (write : Bool) (r : MemAns) : MemAns :=
  match ownerSlot s w.ag, r with
  | some (pos, k), .ok s1 v q =>
    (match if isGlobal (BitVec.ofNat 64 va) then paAt s1 w va else none with
     | none => r
     | some p =>
       let x := MemAns.ok (notePassed s1 w pos k (va56 va) p n write) v q
       if aliased s1 w pos k (va56 va) p n write then observeFree n x else x)
  | _, _ => r

/-! ### Its turn at the quay -/

/-- An access has left its translation quay: a beat of it is under way, a home holds it or serves it, or a cache has asked for its line or been granted it. -/
def hasLeft (s : State) (ag : Agent) : Bool :=
  hasBeats s ag || s.dies.toList.any (fun d =>
    d.cmp.any (·.agent == ag) || d.sent.any (·.agent == ag) || d.trans.any (·.2.req.agent == ag) || d.rdc.any (·.2.owed == some ag))

/-- Some of a slot's global accesses may leave their translation quay and have not yet: they neither walk nor are held, and local order puts nothing before
them. -/
def waitsAtQuay (s : State) (pos k : Nat) (outs : List Access) : Bool :=
  outs.any (fun b => isGlobal b.va && b.stage == .issued && inOrder (tileAt s pos) k b && !hasLeft s (.access pos k b.id))

/-- The translation quay forwards an earlier global access of the slot first: only one that walks or is held is passed (20 R368). -/
def behindAtQuay (s : State) (pos k : Nat) (a : Access) : Bool :=
  isGlobal a.va && !hasLeft s (.access pos k a.id) && waitsAtQuay s pos k (earlier (slotAt s pos k).outs a.id)

/-- One attempt to perform an outstanding access. -/
def perform (s : State) (pos k : Nat) (a : Access) : State :=
  let w := accessWho s pos k a
  if !inOrder (tileAt s pos) k a || behindAtQuay s pos k a then s
  else if needsWalk s w a then
    (match startWalk s w a.va.toNat with
     | some s1 => later (updAccess s1 pos k { a with stage := .walking }) .pageTableWalk (.three pos k a.id)
     | none => s)
  else
    match observed s w a.va.toNat a.size a.kind.isStore (memAccess s w a.va.toNat a.size a.kind.lkind (a.kind.upd a.size (Config.freeVec s.fresh).toNat)) with
    | .ok s1 old psn => nextFresh (performed s1 pos k a old psn)
    | .wait s1 => s1
    | .held s1 m => holdAccess s1 pos k a m
    | .bad s1 why => settleFence (failAccess (dropAccess s1 pos k a.id) pos k a why) pos k

/-- The outstanding access with a number. -/
def accessOf (s : State) (pos k id : Nat) : Option Access := (slotAt s pos k).outs.find? (fun a => a.id == id)

/-- ACCESS_PERFORM: an access takes effect at its point of coherence, once everything local order puts before it has, and in its turn at the quay. -/
def execAccessPerform (s : State) : Out := with3 s fun pos k id =>
  match accessOf s pos k id with
  | some a => .next (if a.stage = .issued then perform s pos k a else s)
  | none => .next s

/-- The accesses that wait for one walk: misses of one quay on one page, tile by tile (20 R367). -/
def walkers (s : State) (w : Who) (va : Nat) : List (Nat × Nat × Access) :=
  s.tiles.flatMap (fun e =>
    (List.range 4).flatMap (fun k =>
      ((vget Slot.reset e.2.slots k).outs.filter (fun b =>
          b.stage == .walking && transQuay e.1 == w.quay && walkRef (accessWho s e.1 k b) b.va.toNat == walkRef w va)).map (fun b => (e.1, k, b))))

/-- An access whose translation fails (20 Table 20-5). -/
def refuseAccess (s : State) (x : Nat × Nat × Access) : State :=
  settleFence (failAccess (dropAccess s x.1 x.2.1 x.2.2.id) x.1 x.2.1 x.2.2 .access) x.1 x.2.1

/-- An access whose walk has filled the TLB goes on. -/
def goOn (s : State) (x : Nat × Nat × Access) : State := updAccess s x.1 x.2.1 { x.2.2 with stage := .issued }

/-- What an agent that makes its accesses in its own turn has withheld: a STALLED slot, a berth sequencer, a task domain or a scheduler. -/
def heldOf (s : State) : Agent → Option Blocked
  | .inline p k => (slotAt s p k).blocked
  | .berth id => (s.berths.find? (fun b => b.id == id)).bind (·.held)
  | .domain id => (s.domains.find? (fun d => d.id == id)).bind (·.held)
  | .sched p => (partAt s p).queues.toList.flatten.findSome? (fun l => l.held)
  | _ => none

/-- It is withheld anew. -/
def holdAgain (s : State) (b : Blocked) : Agent → State
  | .inline p k => setSlot s p k { slotAt s p k with blocked := some b }
  | .berth id => { s with berths := s.berths.map (fun x => if x.id = id then { x with held := some b } else x) }
  | .domain id => { s with domains := s.domains.map (fun x => if x.id = id then { x with held := some b } else x) }
  | .sched p =>
    let y := partAt s p
    setPart s p { y with queues := y.queues.map (fun q => q.map (fun l => if l.held.isSome then { l with held := some b } else l)) }
  | _ => s

/-- The partition and budget class of such an agent. -/
def payerOf (s : State) : Agent → Option Nat × Nat
  | .inline p k => (partOf s p, (slotAt s p k).budget.toNat)
  | .berth id => (match s.berths.find? (fun b => b.id == id) with | some b => (some b.part, b.budget.toNat) | none => (none, 0))
  | .domain id => (match s.domains.find? (fun d => d.id == id) with | some d => (some d.part, d.budget.toNat) | none => (none, 0))
  | .sched p => (some p, 0)
  | _ => (none, 0)

/-- The re-walk of a released access: it is withheld anew where the page is still ABSENT or MIGRATING, and else made in its agent's next turn (20 R374). -/
def rewalk (s : State) (ag : Agent) : State :=
  match heldOf s ag with
  | none => s
  | some b =>
    let w : Who :=
      { pos := b.quay, slot := none, quay := b.quay, asid := b.asid, root := b.root, sup := false, part := (payerOf s ag).1, cls := (payerOf s ag).2, ag := ag }
    let again := fun (s1 : State) (m : Bool) => let x := withhold s1 w b.va.toNat m b.write (some b); holdAgain x.1 x.2 ag
    if !b.released then s
    else
      match translate s w { r := false, w := false } (va56 b.va.toNat) with
      | .absent s1 => again s1 false
      | .migrating s1 => again s1 true
      | .leaf s1 _ _ => s1
      | .refused s1 => s1
      | .wait s1 => s1

/-- The agent that a re-walk row names. -/
def rewalkAgent (kind id : Nat) : Agent :=
  match kind with
  | 0 => .inline (id / 4) (id % 4)
  | 1 => .berth id
  | 2 => .domain id
  | _ => .sched id

/-- PAGE_TABLE_WALK: a walker completes the walk that an access waits for, for every access that shares it, or re-walks what a TLBINV has released
(20 R361, R366, R367, R371, R374). -/
def execPageTableWalk (s : State) : Out :=
  match s.arg with
  | .two kind id => .next (rewalk s (rewalkAgent kind id))
  | _ => with3 s fun pos k id =>
  match accessOf s pos k id with
  | none => .next s
  | some a =>
    if a.stage ≠ .walking then .next s
    else
      let w := accessWho s pos k a
      let shared := walkers s w a.va.toNat
      let told := fun (s : State) => learnt s w a.va.toNat (shared.map (fun x => Agent.access x.1 x.2.1 x.2.2.id))
      match translate s w (needOf a.kind.lkind) (a.va.toNat % 2 ^ 56) with
      | .leaf s1 _ _ => .next (shared.foldl goOn s1)
      | .refused s1 => .next (if (entryAt s1 w a.va.toNat).isSome then shared.foldl goOn s1 else shared.foldl refuseAccess (told s1))
      | .absent s1 => .next (shared.foldl (fun s x => holdAccess s x.1 x.2.1 x.2.2 false) (told s1))
      | .migrating s1 => .next (shared.foldl (fun s x => holdAccess s x.1 x.2.1 x.2.2 true) (told s1))
      | .wait s1 => .next s1

/-- ACCESS_RETRY: an access answered with a retry is re-sent (20 R372). -/
def execAccessRetry (s : State) : Out := with3 s fun pos k id =>
  match accessOf s pos k id with
  | none => .next s
  | some a =>
    match a.stage with
    | .retry _ => .next (updAccess s pos k { a with stage := .issued })
    | _ => .next s

/-- DEFERRED_ACCESS_FAULT: the oldest failed answer traps at an instruction boundary of its slot, repeat passes suspended; no boundary comes before a FENCE that has
issued lets the slot go on (12 R424; 07 R151). -/
def execDeferredAccessFault (s : State) : Out := with2 s fun pos k =>
  let t := slotAt s pos k
  match t.answers with
  | [] => .next s
  | d :: ds =>
    if t.fence.isSome then .next s
    else .next (takeTrap (setSlot s pos k { t with answers := ds }) pos k false d.cause 0 d.tval (boundaryEpc t))

/-! ### Issue of an access -/

/-- An access takes its place in program order: a pass stands before the accesses that were issued ahead of it (07 R145). -/
def placeAccess (outs : List Access) (a : Access) (pass : Bool) : List Access :=
  if pass then
    (let younger := (outs.reverse.takeWhile (·.late)).reverse
     outs.take (outs.length - younger.length) ++ a :: younger)
  else outs ++ [a]

/-- The accesses of a slot that are still to be performed are older than what issues now, unless they were issued ahead of it. -/
def issueAccess (s : State) (kind : AccKind) (va : Word) (size : Nat) (cls : BitVec 3) (acq rel : Bool) : State :=
  let s1 := expect s kind.dest
  let t := me s1
  let a : Access :=
    { id := t.nextId, kind := kind, va := va, size := size, cls := cls, acq := acq, rel := rel, asid := t.asid.setWidth 9
      root := t.ptbase, sup := t.sstatus.getLsbD 0, stage := .issued, since := 0, late := ahead s }
  setMe s1 { t with outs := placeAccess t.outs a s.cur.pass, nextId := t.nextId + 1 }

/-- A local-window address in a region that loads, stores, atomics and barrier operations reach, or a global address (12 R264). -/
def reachable (s : State) (va : Word) (n : Nat) : Bool :=
  isGlobal va ||
    (match regionOf s s.cur.pos va.toNat n with
     | .scratch _ _ => true
     | .bank _ _ => false
     | .none => false)

/-- The lowest address among those an access touches that a lock-table entry of the tile refuses (07 R155). -/
def lockedAddr (t : Tile) (bytes : List Nat) (store : Bool) : Option Nat :=
  bytes.find? (fun x => t.lock.any (fun e => (e.dest || store) && decide (e.start ≤ x ∧ x < e.start + e.len)))

/-- The tests of an access at issue after poison: alignment, region, locked ranges (12 R264; 07 R155). -/
def accessTests (s : State) (kind : AccKind) (va : Word) (size align : Nat) (e : Effect) : Effect :=
  demand (decide (va.toNat % align = 0)) 8 cMISALIGN va <|
  demand (reachable s va size) 9 cACCESS va <|
    match lockedAddr (myTile s) (((List.range size).filter kind.touches).map (fun i => va.toNat % 2 ^ 56 + i)) kind.isStore with
    | some x => .trap { row := 10, cause := cRANGE, tval := BitVec.ofNat 64 x }
    | none => e

/-- Effective address of format M: base + off5 × size (08 R171). -/
def effAddr (base : Word) (off : BitVec 5) (size : Nat) : Word := base + BitVec.ofNat 64 (off.toNat * size)

/-- sem as acquire and release (07 Table 7-2). -/
def semAcq (e : BitVec 2) : Bool := e.getLsbD 0
def semRel (e : BitVec 2) : Bool := e.getLsbD 1

/-- With no lane active no access is made: a port receives the word of zeros (12 R263; 10 R218), and a register keeps its value. -/
def noLane (s : State) (k : AccKind) : State :=
  match k.dest with
  | some r => if (portOf r).isSome then setV s (BitVec.ofNat 5 r.num) 0 false else s
  | none => s

/-- An access instruction of format M: `base` is the source that holds its base address. -/
def accessOp (i : Instr) (base : Nat) (size : Nat) (off : BitVec 5) (cls : BitVec 3) (sem : BitVec 2) (kind : Ops → State → AccKind)
    (s : State) : Out :=
  runCore i s (fun o s =>
    let va := effAddr (o.word base) off size
    let k := kind o s
    needClean o base <|
    accessTests s k va size size <|
      if (List.range size).any k.touches then .done (issueAccess s k va size cls (semAcq sem) (semRel sem)) else .done (noLane s k))

/-- LD (12 R262). -/
def execLd (g : BitVec 3) (d a : BitVec 5) (c : BitVec 3) (e z : BitVec 2) (x : BitVec 1) (o : BitVec 5) (s : State) : Out :=
  accessOp (.ld g d a c e z x o) 0 (2 ^ z.toNat) o c e (fun _ _ => .load d (x == 1)) s

/-- ST (12 R262): the data register is source 1. -/
def execSt (g : BitVec 3) (d a : BitVec 5) (c : BitVec 3) (e z : BitVec 2) (o : BitVec 5) (s : State) : Out :=
  accessOp (.st g d a c e z o) 0 (2 ^ z.toNat) o c e
    (fun p _ => .store (p.vec 1) (BitVec.ofNat 64 (fullMask (2 ^ z.toNat))) (p.psn 1)) s

/-- VLD (12 R263). -/
def execVld (g : BitVec 3) (d a : BitVec 5) (c : BitVec 3) (e m : BitVec 2) (o : BitVec 5) (s : State) : Out :=
  accessOp (.vld g d a c e m o) 0 64 o c e (fun _ s => .vload d ((me s).maskOf m.toNat)) s

/-- Byte mask of lanes. -/
def byteMask (l : BitVec 16) : BitVec 64 := BitVec.ofNat 64 (packFrom 4 (fun k => if l.getLsbD k then 15 else 0) 16 0)

/-- VST (12 R263). -/
def execVst (g : BitVec 3) (d a : BitVec 5) (c : BitVec 3) (e m : BitVec 2) (o : BitVec 5) (s : State) : Out :=
  accessOp (.vst g d a c e m o) 0 64 o c e (fun p s => .store (p.vec 1) (byteMask ((me s).maskOf m.toNat)) (p.psn 1)) s

/-- ATOM with sx = 1: compare-and-swap (12 R265). -/
def execAtomCas (g : BitVec 3) (d a : BitVec 5) (c : BitVec 3) (e z : BitVec 2) (o : BitVec 5) (s : State) : Out :=
  accessOp (.atomCas g d a c e z o) 0 (2 ^ z.toNat) o c e
    (fun p _ => .cas d (p.word 1) (p.word 2) (p.psn 1 || p.psn 2)) s

/-- ATOM with sx = 0: the operation word is s[rd + 1] (12 R265). -/
def execAtom (g : BitVec 3) (d a : BitVec 5) (c : BitVec 3) (e z : BitVec 2) (o : BitVec 5) (s : State) : Out :=
  runCore (.atom g d a c e z o) s (fun p s =>
    let size := 2 ^ z.toNat
    let va := effAddr (p.word 0) o size
    let k : AccKind := .atom d (p.word 2) (p.psn 2) (p.word 1) (p.psn 1)
    needClean p 0 <|
    demand (p.psn 2 || decide ((p.word 2).toNat ≤ 8)) 7 cUNDEF (curWord s) <|
    accessTests s k va size size <| .done (issueAccess s k va size c (semAcq e) (semRel e)))

/-- The packages to which a fence of scope .sys sends markers: those that the partition's routing reaches by a pier that is UP (03 R74). -/
def joinPackages (s : State) : List Nat :=
  match partOf s s.cur.pos with
  | some p => ((partAt s p).routes.map (·.1)).filter (fun q =>
      !s.lostPkgs.contains q && (List.range 4).any (fun h => (pierOf s (some p) q h).isSome))
  | none => []

/-- Whose joins a fence waits for: every other die, for .die, .pkg and .sys, and every package, for .sys (07 Table 7-5; 03 R73, R74). -/
def joinDies (s : State) (scope : BitVec 3) : List Nat :=
  if scope.toNat < 3 then []
  else (List.range 8).filter (fun d => d != dieOf s.cur.pos) ++ (if scope = 5 then (joinPackages s).map (256 + ·) else [])

/-- The hawsers of a pair of dies that a class mask covers: c mod 4 for a class of the mask (03 R73). -/
def maskHawsers (m : BitVec 8) : List Nat := (List.range 4).filter (fun h => m.getLsbD h || m.getLsbD (h + 4))

/-- FENCE: its markers enter the hawsers at issue, and the slot continues once every earlier access of the mask's classes has been performed and every join has
been acknowledged (07 R151; 12 R266). -/
def execFence (g : BitVec 3) (sc : BitVec 3) (m : BitVec 8) (s : State) : Out :=
  runCore (.fence g sc m) s (fun _ s =>
    if m = 0 then .done s
    else
      let ds := joinDies s sc
      .done
        (settleFence
          (placeMarkers (setMe s { me s with fence := some { mask := m, scope := sc, dies := ds } }) (dieOf s.cur.pos) s.cur.pos s.cur.slot ds
            (maskHawsers m)) s.cur.pos s.cur.slot))

end Sys2Proof.Machine
end

