-- ==== Sys2Proof/Machine/Async.lean ====
section
/-!
DEFINITION. Asynchronous operations: their lock-table entries and tokens, what orders them, the accesses a slot waits for, and the accesses of an
engine (07 R154 to R158; 12 R267 to R271, R424; 06 R130, R136, R138).
-/
namespace Sys2Proof.Machine

open Sys2Proof

/-! ### What waits for what -/

/-- Two ranges share a byte. -/
def Range.meets (a b : Range) : Bool := decide (a.start < b.start + b.len) && decide (b.start < a.start + a.len)

/-- The bytes of the operand bank that an RMMA reads, in local-window form. -/
def OpKind.bankRead (mode : BitVec 1) : OpKind → List Range
  | .rmma _ _ _ b _ _ _ => [⟨Config.localBase + Config.bankOff + b, bSize mode, false⟩]
  | _ => []

/-- An access of an operation waits: its bytes meet a range of an earlier operation of the tile that has not written its token, and one of the two is a
destination (07 R157), or it writes bytes of the operand bank that an earlier RMMA reads (11 R241). -/
def rangeBehind (t : Tile) (o : AsyncOp) (lo n : Nat) (dest : Bool) : Bool :=
  t.ops.any (fun p => decide (p.id < o.id) && !p.finished &&
    (p.kind.ranges ++ p.kind.bankRead t.rnsMode).any (fun r => (r.dest || dest) && r.meets ⟨lo, n, dest⟩))

/-- An access of `n` bytes from an address, of an order class, is behind one of the slot's accesses with a number below `lim` (07 R143, R146, R156). A pass
does not stand behind accesses that were issued ahead of it (07 R145). -/
def behindOuts (outs : List Access) (lim : Nat) (pass : Bool) (cls : BitVec 3) (va n : Nat) (store : Bool) : Bool :=
  outs.any (fun a => decide (a.id < lim) && !(pass && a.late) &&
    ((a.acq && a.kind.isLoad) || (a.cls == cls && (store || a.kind.isStore)) ||
      a.bytes.any (fun x => decide (va56 va ≤ x) && decide (x < va56 va + n))))

/-- An access of the current slot that is about to be made, of an order class, is behind an earlier access of the slot or of one of its operations. -/
def slotBehind (s : State) (cls : BitVec 3) (va n : Nat) (store : Bool) : Bool :=
  behindOuts (me s).outs (me s).nextId s.cur.pass cls va n store ||
    behindOps (myTile s) s.cur.slot (me s).nextId cls store (fun lo m => decide (lo < va56 va + n) && decide (va56 va < lo + m))

/-- An access of an operation is behind an earlier access of its slot. -/
def opHeldBack (s : State) (pos : Nat) (o : AsyncOp) (va n : Nat) (store : Bool) : Bool :=
  behindOuts (slotAt s pos o.slot).outs o.before o.pass o.cls va n store

/-- An access of an operation to a registered range may not be made yet: behind an earlier access of its slot, or an earlier operation of its tile. -/
def opWaits (s : State) (pos : Nat) (o : AsyncOp) (va n : Nat) (dest : Bool) : Bool :=
  opHeldBack s pos o va n dest || rangeBehind (tileAt s pos) o va n dest

/-! ### Starting and ending (07 R154, R156; 12 R267, R271) -/

/-- Entries of a lock table (07 R154). -/
def lockSize : Nat := 16

/-- The lock table has room for an operation's entries. -/
def lockRoom (t : Tile) (k : OpKind) : Bool := decide (t.lock.length + k.ranges.length ≤ lockSize)

/-- An operation of the current slot begins: its entries, its pending token, and the operation itself. -/
def startOp (s : State) (kind : OpKind) (tok : BitVec 5) (cls scope : BitVec 3) (record : Option Word) (beats : Nat) (started : Bool) : State :=
  let x := me s
  let id := (myTile s).nextOp
  let o : AsyncOp :=
    { id := id, slot := s.cur.slot, tok := tok, kind := kind, cls := cls, scope := scope, record := record, owed := beats, landed := 0
      progress := 0, discarded := false, skipped := 0, skips := [], told := false, clean := [], started := started, finished := false
      asid := x.asid.setWidth 9, root := x.ptbase, sup := x.sstatus.getLsbD 0, held := none, before := x.nextId, pass := s.cur.pass
      ret := ((myTile s).reta, (myTile s).retb) }
  let s1 := reserveToken (setMe s { x with sPend := pendToken x.sPend tok.toNat }) s.cur.pos s.cur.slot tok.toNat (.op id)
  let t := myTile s1
  setMyTile s1
    { t with
      ops := t.ops ++ [o]
      nextOp := id + 1
      lock := t.lock ++ kind.ranges.map (fun r =>
        { start := r.start, len := r.len, dest := r.dest, slot := s.cur.slot, tok := tok, op := id }) }

/-- The operation of a tile with a number. -/
def opOf (s : State) (pos id : Nat) : Option AsyncOp := (tileAt s pos).ops.find? (fun o => o.id == id)

/-- Replace an operation. -/
def updOp (s : State) (pos : Nat) (o : AsyncOp) : State :=
  let t := tileAt s pos
  setTile s pos { t with ops := t.ops.map (fun p => if p.id = o.id then o else p) }

/-- An operation ends: its token is written and its lock-table entries are freed in one step; it stays only to subtract beats it still owes. -/
def endOp (s : State) (pos : Nat) (o : AsyncOp) (status : Int) (cause : Option (Nat × Word)) : State :=
  let s1 := noteStatus (wrToken s pos o.slot o.tok.toNat (.op o.id) (ofInt 64 status)) pos o.slot o.tok.toNat cause
  let t := tileAt s1 pos
  setTile s1 pos
    { t with
      lock := t.lock.filter (fun e => e.op != o.id)
      ops := if o.owed = 0 then t.ops.filter (fun p => p.id != o.id)
             else t.ops.map (fun p => if p.id = o.id then { o with finished := true, held := none } else p) }

/-! ### Accesses that keep their slot STALLED (12 R424) -/

/-- The answer of such an access. -/
inductive Inline where
  | ok (s : State) (v : Nat) (poison : Bool)
  | wait (s : State)
  | bad (s : State) (c : Cause)

/-- A withheld access of a slot that stays STALLED; a re-walk of a released access keeps the cycle in which it first translated ABSENT (07 R162; 20 R372, R375). -/
def blockSlot (s : State) (pos k : Nat) (va : Nat) (migrating write : Bool) : State :=
  let x := withhold s (slotWho s pos k) va migrating write (slotAt s pos k).blocked
  setSlot x.1 pos k { slotAt x.1 pos k with blocked := some x.2 }

/-- An access of a slot that it waits for has been asked for, or answered; then nothing of it is withheld. -/
def asks (s : State) (pos k : Nat) (b : Bool) : State :=
  let t := slotAt s pos k
  if b then setSlot s pos k { t with busy := some { t.busy.getD {} with asking := true } }
  else if t.blocked.isNone && !t.busy.any (·.asking) then s
  else
    setSlot (leaveReplay s (transQuay pos) (.inline pos k)) pos k
      { t with blocked := none, busy := t.busy.map (fun y => { y with asking := false }) }

/-- The agent of an access that the current slot waits for, with its order class. -/
def inlineWho (s : State) (cls : BitVec 3) : Who := { slotWho s s.cur.pos s.cur.slot with oc := cls.toNat }

/-- The translation quay forwards an earlier global access of the current slot before the one that the slot waits for (20 R368). -/
def inlineAtQuay (s : State) (va : Nat) : Bool :=
  isGlobal (BitVec.ofNat 64 va) && !hasLeft s (.inline s.cur.pos s.cur.slot) &&
    waitsAtQuay s s.cur.pos s.cur.slot ((me s).outs.filter (fun b => !(s.cur.pass && b.late)))

/-- An access of the current slot that the slot waits for: a load, store or atomic of the slot, which a registered range may refuse (07 R155), in local order
after its earlier ones. Of an operation of several accesses each is made once. -/
def inlineAccess (s : State) (va n : Nat) (cls : BitVec 3) (rel : Bool) (kind : LKind) (upd : Nat → Bool → Upd) : Inline :=
  match lockedAddr (myTile s) ((List.range n).map (fun i => va56 va + i)) (kind != .load) with
  | some x => .bad s { row := 10, cause := cRANGE, tval := BitVec.ofNat 64 x }
  | none =>
    if slotBehind s cls va n (kind != .load) || (rel && !(me s).outs.isEmpty) || inlineAtQuay s va then .wait s
    else
      match observed s (inlineWho s cls) va n (kind != .load) (memAccess s (inlineWho s cls) va n kind upd) with
      | .ok s1 v p => .ok (asks s1 s.cur.pos s.cur.slot false) v p
      | .wait s1 => .wait (asks s1 s.cur.pos s.cur.slot true)
      | .held s1 m => .wait (blockSlot s1 s.cur.pos s.cur.slot va m (kind != .load))
      | .bad s1 why =>
        .bad (asks s1 s.cur.pos s.cur.slot false) { row := why.row, cause := why.cause, tval := BitVec.ofNat 64 (va56 va) }

/-- One read of an operation of several: made once, however often the instruction is tried again (19 R350). -/
def inlineOnce (s : State) (va n : Nat) (cls : BitVec 3) : Inline :=
  match fetchedAt s (.inline s.cur.pos s.cur.slot) va with
  | some f => .ok s f.data f.poison
  | none =>
    match inlineAccess s va n cls false .load readOnly with
    | .ok s1 v p => .ok (noteFetched s1 (.inline s.cur.pos s.cur.slot) va v p) v p
    | r => r

/-- Reads of 64 bytes each from an address, `n` of them: the units with their poison bits, from the last to the first. -/
def inlineUnits (cls : BitVec 3) : Nat → Nat → State → List (Nat × Bool) → Except Inline (State × List (Nat × Bool))
  | 0, _, s, acc => .ok (s, acc)
  | n + 1, va, s, acc =>
    match inlineOnce s va 64 cls with
    | .ok s1 v p => inlineUnits cls n (va + 64) s1 ((v, p) :: acc)
    | e => .error e

/-- The instruction of a slot waits, and keeps what it has done. -/
def keepBusy (s : State) (pos k : Nat) : State :=
  let t := slotAt s pos k
  if t.busy.isSome then s else setSlot s pos k { t with busy := some {} }

/-- `n` units of 64 bytes from an address, first to last; what has been read stays read until the instruction is done. -/
def inlineRead (s : State) (va n : Nat) (cls : BitVec 3) : Except Inline (State × List (Nat × Bool)) :=
  match inlineUnits cls n va s [] with
  | .ok (s1, l) => .ok (keepBusy s1 s.cur.pos s.cur.slot, l.reverse)
  | .error (.wait s1) => .error (.wait (keepBusy s1 s.cur.pos s.cur.slot))
  | .error e => .error e

/-- Continue with units that have been read; else the slot waits or the cause is raised. -/
def withUnits (s : State) (va n : Nat) (cls : BitVec 3) (f : State → List (Nat × Bool) → Effect) : Effect :=
  match inlineRead s va n cls with
  | .ok (s1, l) => f s1 l
  | .error (.wait s1) => .wait s1
  | .error (.bad s1 c) => .trapWith s1 c
  | .error (.ok s1 _ _) => .wait s1

/-- The bytes of units. -/
def unitBytes (l : List (Nat × Bool)) : List Byte := l.flatMap (fun u => bytesLE 64 u.1)

/-! ### Barrier records named by an instruction (12 R272, R274, R275) -/

/-- The tests of a record address: a multiple of 16, in own scratch, a neighbour window or global memory. -/
def recordTests (s : State) (va : Word) (e : Effect) : Effect :=
  demand (decide (va.toNat % 16 = 0)) 8 cMISALIGN va <|
  demand (reachable s va 16) 9 cACCESS va e

/-- Beats are added to a record at issue (07 R158); without a record, or without beats, nothing is added. -/
def addBeats (s : State) (record : Option Word) (n : Nat) (cls : BitVec 3) (f : State → Effect) : Effect :=
  match record with
  | none => f s
  | some va =>
    if n = 0 then f s
    else
      match inlineAccess s va.toNat 16 cls false .atomic (barUpd (barAdd n) false) with
      | .ok s1 _ _ => f s1
      | .wait s1 => .wait s1
      | .bad s1 c => .trapWith s1 (if c.cause = cBARRIER then { c with row := 12 } else c)

/-! ### Accesses of an engine (12 R269; 06 R130, R136, R138; 20 Table 20-5) -/

/-- The answer of an engine's access. -/
inductive EAns where
  | ok (s : State) (v : Nat) (poison : Bool)
  | wait (s : State)
  /-- withheld on an address -/
  | held (s : State) (va : Nat) (migrating write : Bool)
  /-- translation or permission failed: status −1 -/
  | fail (s : State)
  /-- a write was discarded: status −2 -/
  | discard (s : State)

/-- SEAL_TAG for an engine's read of a failed block, once for the block and partition (06 R136); the rule states no STVAL. -/
def sealOnce (s : State) (w : Who) (l : Nat) : State :=
  match w.part with
  | none => s
  | some p =>
    let b := blockOfLine l
    let y := dieAt s (dieOfBlock b)
    if y.sealTold.contains (b, p) then s
    else nextFresh (raiseEvent (setDie s (dieOfBlock b) { y with sealTold := (b, p) :: y.sealTold }) p cSEALTAG (Config.freeWord s.fresh))

/-- What an engine's access to a failed block or a Broken line raises (06 R136; 21 R389). -/
def engineLoss (s : State) (w : Who) (va : Nat) (why : Bad) : State :=
  match why, lineAt s w va with
  | .failed, some l => sealOnce s w l
  | .broken, some l => nextFresh (lostOnce s w l (Config.freeWord s.fresh))
  | _, _ => s

/-- One access of an engine by effective address; the operand bank of its own tile is reached. -/
def engineMem (s : State) (w : Who) (va n : Nat) (kind : LKind) (upd : Nat → Bool → Upd) : MemAns :=
  if isGlobal (BitVec.ofNat 64 va) then observed s w va n (kind != .load) (globalAccess s w va n kind upd)
  else
    match regionOf s w.pos va n with
    | .scratch pos off => crossTo s w pos (fun s1 => scratchAccess s1 pos off n upd)
    | .bank pos off => bankAccess s pos off n upd
    | .none => .bad s .access

/-- A read of an engine that lies within one 64-byte unit: failed and Broken data arrive poisoned and undefined. -/
def engineRead (s : State) (w : Who) (va n : Nat) : EAns :=
  match engineMem s w va n .load readOnly with
  | .ok s1 v p => .ok s1 v p
  | .wait s1 => .wait s1
  | .held s1 m => .held s1 va m false
  | .bad s1 .access => .fail s1
  | .bad s1 why => .ok (nextFresh (engineLoss s1 w va why)) ((Config.freeVec s1.fresh).toNat % 2 ^ (8 * n)) true

/-- A read of at most 64 bytes that may straddle two units. -/
def engineReadAcross (s : State) (w : Who) (va n : Nat) : EAns :=
  let m := min n (64 - va % 64)
  if m = n then engineRead s w va n
  else
    match engineRead s w va m with
    | .ok s1 v p =>
      (match engineRead s1 w (va + m) (n - m) with
       | .ok s2 v2 p2 => .ok s2 (v + v2 * 2 ^ (8 * m)) (p || p2)
       | e => e)
    | e => e

/-- A write of an engine that lies within one 64-byte unit. -/
def engineWrite (s : State) (w : Who) (va n data : Nat) (poison : Bool) : EAns :=
  match engineMem s w va n .store (fun _ _ => .put data (fullMask n) poison) with
  | .ok s1 v p => .ok s1 v p
  | .wait s1 => .wait s1
  | .held s1 m => .held s1 va m true
  | .bad s1 .access => .fail s1
  | .bad s1 why => .discard (if why = .broken then engineLoss s1 w va why else s1)

/-- Both halves of a Poisoned line have been written unpoisoned by one operation: the line is I (06 R130). -/
def cleanLine (s : State) (w : Who) (o : AsyncOp) (va n : Nat) (poison : Bool) : State × AsyncOp :=
  if poison || n != 64 || !isGlobal (BitVec.ofNat 64 va) then (s, o)
  else
    let h := va56 va / 64
    let o1 := { o with clean := h :: o.clean }
    if !o.clean.contains (if h % 2 = 0 then h + 1 else h - 1) then (s, o1)
    else
      match lineAt s w va with
      | some l => if homedHere s l && (metaOf s l).st == .poisoned then (setMeta s l LineMeta.idle, o1) else (s, o1)
      | none => (s, o1)

end Sys2Proof.Machine
end

