-- ==== Sys2Proof/Machine/Residue.lean ====
section
/-!
DEFINITION. The residue matrix unit: digits, the check and conversion of elements, RMMA, conversions, moves, accumulator images and the operand
bank: major opcodes 0x20 to 0x25 (05 R97 to R111; 11 R237 to R260).
-/
namespace Sys2Proof.Machine

open Sys2Proof

/-! ### Arithmetic (05 R99 to R101) -/

/-- RnsReduce(x, c) (05 R100). -/
def rnsReduce (x : Int) (c : Nat) : Nat := (x % (Config.modulus c : Int)).toNat

/-- Inv(a, m): the b in 1 to m − 1 with ab mod m = 1 (05 R101). -/
def modInv (a m : Nat) : Nat := ((List.range m).find? (fun b => a * b % m == 1)).getD 0

/-- The steps of Mrd over digits paired with their moduli; X and W so far. -/
def mrdFrom : Nat → List (Nat × Nat) → Nat → Nat → Nat × Nat
  | 0, _, x, w => (x, w)
  | _ + 1, [], x, w => (x, w)
  | n + 1, (t, m) :: rest, x, w =>
    let a := t % m
    mrdFrom n (rest.map (fun e => ((e.1 + e.2 * m - a) % e.2 * modInv (m % e.2) e.2 % e.2, e.2))) (x + a * w) (w * m)

/-- Mrd(v, D): the signed value of mixed-radix decoding (05 R101). -/
def mrd (v : List Nat) (d : List Nat) : Int :=
  let r := mrdFrom d.length (d.map (fun c => (v.getD c 0, Config.modulus c))) 0 1
  if 2 * r.1 ≥ r.2 then (r.1 : Int) - r.2 else r.1

/-- The range limit L of a mode (05 R98). -/
def rangeLimit (mode : BitVec 1) : Nat := if mode = 1 then 30 else 62

/-- Legit(v, S) (05 R101). -/
def legit (mode : BitVec 1) (v : List Nat) (d : List Nat) : Bool :=
  d.all (fun c => decide (v.getD c 0 < Config.modulus c)) &&
    (let x := mrd v d; decide (-(2 ^ rangeLimit mode : Int) ≤ x ∧ x < 2 ^ rangeLimit mode))

/-- The channels of an element of set A (0) or B (1) of a mode (05 R98). -/
def setChannels (mode : BitVec 1) (set : Nat) : List Nat :=
  if mode = 0 then [0, 1, 2, 3, 4, 5, 6, 7, 8, 9] else if set = 0 then [0, 1, 2, 3, 8] else [4, 5, 6, 7, 9]

/-- The active set D: without the retired channels (05 R101, R110). -/
def activeSet (t : Tile) (set : Nat) : List Nat :=
  (setChannels t.rnsMode set).filter (fun c => c != t.reta.toNat && c != t.retb.toNat)

/-- The redundancy ρ (05 R101). -/
def redundancy (t : Tile) (set : Nat) : Nat := (activeSet t set).length - (if t.rnsMode = 0 then 8 else 4)

/-- The result of MixedRadix (05 R101); a mismatch carries the number of legitimate exclusions, 0 when ρ < 2 (Table 5-4). -/
inductive Mixed where
  | ok (x : Int)
  | corrected (x : Int) (ch : Nat)
  | mismatch (found : Nat)
  deriving DecidableEq, Repr

/-- MixedRadix of an element of a set (05 R101). -/
def mixedRadix (t : Tile) (set : Nat) (v : List Nat) : Mixed :=
  let d := activeSet t set
  if legit t.rnsMode v d then .ok (mrd v d)
  else if redundancy t set < 2 then .mismatch 0
  else
    let c := d.filter (fun c => legit t.rnsMode v (d.filter (· != c)))
    match c with
    | [c] => .corrected (mrd v (d.filter (· != c))) c
    | l => .mismatch l.length

/-- CeilLog2(n): the smallest e with 2^e ≥ n (05 R105). -/
def ceilLog2 (n : Nat) : Nat := if n ≤ 1 then 0 else Nat.log2 (n - 1) + 1

/-- The residue-add rule for bounds (05 Table 5-7). -/
def addBound (a b : Nat) : Nat := if min a b = 0 then max a b else max a b + 1

/-- The smallest e with |x| < 2^e. -/
def magExp (x : Int) : Nat := if x = 0 then 0 else Nat.log2 x.natAbs + 1

/-! ### Elements and cells (11 R237) -/

/-- Columns N of a mode (11 Table 11-1). -/
def columns (mode : BitVec 1) : Nat := if mode = 1 then 96 else 48

/-- Elements NE of a mode. -/
def elements (mode : BitVec 1) : Nat := 16 * columns mode

/-- The cell and the set of an element (11 Table 11-1). -/
def elemCell (mode : BitVec 1) (e : Nat) : Nat × Nat :=
  if mode = 0 then (e, 0) else (48 * (e / 96) + e % 96 % 48, e % 96 / 48)

/-- The ten bytes of a cell. -/
def cellBytes (m : Mem) (n : Nat) : List Nat := (memRun m (10 * n) 10).map (·.toNat)

/-- Replace bytes of a cell: channel and digit. -/
def setDigits (m : Mem) (n : Nat) (ds : List (Nat × Nat)) : Mem :=
  ds.foldl (fun m d => memSet m (10 * n + d.1) (BitVec.ofNat 8 d.2)) m

/-- An accumulator of a tile. -/
def accOf (t : Tile) (a : Nat) : Acc := vget Acc.reset t.acc a

/-- Replace an accumulator. -/
def setAcc (t : Tile) (a : Nat) (x : Acc) : Tile := { t with acc := vset t.acc a x }

/-- MixedRadix of an element of an accumulator. -/
def checkElem (t : Tile) (a : Acc) (e : Nat) : Mixed :=
  let c := elemCell t.rnsMode e
  mixedRadix t c.2 (cellBytes a.cells c.1)

/-! ### The check and its outcomes (05 R102) -/

/-- The checks of elements `e` up to `e + n - 1`: the lowest mismatch, or every value with its corrected channel. -/
def checkRun (t : Tile) (a : Acc) : Nat → Nat → Except (Nat × Nat) (List (Nat × Int × Option Nat))
  | _, 0 => .ok []
  | e, n + 1 =>
    match checkElem t a e with
    | .mismatch k => .error (e, k)
    | .ok x => (checkRun t a (e + 1) n).map ((e, x, none) :: ·)
    | .corrected x c => (checkRun t a (e + 1) n).map ((e, x, some c) :: ·)

/-- The cause of a mismatch (05 Table 5-4). -/
def mismatchCause (t : Tile) (e found : Nat) : Cause :=
  if t.rnsMode = 0 then { row := 16, cause := cRNSUNC, tval := BitVec.ofNat 64 (e % 2 ^ 16 + found * 2 ^ 16) }
  else { row := 16, cause := cRNSCH, tval := BitVec.ofNat 64 (e % 2 ^ 16 + (elemCell t.rnsMode e).2 * 2 ^ 16) }

/-- The corrected elements among checked ones: element, value and channel. -/
def correctedOf (l : List (Nat × Int × Option Nat)) : List (Nat × Int × Nat) :=
  l.filterMap (fun r => r.2.2.map (fun c => (r.1, r.2.1, c)))

/-- The RNS_CORR event (21 Table 21-2). -/
def corrEvent (slot : Nat) (part : Option Nat) (cycle : Word) (acc : Nat) (coll : Bool) (e ch n : Nat) : SynEvent :=
  { kind := 1, slot := slot, part := part, cycle := cycle, addr := 0
    lo := BitVec.ofNat 64 (acc + (if coll then 4 else 0) + e * 2 ^ 16 + ch * 2 ^ 32 + n * 2 ^ 48) }

/-- The corrections of a check: digits rewritten, FLAGS.RC set, one event; a full syndrome queue holds the instruction back (05 R102; 21 R380). -/
def applyCorrections (s : State) (acc : Nat) (l : List (Nat × Int × Option Nat)) (f : State → Effect) : Effect :=
  match correctedOf l with
  | [] => f s
  | (e, x, c) :: rest =>
    if synFull s then .wait s
    else
      let t := myTile s
      let a := accOf t acc
      let cells := ((e, x, c) :: rest).foldl (fun m r => setDigits m (elemCell t.rnsMode r.1).1 [(r.2.2, rnsReduce r.2.1 r.2.2)]) a.cells
      let s1 := setMyTile s (setAcc t acc { a with cells := cells })
      f (pushSyn (orFlags s1 fRC) (corrEvent s.cur.slot (partOf s s.cur.pos) s.cycle acc false e c (rest.length + 1)))

/-- Check elements of an accumulator; a mismatch raises its cause, else `f` continues with the values. -/
def checked (s : State) (acc e n : Nat) (f : List (Nat × Int × Option Nat) → Effect) : Effect :=
  match checkRun (myTile s) (accOf (myTile s) acc) e n with
  | .error (e, k) => .trap (mismatchCause (myTile s) e k)
  | .ok l => f l

/-- A new bound is within the range limit, or RNS_OVERFLOW is raised with it (05 R106). -/
def boundOk (s : State) (nb : Nat) (e : Effect) : Effect :=
  demand (decide (nb ≤ rangeLimit (myTile s).rnsMode)) 17 cRNSOVF (BitVec.ofNat 64 nb) e

/-! ### Own scratch and operand bank (11 R240) -/

/-- The offset of `n` bytes in the tile's own scratch. -/
def ownScratch (s : State) (va : Word) (n : Nat) : Option Nat :=
  if isGlobal va then none
  else
    match regionOf s s.cur.pos va.toNat n with
    | .scratch p off => if p = s.cur.pos then some off else none
    | _ => none

/-- A scratch operand: a multiple of 64 in own scratch (11 R240, R244, R254). -/
def scratchOperand (s : State) (va : Word) (n : Nat) (f : Nat → Effect) : Effect :=
  demand (decide (va.toNat % 64 = 0)) 8 cMISALIGN va <|
    match ownScratch s va n with
    | some off => f off
    | none => .trap { row := 9, cause := cACCESS, tval := va }

/-- The bytes of a range of a tile's scratch with its poison; the spill region of a task domain holds nothing defined once touched (02 R49). -/
def scratchBytes (s0 : State) (pos off n : Nat) : State × List Byte × Bool :=
  if inSpill (tileAt s0 pos) off n then
    let s := spillTouched s0 pos
    let m := (tileAt s pos).scratch
    ({ s with fresh := s.fresh + n / 64 + 1 },
      (List.range n).map (fun i =>
        if Config.spillOff ≤ off + i then (Config.freeVec (s.fresh + i / 64)).extractLsb' (8 * (i % 64)) 8 else memGet m (off + i)),
      unitsPoison (tileAt s pos).scratchP off n)
  else (s0, memRun (tileAt s0 pos).scratch off n, unitsPoison (tileAt s0 pos).scratchP off n)

/-- Whole 64-byte units of a tile's scratch written with one poison bit. -/
def putScratch (s0 : State) (pos off : Nat) (bs : List Byte) (poison : Bool) : State :=
  let s := if inSpill (tileAt s0 pos) off bs.length then spillTouched s0 pos else s0
  let t := tileAt s pos
  wakeScratch s
    (setTile s pos { t with scratch := memSplice t.scratch off bs, scratchP := unitsStore t.scratchP off bs.length true poison }) pos

/-! ### RMMA (11 R243 to R246) -/

/-- Element `i` of bytes as integers of `w` bytes, little-endian, signed or unsigned (11 R244). -/
def elemInt (bs : Array Byte) (w : Nat) (u : Bool) (i : Nat) : Int :=
  let x := if w = 1 then (bs.getD i 0).toNat else (bs.getD (2 * i) 0).toNat + 256 * (bs.getD (2 * i + 1) 0).toNat
  if !u && decide (2 ^ (8 * w - 1) ≤ x) then (x : Int) - 2 ^ (8 * w) else x

/-- K of a width (11 Table 11-4). -/
def depthOf (w : Bool) : Nat := if w then 48 else 96

/-- Σ A[i][k] · B[k][j] over k. -/
def dotAt (a b : Array Byte) (w au bu : Bool) (bCols i j : Nat) : Int :=
  let k := depthOf w
  let wb := if w then 2 else 1
  ((List.range k).map (fun q => elemInt a wb au (i * k + q) * elemInt b wb bu (q * bCols + j))).foldl (· + ·) 0

/-- The digits of every cell after the products (11 R245): channel by channel, whatever the digits were. -/
def rmmaCells (mode : BitVec 1) (cells : Mem) (a b : Array Byte) (w au bu : Bool) : Mem :=
  let old := (memRun cells 0 7680).toArray
  let new := (List.range 768).flatMap (fun n =>
    let i := n / 48
    let jj := n % 48
    let p := dotAt a b w au bu (columns mode) i jj
    let q := if mode = 1 then dotAt a b w au bu (columns mode) i (jj + 48) else p
    (List.range 10).map (fun c =>
      let x := if mode = 1 && (setChannels mode 1).contains c then q else p
      BitVec.ofNat 8 (rnsReduce ((old.getD (10 * n + c) 0).toNat + x) c)))
  cellsFrom 0 new

/-- The largest magnitude of an element of `bits` bits. -/
def maxMag (bits : Nat) (u : Bool) : Nat := if u then 2 ^ bits - 1 else 2 ^ (bits - 1)

/-- The RMMAs of a tile that have not written their token. -/
def rmmas (t : Tile) : List AsyncOp :=
  t.ops.filter (fun o => match o.kind with | .rmma .. => true | _ => false)

/-- The stage an operation reads. -/
def OpKind.stageOf : OpKind → Option Nat
  | .rmma _ (some g) _ _ _ _ _ => some g.1
  | _ => none

/-- RMMA: poison of the addresses, UNDEF_OP of W = 1 in paired mode, alignment, ranges or stage, then the bound, which is set at issue
(11 R243 to R246, R258). -/
def execRmma (g : BitVec 3) (t a b : BitVec 5) (c : BitVec 2) (x y w u v : BitVec 1) (s : State) : Out :=
  runCore (.rmma g t a b c x y w u v) s (fun o s =>
    let tl := myTile s
    let fromStage := x == 1
    let stage := y.toNat
    let wide := w == 1
    let va := o.word 0
    let off := (o.word 1).toNat
    let st := vget AStage.reset tl.stage stage
    let ac := accOf tl c.toNat
    let bits := if wide then 16 else 8
    let nb := ceilLog2 (2 ^ ac.beta.toNat + depthOf wide * maxMag bits (u == 1) * maxMag bits (v == 1))
    needClean o 0 <| needClean o 1 <|
    demand (!(wide && tl.rnsMode == 1)) 7 cUNDEF (curWord s) <|
    demand (fromStage || decide (va.toNat % 64 = 0)) 8 cMISALIGN va <|
    demand (decide (off % 64 = 0)) 8 cMISALIGN (o.word 1) <|
    demand (fromStage || (ownScratch s va aSize).isSome) 9 cACCESS va <|
    demand (decide (off + bSize tl.rnsMode ≤ Config.bankSize)) 9 cACCESS (o.word 1) <|
    demand (!fromStage || st.fp == 24) 9 cACCESS (BitVec.ofNat 64 stage) <|
    boundOk s nb <|
      let kind : OpKind :=
        .rmma c.toNat (if fromStage then some (stage, st.poison) else none) ((ownScratch s va aSize).getD 0) off wide (u == 1) (v == 1)
      if 2 ≤ (rmmas tl).length || !lockRoom tl kind then .wait s
      else
        let tl1 := setAcc tl c.toNat { ac with beta := BitVec.ofNat 7 nb }
        let tl2 := if fromStage then { tl1 with stage := vset tl1.stage stage { st with fp := 0, poison := false } } else tl1
        .done (startOp (setMyTile s tl2) kind t 0 0 none 0 (rmmas tl).isEmpty))

/-- RMMA_START: a waiting RMMA begins when none runs (11 R246). -/
def execRmmaStart (s : State) : Out := with1 s fun pos =>
  let t := tileAt s pos
  if (rmmas t).any (·.started) then .next s
  else
    match rmmas t with
    | o :: _ => .next (updOp s pos { o with started := true })
    | [] => .next s

/-- The armed injection of KIND 1: digit CH of cell 0 is written one greater modulo its modulus (18 R325). -/
def injectDigit (t : Tile) (cells : Mem) : Tile × Mem :=
  if armedKind t = 1 then
    let ch := bitsOf t.faultinj 59 56
    ({ t with faultinj := bitSet t.faultinj 63 false },
      if ch < 10 then memSet cells ch (BitVec.ofNat 8 (((memGet cells ch).toNat + 1) % Config.modulus ch)) else cells)
  else (t, cells)

/-- The 64-byte units of memory that a matrix operation reads after its issue, by their addresses: of A in scratch, of B in the operand bank, of an image. -/
def OpKind.readUnits (mode : BitVec 1) (k : OpKind) : List Nat :=
  match k with
  | .rmma _ _ _ b _ _ _ => k.sources.map (·.1) ++ (List.range (bSize mode / 64)).map (fun i => Config.localBase + Config.bankOff + b + 64 * i)
  | .rlda .. => k.sources.map (·.1)
  | .radds .. => k.sources.map (·.1)
  | _ => []

/-- The 64-byte units that a matrix operation writes. -/
def OpKind.writeUnits (k : OpKind) : List Nat :=
  match k with
  | .rsta _ a => (List.range (imageSize / 64)).map (fun i => Config.localBase + a + 64 * i)
  | _ => []

/-- A unit that a matrix operation has still to read or write may not be touched yet (07 R146, R157; 11 R241). -/
def matrixWaits (s : State) (pos : Nat) (o : AsyncOp) : Bool :=
  ((o.kind.readUnits (tileAt s pos).rnsMode).zipIdx.any (fun x => !o.read.any (fun r => r.1 == x.2) && opWaits s pos o x.1 64 false)) ||
    (o.kind.writeUnits.zipIdx.any (fun x => !o.moved.contains x.2 && opWaits s pos o x.1 64 true))

/-- The bytes of units from number `k` on, with their poison: as they were read before, or as they stand now. -/
def asRead (o : AsyncOp) (k : Nat) (bs : List Byte) (poison : Mem) (off : Nat) : List Byte × Bool :=
  if o.read = [] then (bs, unitsPoison poison off bs.length)
  else
    let units := (List.range (bs.length / 64)).map (fun i =>
      match o.read.find? (fun r => r.1 == k + i) with
      | some r => (bytesLE 64 r.2.1, r.2.2)
      | none => ((bs.drop (64 * i)).take 64, memGet poison (off / 64 + i) != 0))
    (units.flatMap (·.1), units.any (·.2))

/-- A range of own scratch as an operation reads it. -/
def scratchRead (s : State) (pos : Nat) (o : AsyncOp) (off n : Nat) : State × List Byte × Bool :=
  let r := scratchBytes s pos off n
  let x := asRead o 0 r.2.1 (tileAt r.1 pos).scratchP off
  (r.1, x.1, x.2)

/-- The A operand of an RMMA with its poison. -/
def rmmaA (s : State) (pos : Nat) (o : AsyncOp) (stage : Option (Nat × Bool)) (aAddr : Nat) : State × List Byte × Bool :=
  match stage with
  | some g => (s, memRun (vget AStage.reset (tileAt s pos).stage g.1).data 0 aSize, g.2)
  | none => scratchRead s pos o aAddr aSize

/-- The B operand of an RMMA with its poison; its units follow those of A. -/
def rmmaB (t : Tile) (o : AsyncOp) (bOff : Nat) : List Byte × Bool :=
  asRead o o.kind.sources.length (memRun t.bank bOff (bSize t.rnsMode)) t.bankP bOff

/-- RMMA_COMPLETE: the running RMMA has read its operands; it writes its accumulator and its token and frees its entry (11 R245, R246, R257). -/
def execRmmaComplete (s : State) : Out := with1 s fun pos =>
  match (rmmas (tileAt s pos)).find? (·.started) with
  | none => .next s
  | some o =>
    match o.kind with
    | .rmma acc stage aAddr bOff w au bu =>
      if matrixWaits s pos o then .next s
      else
        let r := rmmaA s pos o stage aAddr
        let s1 := r.1
        let t := tileAt s1 pos
        let b := rmmaB t o bOff
        let x := accOf t acc
        let cells := rmmaCells t.rnsMode x.cells r.2.1.toArray b.1.toArray w au bu
        let i := injectDigit t cells
        let t1 := setAcc i.1 acc { x with cells := i.2, poison := x.poison || r.2.2 || b.2 }
        .next (endOp (setTile s1 pos t1) pos o (aSize + bSize t.rnsMode) none)
    | _ => .next s

/-! ### Conversions (11 R247, R248) -/

/-- Lane values of RFWD: `n` values of `w` bits, signed unless `u` (11 R247). -/
def rfwdValues (v : Vec) (w : Nat) (u : Bool) : List Int :=
  (List.range (512 / w)).map (fun q =>
    let x := bitsOf v (w * q + w - 1) (w * q)
    if !u && decide (2 ^ (w - 1) ≤ x) then (x : Int) - 2 ^ w else x)

/-- The element index register after the .inc suffix. -/
def incIndex (s : State) (i : BitVec 1) (b : BitVec 5) (x : Word) (n : Nat) : State :=
  if i = 1 then setS s b (x + BitVec.ofNat 64 n) false else s

/-- RFWD (11 R247). -/
def execRfwd (g : BitVec 3) (d a b : BitVec 5) (w : BitVec 2) (u i : BitVec 1) (s : State) : Out :=
  runCore (.rfwd g d a b w u i) s (fun o s =>
    let t := myTile s
    let xs := rfwdValues (o.vec 0) (8 * 2 ^ w.toNat) (u == 1)
    let e0 := (o.word 1).toNat
    let ac := accOf t d.toNat
    let nb := max ((xs.map magExp).foldl max 0) ac.beta.toNat
    needClean o 1 <|
    demand (decide (e0 + xs.length ≤ elements t.rnsMode)) 9 cACCESS (o.word 1) <|
    boundOk s nb <|
      let cells := (xs.zipIdx).foldl (fun m x =>
        let c := elemCell t.rnsMode (e0 + x.2)
        setDigits m c.1 ((setChannels t.rnsMode c.2).map (fun ch => (ch, rnsReduce x.1 ch)))) ac.cells
      let s1 := setMyTile s (setAcc t d.toNat { cells := cells, beta := BitVec.ofNat 7 nb, poison := ac.poison || o.psn 0 })
      .done (incIndex s1 i b (o.word 1) xs.length))

/-- RREV (11 R248). -/
def execRrev (g : BitVec 3) (d a b : BitVec 5) (i : BitVec 1) (s : State) : Out :=
  runCore (.rrev g d a b i) s (fun o s =>
    let e0 := (o.word 1).toNat
    needClean o 1 <|
    demand (decide (e0 + 8 ≤ elements (myTile s).rnsMode)) 9 cACCESS (o.word 1) <|
    checked s a.toNat e0 8 fun l =>
    applyCorrections s a.toNat l fun s1 =>
      let v := (l.zipIdx).foldl (fun (v : Nat) r => v + (ofInt 64 r.1.2.1).toNat * 2 ^ (64 * r.2)) 0
      .done (incIndex (setV s1 d (BitVec.ofNat 512 v) (accOf (myTile s) a.toNat).poison) i b (o.word 1) 8))

/-! ### Check, bound and zero (11 R249, R250) -/

/-- RCHK: the number of elements corrected (11 R249). -/
def execRchk (g : BitVec 3) (d a : BitVec 5) (s : State) : Out :=
  runCore (.rchk g d a) s (fun _ s =>
    checked s a.toNat 0 (elements (myTile s).rnsMode) fun l =>
    applyCorrections s a.toNat l fun s1 =>
      .done (setS s1 d (BitVec.ofNat 64 (correctedOf l).length) (accOf (myTile s) a.toNat).poison))

/-- RBND: lower the bound to e (11 R250). -/
def execRbnd (g : BitVec 3) (a b : BitVec 5) (s : State) : Out :=
  runCore (.rbnd g a b) s (fun o s =>
    let e := (o.word 0).toNat
    needClean o 0 <|
    if (accOf (myTile s) a.toNat).beta.toNat < e then .done s
    else
      checked s a.toNat 0 (elements (myTile s).rnsMode) fun l =>
      demand (l.all (fun r => decide (r.2.1.natAbs < 2 ^ e))) 17 cRNSOVF (o.word 0) <|
      applyCorrections s a.toNat l fun s1 =>
        let t := myTile s1
        .done (setMyTile s1 (setAcc t a.toNat { accOf t a.toNat with beta := BitVec.ofNat 7 e })))

/-- RZERO (11 R249). -/
def execRzero (g : BitVec 3) (a : BitVec 5) (s : State) : Out :=
  runCore (.rzero g a) s (fun _ s => .done (setMyTile s (setAcc (myTile s) a.toNat Acc.reset)))

/-- RBGET: rd := β (11 R249). -/
def execRbget (g : BitVec 3) (d a : BitVec 5) (s : State) : Out :=
  runCore (.rbget g d a) s (fun _ s =>
    let x := accOf (myTile s) a.toNat
    .done (setS s d (x.beta.setWidth 64) x.poison))

/-! ### Accumulator adds and moves (11 R252) -/

/-- Digit by digit over all 768 cells. -/
def combineCells (f : Nat → Nat → Nat → Nat) (a b : Mem) : Mem :=
  cellsFrom 0 ((List.zip (memRun a 0 7680) (memRun b 0 7680)).zipIdx.map (fun p => BitVec.ofNat 8 (f (p.2 % 10) p.1.1.toNat p.1.2.toNat)))

/-- RADD and RSUB. -/
def accArith (i : Instr) (d a b : BitVec 5) (f : Nat → Nat → Nat → Nat) (s : State) : Out :=
  runCore i s (fun _ s =>
    let t := myTile s
    let x := accOf t a.toNat
    let y := accOf t b.toNat
    let nb := addBound x.beta.toNat y.beta.toNat
    boundOk s nb <|
      .done (setMyTile s (setAcc t d.toNat
        { cells := combineCells f x.cells y.cells, beta := BitVec.ofNat 7 nb
          poison := (accOf t d.toNat).poison || x.poison || y.poison })))

/-- RADD: digit c := (b_c + c_c) mod m_c. -/
def execRadd (g : BitVec 3) (d a b : BitVec 5) (s : State) : Out :=
  accArith (.radd g d a b) d a b (fun c x y => (x + y) % Config.modulus c) s

/-- RSUB: digit c := (b_c − c_c) mod m_c. -/
def execRsub (g : BitVec 3) (d a b : BitVec 5) (s : State) : Out :=
  accArith (.rsub g d a b) d a b (fun c x y => rnsReduce ((x : Int) - y) c) s

/-- RMOV: cells, bound and poison of the source (11 R252, R257). -/
def execRmov (g : BitVec 3) (d a : BitVec 5) (s : State) : Out :=
  runCore (.rmov g d a) s (fun _ s => .done (setMyTile s (setAcc (myTile s) d.toNat (accOf (myTile s) a.toNat))))

/-- RSTG: appends 64 bytes to a stage (11 R253); a stage that an RMMA still reads is waited for (R242). -/
def execRstg (g : BitVec 3) (a : BitVec 5) (n : BitVec 1) (s : State) : Out :=
  runCore (.rstg g a n) s (fun o s =>
    let t := myTile s
    let x := vget AStage.reset t.stage n.toNat
    demand (decide (x.fp < 24)) 9 cACCESS (n.setWidth 64) <|
      if t.ops.any (fun p => p.kind.stageOf == some n.toNat) then .wait s
      else
        let x1 : AStage :=
          { data := memSplice x.data (64 * x.fp) (bytesLE 64 (o.vec 0).toNat), fp := x.fp + 1, poison := x.poison || o.psn 0 }
        .done (setMyTile s { t with stage := vset t.stage n.toNat x1 }))

/-! ### Accumulator images (11 R238, R254) -/

/-- A header of 64 bytes is valid for a tile's mode: its bound, if so (11 R238). -/
def headerBound (mode : BitVec 1) (h : Nat) : Option Nat :=
  let bound := h % 2 ^ 8
  if bound ≤ rangeLimit mode ∧ h / 2 ^ 8 % 2 ^ 8 = mode.toNat ∧ h / 2 ^ 16 % 2 ^ 16 = 768 ∧ h / 2 ^ 32 = 0 then some bound else none

/-- The header of an image: bound, mode, 768 (11 Table 11-2). -/
def headerOf (mode : BitVec 1) (bound : Nat) : Nat := bound + mode.toNat * 2 ^ 8 + 768 * 2 ^ 16

/-- RLDA and RADDS at issue: the header is read and checked, the bound is set, and the operation begins (11 R254). -/
def loadImage (i : Instr) (t : BitVec 5) (c : BitVec 2) (kind : Nat → OpKind) (bound : Nat → Nat → Nat) (s : State) : Out :=
  runCore i s (fun o s =>
    let va := o.word 0
    needClean o 0 <|
    scratchOperand s va imageSize fun off =>
      let tl := myTile s
      let k := kind off
      if behindOuts (me s).outs (me s).nextId s.cur.pass 0 va.toNat 64 false ||
          tl.ops.any (fun p => !p.finished && p.kind.ranges.any (fun r => r.dest && r.meets ⟨va56 va.toNat, 64, false⟩)) || !lockRoom tl k then .wait s
      else
        let r := scratchBytes s s.cur.pos off 64
        match headerBound tl.rnsMode (ofBytesLE r.2.1) with
        | none => .trapWith r.1 { row := 9, cause := cACCESS, tval := va }
        | some h =>
          let x := accOf tl c.toNat
          let nb := bound x.beta.toNat h
          boundOk s nb <|
            .done (startOp (setMyTile r.1 (setAcc (myTile r.1) c.toNat { x with beta := BitVec.ofNat 7 nb })) k t 0 0 none 0 true))

/-- RLDA (11 R254). -/
def execRlda (g : BitVec 3) (t a : BitVec 5) (c : BitVec 2) (s : State) : Out :=
  loadImage (.rlda g t a c) t c (fun off => .rlda c.toNat off) (fun _ h => h) s

/-- RADDS (11 R254). -/
def execRadds (g : BitVec 3) (t a : BitVec 5) (c : BitVec 2) (s : State) : Out :=
  loadImage (.radds g t a c) t c (fun off => .radds c.toNat off) addBound s

/-- RSTA: on a tile with a retired channel every element is checked first (11 R254; 05 R111). -/
def execRsta (g : BitVec 3) (t a : BitVec 5) (c : BitVec 2) (s : State) : Out :=
  runCore (.rsta g t a c) s (fun o s =>
    let va := o.word 0
    let tl := myTile s
    needClean o 0 <|
    scratchOperand s va imageSize fun off =>
      let k : OpKind := .rsta c.toNat off
      let go : Effect := if !lockRoom tl k then .wait s else .done (startOp s k t 0 0 none 0 true)
      if tl.reta = 0xF ∧ tl.retb = 0xF then go
      else checked s c.toNat 0 (elements tl.rnsMode) fun _ => go)

/-- The cells of an accumulator as they leave the unit: the digits of retired channels are RnsReduce of the checked values (05 R111). A MISMATCH that a save meets
has no instruction to raise it at: the digits leave unchanged, the model's choice (log entry 116). -/
def leavingCells (t : Tile) (a : Acc) : List Byte :=
  let cells :=
    if t.reta = 0xF ∧ t.retb = 0xF then a.cells
    else
      match checkRun t a 0 (elements t.rnsMode) with
      | .error _ => a.cells
      | .ok l => l.foldl (fun m r =>
          let c := elemCell t.rnsMode r.1
          setDigits m c.1 (((setChannels t.rnsMode c.2).filter (fun ch => ch == t.reta.toNat || ch == t.retb.toNat)).map
            (fun ch => (ch, rnsReduce r.2.1 ch)))) a.cells
  memRun cells 0 7680

/-- An accumulator as an image (11 R238). -/
def imageBytes (t : Tile) (x : Acc) : List Byte := bytesLE 64 (headerOf t.rnsMode x.beta.toNat) ++ leavingCells t x

/-- An RSTA writes the units of its image that it has not written alone. -/
def putImage (s : State) (pos : Nat) (o : AsyncOp) (off : Nat) (bs : List Byte) (poison : Bool) : State :=
  if o.moved = [] then putScratch s pos off bs poison
  else
    ((List.range (imageSize / 64)).filter (fun i => !o.moved.contains i)).foldl
      (fun s i => putScratch s pos (off + 64 * i) ((bs.drop (64 * i)).take 64) poison) s

/-- ACCUMULATOR_IMAGE_COMPLETE: an RLDA, RADDS or RSTA moves its image, writes its token and frees its entry (11 R254, R257). -/
def execAccumulatorImageComplete (s : State) : Out := with2 s fun pos id =>
  match opOf s pos id with
  | none => .next s
  | some o =>
    if matrixWaits s pos o then .next s
    else
      match o.kind with
      | .rlda acc off =>
        let r := scratchRead s pos o off imageSize
        let t := tileAt r.1 pos
        let x := accOf t acc
        .next (endOp (setTile r.1 pos (setAcc t acc { x with cells := cellsFrom 0 (r.2.1.drop 64), poison := r.2.2 })) pos o imageSize none)
      | .radds acc off =>
        let r := scratchRead s pos o off imageSize
        let t := tileAt r.1 pos
        let x := accOf t acc
        .next (endOp
          (setTile r.1 pos (setAcc t acc
            { x with
              cells := combineCells (fun c p q => (p + q) % Config.modulus c) x.cells (cellsFrom 0 (r.2.1.drop 64))
              poison := x.poison || r.2.2 })) pos o imageSize none)
      | .rsta acc off =>
        let t := tileAt s pos
        let x := accOf t acc
        .next (endOp (putImage s pos o off (imageBytes t x) x.poison) pos o imageSize none)
      | _ => .next s

/-! ### The operand bank (11 R241, R255) -/

/-- A bank operand: a multiple of 64 that lies in the bank, not in a locked range (11 R240, R255; 07 R155). -/
def bankOperand (s : State) (x : Word) (store : Bool) (e : Effect) : Effect :=
  demand (decide (x.toNat % 64 = 0)) 8 cMISALIGN x <|
  demand (decide (x.toNat + 64 ≤ Config.bankSize)) 9 cACCESS x <|
    match lockedAddr (myTile s) ((List.range 64).map (fun i => Config.localBase + Config.bankOff + x.toNat + i)) store with
    | some y => .trap { row := 10, cause := cRANGE, tval := BitVec.ofNat 64 y }
    | none => e

/-- OBLD: a relaxed load of class 0 (11 R255). -/
def execObld (g : BitVec 3) (d a : BitVec 5) (s : State) : Out :=
  runCore (.obld g d a) s (fun o s =>
    let x := o.word 0
    needClean o 0 <|
    bankOperand s x false <|
      let t := myTile s
      if slotBehind s 0 (Config.localBase + Config.bankOff + x.toNat) 64 false then .wait s
      else .done (setV s d (BitVec.ofNat 512 (ofBytesLE (memRun t.bank x.toNat 64))) (unitsPoison t.bankP x.toNat 64)))

/-- OBST: a relaxed store of class 0; a write waits for the earlier RMMAs that read its bytes (11 R241, R255). -/
def execObst (g : BitVec 3) (d a : BitVec 5) (s : State) : Out :=
  runCore (.obst g d a) s (fun o s =>
    let x := o.word 0
    needClean o 0 <|
    bankOperand s x true <|
      let t := myTile s
      let r : Range := ⟨Config.localBase + Config.bankOff + x.toNat, 64, true⟩
      if slotBehind s 0 (Config.localBase + Config.bankOff + x.toNat) 64 true ||
          t.ops.any (fun p => (p.kind.bankRead t.rnsMode).any (fun b => b.meets r)) then .wait s
      else
        .done (setMyTile s
          { t with bank := memSplice t.bank x.toNat (bytesLE 64 (o.vec 1).toNat), bankP := unitsStore t.bankP x.toNat 64 true (o.psn 1) }))

/-- OBCP: an asynchronous copy between scratch and bank (11 R255). -/
def execObcp (g : BitVec 3) (t a b : BitVec 5) (r : BitVec 1) (c : BitVec 5) (s : State) : Out :=
  runCore (.obcp g t a b r c) s (fun o s =>
    let va := o.word 0
    let x := o.word 1
    let n := 64 * 2 ^ c.toNat
    needClean o 0 <| needClean o 1 <|
    demand (decide (va.toNat % 64 = 0)) 8 cMISALIGN va <|
    demand (decide (x.toNat % 64 = 0)) 8 cMISALIGN x <|
      match ownScratch s va n with
      | none => .trap { row := 9, cause := cACCESS, tval := va }
      | some off =>
        demand (decide (x.toNat + n ≤ Config.bankSize)) 9 cACCESS x <|
          let k : OpKind := .obcp off x.toNat n (r == 1)
          if !lockRoom (myTile s) k then .wait s else .done (startOp s k t 0 0 none 0 true))

/-- An OBCP of which nothing has been moved moves its units with their poison and ends. -/
def runObcp (s : State) (pos : Nat) (o : AsyncOp) (sc bk n : Nat) (toScratch : Bool) : State :=
  let units := n / 64
  if toScratch then
    let s1 := if inSpill (tileAt s pos) sc n then spillTouched s pos else s
    let t := tileAt s1 pos
    endOp (wakeScratch s1 (setTile s1 pos
      { t with
        scratch := memSplice t.scratch sc (memRun t.bank bk n)
        scratchP := memSplice t.scratchP (sc / 64) (memRun t.bankP (bk / 64) units) }) pos) pos o n none
  else
    let r := scratchBytes s pos sc n
    let t := tileAt r.1 pos
    endOp (setTile r.1 pos
      { t with
        bank := memSplice t.bank bk r.2.1
        bankP := memSplice t.bankP (bk / 64) (memRun t.scratchP (sc / 64) units) }) pos o n none

end Sys2Proof.Machine
end

