-- ==== Sys2Proof/Machine/Engine.lean ====
section
/-!
DEFINITION. The copy engine, barriers, tokens and decode-table loads: major opcodes 0x2E to 0x32 and VTBL
(04 R87 to R89; 07 R158 to R161; 10 R229; 11 R255; 12 R267 to R276).
-/
namespace Sys2Proof.Machine

open Sys2Proof

/-! ### Ranges of an engine instruction (12 R269, Table 12-3) -/

/-- Where a range lies. -/
inductive RangeKind where
  | own | neighbour | global | bank | none
  deriving DecidableEq, Repr

/-- The region in which every byte of a range lies, seen from a tile. -/
def rangeKindAt (s : State) (tile : Nat) (va : Word) (len : Nat) : RangeKind :=
  if isGlobal va then (if va56 va.toNat + len ≤ Config.localBase then .global else .none)
  else
    match regionOf s tile va.toNat len with
    | .scratch p _ => if p = tile then .own else .neighbour
    | .bank _ _ => .bank
    | .none => .none

/-- Seen from the tile the instruction acts for. -/
def rangeKind (s : State) (va : Word) (len : Nat) : RangeKind := rangeKindAt s s.cur.pos va len

/-- A range of some bytes lies in the operand-bank region; one of no bytes lies in none (log entry 97). -/
def inBank (s : State) (va : Word) (len : Nat) : Bool := len != 0 && rangeKind s va len == .bank

/-- The barrier record a register names; register 0 names none. -/
def recordArg (b : BitVec 5) (x : Word) : Option Word := if b = 0 then none else some x

/-- The alignment of a record that is named. -/
def recordAligned (r : Option Word) (e : Effect) : Effect :=
  match r with
  | some va => demand (decide (va.toNat % 16 = 0)) 8 cMISALIGN va e
  | none => e

/-- The region of a record that is named (12 R275). -/
def recordRegion (s : State) (r : Option Word) (e : Effect) : Effect :=
  match r with
  | some va => demand (reachable s va 16) 9 cACCESS va e
  | none => e

/-- A token written at issue for an operation that moves nothing. -/
def emptyOp (s : State) (t : BitVec 5) : Effect := .done (setS s t 0 false)

/-- The operation takes its lock-table entries, once there is room, and starts. -/
def register (s : State) (kind : OpKind) (t : BitVec 5) (cls scope : BitVec 3) (record : Option Word) (beats : Nat) : Effect :=
  if lockRoom (myTile s) kind then .done (startOp s kind t cls scope record (if record.isSome then beats else 0) true)
  else .wait (setMe s { me s with busy := some { (me s).busy.getD {} with beats := true } })

/-- Issue of an operation with beats: the beats are added, once, and then the operation registers its ranges and starts (12 R267). -/
def issueOp (s : State) (kind : OpKind) (t : BitVec 5) (cls scope : BitVec 3) (record : Option Word) (beats : Nat) : Effect :=
  if (me s).busy.any (·.beats) then register s kind t cls scope record beats
  else addBeats s record beats cls (fun s1 => register s1 kind t cls scope record beats)

/-! ### COPY (12 R272) -/

/-- COPY: PORT_ILLEGAL for ranges in the bank outside slot 0 of a chart, then the limit of the length and the regions. -/
def execCopy (g : BitVec 3) (t a b : BitVec 5) (c sc : BitVec 3) (s : State) : Out :=
  runCore (.copy g t a b c sc) s (fun o s =>
    let dst := o.word 0
    let src := o.word 1
    let len := (o.word 2).toNat
    let r := recordArg b (o.word 3)
    let kd := rangeKind s dst len
    let ks := rangeKind s src len
    needClean o 0 <| needClean o 1 <| needClean o 2 <| needClean o 3 <|
    recordAligned r <|
    demand (chartSlot s || !inBank s dst len) 9 cPORT dst <|
    demand (chartSlot s || !inBank s src len) 9 cPORT src <|
    demand (decide (len < 2 ^ 32)) 9 cACCESS (o.word 2) <|
    demand (len == 0 || (kd != .none && (kd != .bank || ks == .global))) 9 cACCESS dst <|
    demand (len == 0 || (ks != .none && (ks != .bank || kd == .global))) 9 cACCESS src <|
    recordRegion s r <|
      if len = 0 then emptyOp s t
      else issueOp s (.copy (va56 dst.toNat) (va56 src.toNat) len) t c sc r (unitsOf (va56 dst.toNat) len))

/-! ### GATHER and SCATTER (12 R273) -/

/-- GATHER and SCATTER share their tests. -/
def indexedOp (i : Instr) (t : BitVec 5) (z : BitVec 2) (c sc : BitVec 3) (kind : Nat → Nat → Nat → Nat → Nat → OpKind) (s : State) : Out :=
  runCore i s (fun o s =>
    let cont := o.word 0
    let base := o.word 1
    let idx := o.word 2
    let n := (o.word 3).toNat
    let eb := elemBytes z.toNat
    needClean o 0 <| needClean o 1 <| needClean o 2 <| needClean o 3 <|
    demand (decide (base.toNat % eb = 0)) 8 cMISALIGN base <|
    demand (decide (idx.toNat % 4 = 0)) 8 cMISALIGN idx <|
    demand (decide (n ≤ 2 ^ 24)) 9 cACCESS (o.word 3) <|
    demand (n == 0 || rangeKind s cont (n * eb) == .own) 9 cACCESS cont <|
    demand (n == 0 || isGlobal base || rangeKind s base 1 == .own) 9 cACCESS base <|
    demand (n == 0 || rangeKind s idx (4 * n) == .own) 9 cACCESS idx <|
      if n = 0 then emptyOp s t
      else issueOp s (kind (va56 cont.toNat) (va56 base.toNat) (va56 idx.toNat) n z.toNat) t c sc none 0)

/-- GATHER. -/
def execGather (g : BitVec 3) (t a : BitVec 5) (z : BitVec 2) (c sc : BitVec 3) (s : State) : Out :=
  indexedOp (.gather g t a z c sc) t z c sc .gather s

/-- SCATTER. -/
def execScatter (g : BitVec 3) (t a : BitVec 5) (z : BitVec 2) (c sc : BitVec 3) (s : State) : Out :=
  indexedOp (.scatter g t a z c sc) t z c sc .scatter s

/-! ### NXCH (12 R274) -/

/-- The entry of direction `d` in a descriptor of 64 bytes (12 Table 12-5). -/
def nxEntry (x d : Nat) : NxDir :=
  let e := x / 2 ^ (128 * d)
  { dir := d, src := e % 2 ^ 32, dst := e / 2 ^ 32 % 2 ^ 32, rows := e / 2 ^ 64 % 2 ^ 16, rowLen := e / 2 ^ 80 % 2 ^ 16
    sstr := e / 2 ^ 96 % 2 ^ 16, dstr := e / 2 ^ 112 % 2 ^ 16 }

/-- A used direction that may not be exchanged: no neighbour in the domain, a row length of 0, or a range past 256 KiB. -/
def nxBad (s : State) (e : NxDir) : Bool :=
  (match neighbour s.cur.pos e.dir with
   | some q => !sameDomain s s.cur.pos q
   | none => true) ||
    e.rowLen == 0 || decide (Config.scratchSize < e.src + rowSpan e.rows e.rowLen e.sstr) ||
    decide (Config.scratchSize < e.dst + rowSpan e.rows e.rowLen e.dstr)

/-- The 64-byte units of a neighbour's scratch that a direction writes. -/
def nxUnits (e : NxDir) : Nat :=
  ((List.range (unitsOf e.dst (rowSpan e.rows e.rowLen e.dstr))).filter (fun u =>
    let lo := 64 * (e.dst / 64 + u)
    (List.range e.rows).any (fun r => decide (e.dst + r * e.dstr < lo + 64) && decide (lo < e.dst + r * e.dstr + e.rowLen)))).length

/-- NXCH. -/
def execNxch (g : BitVec 3) (t a b : BitVec 5) (c sc : BitVec 3) (s : State) : Out :=
  runCore (.nxch g t a b c sc) s (fun o s =>
    let va := o.word 0
    let r := recordArg b (o.word 1)
    needClean o 0 <| needClean o 1 <|
    demand (decide (va.toNat % 64 = 0)) 8 cMISALIGN va <|
    recordAligned r <|
    demand (isGlobal va || rangeKind s va 64 == .own) 9 cACCESS va <|
    recordRegion s r <|
    withUnits s va.toNat 1 c fun s1 l =>
      let x := (l.map (·.1)).headD 0
      if l.any (·.2) then .trapWith s1 { row := 15, cause := cPOISON, tval := va }
      else
        let ds := ((List.range 4).map (nxEntry x)).filter (fun e => e.rows != 0)
        match ds.find? (nxBad s1) with
        | some e =>
          .trapWith s1 { row := 15, cause := cACCESS, tval := BitVec.ofNat 64 (0x20000000 + e.dir * 0x01000000 + e.dst) }
        | none =>
          if ds = [] then emptyOp s1 t
          else issueOp s1 (.nxch ds) t c sc r ((ds.map nxUnits).foldl (· + ·) 0))

/-! ### Moving data -/

/-- What moving one unit of an operation answers. -/
inductive EStep where
  | next (s : State) (o : AsyncOp)
  | wait (s : State) (o : AsyncOp)
  | fail (s : State) (o : AsyncOp)

/-- Move units until all are moved or one cannot be; what has been moved out of turn stays moved. -/
def moveUnits (f : State → AsyncOp → EStep) : Nat → State → AsyncOp → EStep
  | 0, s, o => .next s o
  | n + 1, s, o =>
    if o.moved.contains o.progress then moveUnits f n s { o with progress := o.progress + 1 }
    else
      match f s o with
      | .next s1 o1 => moveUnits f n s1 { o1 with progress := o.progress + 1 }
      | e => e

/-- An operation is withheld on an address. -/
def holdOp (s : State) (o : AsyncOp) (w : Who) (va : Nat) (migrating write : Bool) : EStep :=
  let x := withhold s w va migrating write o.held
  .wait x.1 { o with held := some x.2 }

/-- What an operation had withheld has been performed. -/
def letGo (s : State) (o : AsyncOp) (w : Who) : State × AsyncOp :=
  if o.held.isSome then (leaveReplay s w.quay w.ag, { o with held := none }) else (s, o)

/-- Continue an operation with what a read has delivered: it is kept until its unit has been written. -/
def afterRead (o : AsyncOp) (w : Who) (a : EAns) (f : State → AsyncOp → Nat → Bool → EStep) : EStep :=
  match a with
  | .ok s v p => let x := letGo s o w; f x.1 { x.2 with got := some (v, p) } v p
  | .wait s => .wait s o
  | .held s va m wr => holdOp s o w va m wr
  | .fail s => .fail s o
  | .discard s => .next s o

/-- Read a unit, unless it has been read and waits to be written. -/
def readUnit (o : AsyncOp) (w : Who) (s : State) (read : State → EAns) (f : State → AsyncOp → Nat → Bool → EStep) : EStep :=
  match o.got with
  | some (v, p) => f s o v p
  | none => afterRead o w (read s) f

/-- Continue an operation after a write of a unit; a discarded write lets the others go on (12 Table 12-4). -/
def afterWrite (o : AsyncOp) (w : Who) (va n : Nat) (poison : Bool) (a : EAns) : EStep :=
  match a with
  | .ok s _ _ =>
    let x := letGo s { o with got := none } w
    let c := cleanLine x.1 w x.2 va n poison
    .next c.1 { c.2 with landed := if o.record.isSome then c.2.landed + 1 else c.2.landed }
  | .wait s => .wait s o
  | .held s va m wr => holdOp s o w va m wr
  | .fail s => .fail s o
  | .discard s => let x := letGo s { o with got := none } w; .next x.1 { x.2 with discarded := true }

/-- A byte of an operation's destination is a byte of its source: by its address, or through another virtual page of the same physical memory (07 R141;
12 R272). -/
def sharedByte (s : State) (w : Who) (x src len : Nat) : Bool :=
  (decide (src ≤ x) && decide (x < src + len)) ||
    (isGlobal (BitVec.ofNat 64 x) && isGlobal (BitVec.ofNat 64 src) &&
      (match paFull s w x with
       | none => false
       | some p =>
         (List.range ((src + len - 1) / 2 ^ 16 + 1 - src / 2 ^ 16)).any (fun g =>
           let page := (src / 2 ^ 16 + g) * 2 ^ 16
           let y := page + p % 2 ^ 16
           decide (src ≤ y) && decide (y < src + len) && (paFull s w page).map (· / 2 ^ 16) == some (p / 2 ^ 16))))

/-- Bytes of an undefined value in place of those that source and destination share (12 R272). -/
def blendOverlap (s : State) (w : Who) (v free lo n src len : Nat) : Nat :=
  ((List.range n).map (fun i => (if sharedByte s w (lo + i) src len then free else v) / 2 ^ (8 * i) % 256 * 2 ^ (8 * i))).foldl (· + ·) 0

/-- The next unit of a COPY: at most one naturally aligned 64-byte unit of the destination. -/
def copyUnit (pos dst src len : Nat) (s : State) (o : AsyncOp) : EStep :=
  let lo := (unitOf dst len o.progress).1
  let n := (unitOf dst len o.progress).2
  let a := src + (lo - dst)
  let w := opWho s pos o
  if opWaits s pos o a n false || opWaits s pos o lo n true then .wait s o
  else
    readUnit o w s (fun s => engineReadAcross s w a n) fun s1 o1 v p =>
      afterWrite o1 w lo n p (engineWrite (nextFresh s1) w lo n (blendOverlap s1 w v (Config.freeVec s1.fresh).toNat lo n src len) p)

/-- An element address reaches own scratch or global memory (12 Table 12-3). -/
def elementReachable (s : State) (pos va n : Nat) : Bool :=
  isGlobal (BitVec.ofNat 64 va) ||
    (match regionOf s pos va n with
     | .scratch p _ => p == pos
     | _ => false)

/-- An index has been read from a poisoned unit: POISON goes to the supervisor of the partition once for the operation (12 R273). -/
def tellIndex (s : State) (pos idx : Nat) (o : AsyncOp) : State × AsyncOp :=
  if o.told then (s, o) else (raiseAt s pos cPOISON (BitVec.ofNat 64 (idx / 64 * 64)), { o with told := true })

/-- The next element of a GATHER. -/
def gatherUnit (pos dst base idx z : Nat) (s : State) (o : AsyncOp) : EStep :=
  let n := elemBytes z
  let w := opWho s pos o
  let to_ := dst + o.progress * n
  let from_ := idx + 4 * o.progress
  if opWaits s pos o from_ 4 false || opWaits s pos o to_ n true then .wait s o
  else
    match engineRead s w from_ 4 with
    | .ok s1 k p =>
      if p then
        let x := tellIndex s1 pos from_ o
        afterWrite x.2 w to_ n true (engineWrite (nextFresh x.1) w to_ n ((Config.freeVec x.1.fresh).toNat % 2 ^ (8 * n)) true)
      else
        let a := va56 (base + k * n)
        if !elementReachable s1 pos a n then .fail s1 o
        else if opHeldBack s1 pos o a n false then .wait s1 o
        else readUnit o w s1 (fun s => engineRead s w a n) fun s2 o2 v q => afterWrite o2 w to_ n q (engineWrite s2 w to_ n v q)
    | r => afterRead o w r (fun s o _ _ => .wait s o)

/-- The addresses of the elements of a SCATTER from element `k` on, as its index list names them now. -/
def scatterTargets (t : Tile) (base idx n z k : Nat) : List Nat :=
  (List.range (n - k)).map (fun i => va56 (base + memRead t.scratch (idx - Config.localBase + 4 * (k + i)) 4 * elemBytes z))

/-- An earlier element of the operation has the address of this one, by its name or by its physical address. -/
def sharedElement (s : State) (w : Who) (xs : List Nat) (a : Nat) : Bool :=
  xs.any (fun x => x == a ||
    (isGlobal (BitVec.ofNat 64 x) && isGlobal (BitVec.ofNat 64 a) && (paFull s w a).isSome && paFull s w x == paFull s w a))

/-- The targets of the elements that have been written: they stand before the next one or have been moved out of turn, and have not been skipped. -/
def targetsBefore (o : AsyncOp) (xs : List Nat) : List Nat :=
  (xs.zipIdx.filter (fun x => (decide (x.2 < o.progress) || o.moved.contains x.2) && !o.skips.contains x.2)).map (·.1)

/-- The next element of a SCATTER. Where several elements share a location, the value left there is free (12 R273). -/
def scatterUnit (pos src base idx n z : Nat) (s : State) (o : AsyncOp) : EStep :=
  let eb := elemBytes z
  let w := opWho s pos o
  let from_ := src + o.progress * eb
  let at_ := idx + 4 * o.progress
  if opWaits s pos o at_ 4 false || opWaits s pos o from_ eb false then .wait s o
  else
    match engineRead s w at_ 4 with
    | .ok s1 k p =>
      if p then
        let x := tellIndex s1 pos at_ o
        .next x.1 { x.2 with skipped := x.2.skipped + 1, skips := o.progress :: x.2.skips }
      else
        let a := va56 (base + k * eb)
        if !elementReachable s1 pos a eb then .fail s1 o
        else if opHeldBack s1 pos o a eb true then .wait s1 o
        else
          readUnit o w s1 (fun s => engineRead s w from_ eb) fun s2 o2 v q =>
            if sharedElement s2 w (targetsBefore o (scatterTargets (tileAt s2 pos) base idx n z 0)) a then
              afterWrite o2 w a eb q (engineWrite (nextFresh s2) w a eb ((Config.freeVec s2.fresh).toNat % 2 ^ (8 * eb)) (Config.freeBool s2.fresh))
            else afterWrite o2 w a eb q (engineWrite s2 w a eb v q)
    | r => afterRead o w r (fun s o _ _ => .wait s o)

/-- The next piece of an exchange, between the scratch ports of two tiles. -/
def nxUnit (pos : Nat) (ps : List (Nat × Nat × Nat × Nat)) (s : State) (o : AsyncOp) : EStep :=
  match ps[o.progress]? with
  | none => .next s o
  | some (d, src, dst, n) =>
    let w := opWho s pos o
    let a := Config.localBase + src
    let b := Config.localBase + Config.neighbourOff d + dst
    if opWaits s pos o a n false || opWaits s pos o b n true then .wait s o
    else readUnit o w s (fun s => engineReadAcross s w a n) fun s1 o1 v p => afterWrite { o1 with record := none } w b n p (engineWrite s1 w b n v p)

/-- The pieces of an exchange move; its beats have all landed with the last one. -/
def moveNxch (s : State) (pos : Nat) (ds : List NxDir) (o : AsyncOp) : EStep :=
  let ps := nxPieces ds
  match moveUnits (nxUnit pos ps) (ps.length - o.progress) s o with
  | .next s1 o1 => .next s1 { o1 with record := o.record, landed := o1.owed }
  | .wait s1 o1 => .wait s1 { o1 with record := o.record }
  | .fail s1 o1 => .fail s1 { o1 with record := o.record }

/-- The next 64-byte unit of an OBCP. -/
def obcpUnit (pos sc bk : Nat) (toScratch : Bool) (s : State) (o : AsyncOp) : EStep :=
  let w := opWho s pos o
  let x := Config.localBase + sc + 64 * o.progress
  let y := Config.localBase + Config.bankOff + bk + 64 * o.progress
  let a := if toScratch then y else x
  let b := if toScratch then x else y
  if opWaits s pos o a 64 false || opWaits s pos o b 64 true then .wait s o
  else readUnit o w s (fun s => engineRead s w a 64) fun s1 o1 v p => afterWrite o1 w b 64 p (engineWrite s1 w b 64 v p)

/-- A matrix operation that runs reads or writes one of its units alone (07 R140). -/
def matrixUnit (s : State) (pos n : Nat) (o : AsyncOp) : State :=
  let t := tileAt s pos
  let w := opWho s pos o
  match o.kind with
  | .rsta acc off =>
    if decide (imageSize / 64 ≤ n) || o.moved.contains n || opWaits s pos o (Config.localBase + off + 64 * n) 64 true then s
    else
      updOp (putScratch s pos (off + 64 * n) (((imageBytes t (accOf t acc)).drop (64 * n)).take 64) (accOf t acc).poison) pos
        { o with moved := n :: o.moved }
  | k =>
    match (k.readUnits t.rnsMode)[n]? with
    | none => s
    | some a =>
      if !o.started || o.read.any (fun r => r.1 == n) || opWaits s pos o a 64 false then s
      else
        match engineRead s w a 64 with
        | .ok s1 v p => updOp s1 pos { o with read := (n, v, p) :: o.read }
        | _ => s

/-- What has been moved ends the operation: −1 after a failed translation, −2 after a discarded write, else the bytes. -/
def closeMove (pos total z : Nat) : EStep → State
  | .wait s o => updOp s pos o
  | .fail s o => endOp s pos o (-1) none
  | .next s o => if o.discarded then endOp s pos o (-2) none else endOp s pos o ((total : Int) - o.skipped * z) none

/-- One unit of an operation of `count` units is moved out of turn, where nothing holds it up (07 R140). -/
def moveAlone (f : State → AsyncOp → EStep) (pos count n : Nat) (s : State) (o : AsyncOp) : State :=
  if decide (n < o.progress) || decide (count ≤ n) || o.moved.contains n || o.got.isSome then s
  else
    match f s { o with progress := n } with
    | .next s1 o1 => updOp s1 pos { o1 with progress := o.progress, moved := n :: o.moved, record := o.record }
    | .wait _ _ => s
    | .fail s1 o1 => endOp s1 pos { o1 with progress := o.progress, record := o.record } (-1) none

/-- Bytes that an exchange moves. -/
def nxTotal (ds : List NxDir) : Nat := (ds.map (fun e => e.rows * e.rowLen)).foldl (· + ·) 0

/-- A unit of an operation, by its number, is moved out of turn; a matrix operation reads or writes it. -/
def moveUnit (s : State) (pos id n : Nat) : State :=
  match opOf s pos id with
  | none => s
  | some o =>
    if o.finished || o.held.isSome then s
    else
      match o.kind with
      | .copy dst src len => moveAlone (copyUnit pos dst src len) pos (unitsOf dst len) n s o
      | .gather dst base idx m z => moveAlone (gatherUnit pos dst base idx z) pos m n s o
      | .scatter src base idx m z => moveAlone (scatterUnit pos src base idx m z) pos m n s o
      | .nxch ds => moveAlone (nxUnit pos (nxPieces ds)) pos (nxPieces ds).length n s o
      | .obcp sc bk len toScratch => moveAlone (obcpUnit pos sc bk toScratch) pos (len / 64) n s o
      | .coll .. => s
      | _ => matrixUnit s pos n o

/-- What remains of an operation is moved, as far as nothing holds it up; then it writes its token and frees its entries. -/
def moveRest (s : State) (pos id : Nat) : Out :=
  match opOf s pos id with
  | none => .next s
  | some o =>
    if o.finished || withheld o.held then .next s
    else
      match o.kind with
      | .copy dst src len =>
        .next (closeMove pos len 0 (moveUnits (copyUnit pos dst src len) (unitsOf dst len - o.progress) s o))
      | .gather dst base idx n z =>
        .next (closeMove pos (n * elemBytes z) (elemBytes z) (moveUnits (gatherUnit pos dst base idx z) (n - o.progress) s o))
      | .scatter src base idx n z =>
        .next (closeMove pos (n * elemBytes z) (elemBytes z) (moveUnits (scatterUnit pos src base idx n z) (n - o.progress) s o))
      | .nxch ds => .next (closeMove pos (nxTotal ds) 0 (moveNxch s pos ds o))
      | .obcp sc bk len toScratch =>
        if o.progress = 0 ∧ o.moved = [] ∧ o.kind.ranges.all (fun r => !opWaits s pos o r.start r.len r.dest) = true then
          .next (runObcp s pos o sc bk len toScratch)
        else .next (closeMove pos len 0 (moveUnits (obcpUnit pos sc bk toScratch) (len / 64 - o.progress) s o))
      | _ => .next s

/-- ENGINE_OPERATION_COMPLETE: an operation moves what remains, or, with a unit's number as the third operand, that unit alone: no order is kept among the accesses
of an operation (07 R140, R156, R157; 12 R271; log entry 106). -/
def execEngineOperationComplete (s : State) : Out :=
  match s.arg with
  | .two pos id => moveRest s pos id
  | .three pos id n => .next (moveUnit s pos id n)
  | _ => .next s

/-! ### Beat subtraction (07 R158, R161; 12 R270) -/

/-- Beats that have been subtracted, or whose subtraction has been dropped. -/
def settleBeats (s : State) (pos : Nat) (o : AsyncOp) (n : Nat) : State :=
  let o1 := { o with owed := o.owed - n, landed := o.landed - n, held := none }
  let t := tileAt s pos
  if o1.finished && o1.owed == 0 then setTile s pos { t with ops := t.ops.filter (fun p => p.id != o.id) } else updOp s pos o1

/-- The partition of a barrier record: of the tile whose scratch holds it, or of the key slot of its page (07 R161; 22 R401). -/
def recordPart (s : State) (w : Who) (va : Nat) : Option Nat :=
  if isGlobal (BitVec.ofNat 64 va) then
    (match entryAt s w va with
     | some e => (tblGet KeySlot.reset s.keys (bitsOf e.leaf 14 8)).owner
     | none => w.part)
  else
    match regionOf s w.pos va 16 with
    | .scratch p _ => partOf s p
    | _ => w.part

/-- BEAT_SUBTRACTION: the beats of an operation that have landed, or all that remain once its token is negative. -/
def execBeatSubtraction (s : State) : Out := with2 s fun pos id =>
  match opOf s pos id with
  | none => .next s
  | some o =>
    match o.record with
    | none => .next s
    | some va =>
      let n := if o.finished then o.owed else o.landed
      let w := opWho s pos o
      if n = 0 ∨ withheld o.held = true then .next s
      else
        let r := { w with part := recordPart s w va.toNat }
        match engineMem s w va.toNat 16 .atomic (barUpd (barSub n) false) with
        | .ok s1 _ _ => .next (settleBeats (leaveReplay s1 w.quay w.ag) pos o n)
        | .wait s1 => .next s1
        | .held s1 m => let x := withhold s1 w va.toNat m true o.held; .next (updOp x.1 pos { o with held := some x.2 })
        | .bad s1 .barrier => .next (raiseFor (settleBeats s1 pos o n) r cBARRIER va)
        | .bad s1 .poison => .next (raiseFor (settleBeats s1 pos o n) r cPOISON va)
        | .bad s1 why => .next (settleBeats (engineLoss s1 w va.toNat why) pos o n)

/-! ### Barrier operations (12 R275) -/

/-- The tests of a barrier operation on a record: alignment, region, locked ranges. -/
def barrierTests (s : State) (va : Word) (e : Effect) : Effect :=
  recordTests s va <|
    match lockedAddr (myTile s) ((List.range 16).map (fun i => va56 va.toNat + i)) true with
    | some x => .trap { row := 10, cause := cRANGE, tval := BitVec.ofNat 64 x }
    | none => e

/-- BARA: one arrival as a release RMW; rd receives the generation read. -/
def execBara (g : BitVec 3) (d a : BitVec 5) (c : BitVec 3) (s : State) : Out :=
  runCore (.bara g d a c) s (fun o s =>
    needClean o 0 <| barrierTests s (o.word 0) <| .done (issueAccess s (.bara d) (o.word 0) 16 c false true))

/-- BARI: expected := n, arrived := 0, beats := 0, then the test. -/
def execBari (g : BitVec 3) (a b : BitVec 5) (c : BitVec 3) (s : State) : Out :=
  runCore (.bari g a b c) s (fun o s =>
    needClean o 0 <| barrierTests s (o.word 0) <|
      .done (issueAccess s (.bari ((o.word 1).setWidth 32) (o.psn 1)) (o.word 0) 16 c false false))

/-- A slot is SUSPENDED in BARW and registers at the record's point of coherence (07 R158). -/
def suspendOn (s : State) (va : Word) (gen : BitVec 32) (cls : BitVec 3) : State :=
  setMe s { me s with
    phase := .barw va gen cls
    barPa := if isGlobal va then paAt s (slotWho s s.cur.pos s.cur.slot) va.toNat else none }

/-- BARW: an acquire read of the record; the slot goes on where the generation differs from g, and else is SUSPENDED on it (07 R158). -/
def execBarw (g : BitVec 3) (a b : BitVec 5) (c : BitVec 3) (s : State) : Out :=
  runCore (.barw g a b c) s (fun o s =>
    let va := o.word 0
    let gen : BitVec 32 := (o.word 1).setWidth 32
    needClean o 0 <| barrierTests s va <|
      match inlineAccess s va.toNat 16 c false .atomic (fun _ p => if p then .refuse cPOISON else .keep) with
      | .ok s1 v _ => if v % 2 ^ 32 ≠ gen.toNat then .done s1 else .keep (suspendOn s1 va gen c)
      | .wait s1 => .wait s1
      | .bad s1 c => .trapWith s1 c)

/-- BARRIER_WAKE: a woken slot performs the acquire read of its BARW again (07 R158). -/
def execBarrierWake (s : State) : Out := with2 s fun pos k =>
  let t := slotAt s pos k
  match t.phase with
  | .barw va gen c =>
    if withheld t.blocked then .next s
    else
      match memAccess s { slotWho s pos k with oc := c.toNat } va.toNat 16 .atomic (fun _ p => if p then .refuse cPOISON else .keep) with
      | .ok s1 v _ =>
        let s2 := asks s1 pos k false
        .next
          (setSlot s2 pos k
            (if v % 2 ^ 32 ≠ gen.toNat then { slotAt s2 pos k with phase := .running, pc := t.pc + 1, busy := none, barPa := none }
             else { slotAt s2 pos k with barPa := if isGlobal va then paAt s2 (slotWho s2 pos k) va.toNat else none }))
      | .wait s1 => .next (nextCycle (asks s1 pos k true) .barrierWake (.two pos k))
      | .held s1 m => .next (blockSlot s1 pos k va.toNat m true)
      | .bad s1 why => .next (takeTrap s1 pos k false why.cause 0 (BitVec.ofNat 64 (va56 va.toNat)) t.pc.toNat)
  | _ => .next s

/-! ### Tokens (12 R276) -/

/-- TWAIT: stalls until the token is written, and reads it. -/
def execTwait (g : BitVec 3) (a : BitVec 5) (s : State) : Out :=
  runCore (.twait g a) s (fun o s => needClean o 0 <| .done s)

/-- TTEST: pd := the token is written. -/
def execTtest (g : BitVec 3) (d a : BitVec 5) (s : State) : Out :=
  runCore (.ttest g d a) s (fun o s =>
    if a ≠ 0 ∧ (me s).sPend.getLsbD a.toNat = true then .done (setP s d false false) else needClean o 0 <| .done (setP s d true false))

/-- TDRAIN: stalls until every asynchronous operation of the slot has written its token. -/
def execTdrain (g : BitVec 3) (s : State) : Out :=
  runCore (.tdrain g) s (fun _ s =>
    if (myTile s).ops.any (fun o => o.slot == s.cur.slot && !o.finished) then .wait s else .done s)

/-! ### VTBL (04 R87 to R89; 10 R229) -/

/-- While a VTBL waits, the table is being loaded (04 R89). -/
def loadingTable (n : Nat) (e : Effect) : Effect :=
  match e with
  | .wait s => .wait (setMe s { me s with busy := some { (me s).busy.getD {} with table := some n } })
  | e => e

/-- VTBL: sixteen reads, then the check; an armed injection of KIND 6 fails it (18 R325). -/
def execVtbl (g : BitVec 3) (t a : BitVec 5) (c : BitVec 3) (s : State) : Out :=
  runCore (.vtbl g t a c) s (fun o s =>
    let va := o.word 0
    needClean o 0 <|
    demand (decide (va.toNat % 64 = 0)) 8 cMISALIGN va <|
    demand (if isGlobal va then decide (va56 va.toNat + 1024 ≤ Config.localBase) else reachable s va 1024) 9 cACCESS va <|
      match lockedAddr (myTile s) ((List.range 1024).map (fun i => va56 va.toNat + i)) false with
      | some x => .trap { row := 10, cause := cRANGE, tval := BitVec.ofNat 64 x }
      | none =>
        loadingTable (physTable s (t.toNat % 4)) <| withUnits s va.toNat 16 c fun s1 l =>
          match l.findIdx? (·.2) with
          | some i => .trapWith s1 { row := 15, cause := cPOISON, tval := BitVec.ofNat 64 (va56 va.toNat + 64 * i) }
          | none =>
            let bs := unitBytes l
            let forced := armedKind (myTile s1) == 6
            let s2 := if forced then disarm s1 else s1
            let n := physTable s2 (t.toNat % 4)
            let tl := myTile s2
            if !forced && tableValid (cellsFrom 0 bs) then
              .done (setMyTile s2 { tl with dtab := vset tl.dtab n { valid := true, data := cellsFrom 0 bs } })
            else
              let undef := (List.range 16).flatMap (fun i => bytesLE 64 (Config.freeVec (s2.fresh + i)).toNat)
              let s3 := setMyTile s2 { tl with dtab := vset tl.dtab n { valid := false, data := tableCells undef } }
              .trapWith { s3 with fresh := s2.fresh + 16 } { row := 15, cause := cFMT, tval := t.setWidth 64 })

end Sys2Proof.Machine
end

