-- ==== Sys2Proof/Machine/Coll.lean ====
section
/-!
DEFINITION. Collectives: COLL and the collective that a berth sequencer performs (02 R33; 04 R95, R96; 12 R278 to R281).

The collective ends for all its members of this package in two parts: what each receives is computed from every contribution once all of them have
been read, and each member then writes its OUT and its token. What members on other packages contribute is a free value (log entry 5).
-/
namespace Sys2Proof.Machine

open Sys2Proof

/-! ### The descriptor (12 Table 12-10) -/

/-- The fields of a descriptor of 64 bytes. -/
def collDesc (x : Nat) : CollDesc :=
  let f := fun off n => x / 2 ^ (8 * off) % 2 ^ (8 * n)
  { op := f 0 1, red := f 1 1, ty := f 2 1, group := f 3 1, ctl := f 4 1, root := f 6 2, inp := f 8 8, out := f 16 8, count := f 24 8 }

/-- The format of a descriptor is in order (12 R278). -/
def collFormat (x : Nat) : Bool :=
  let f := fun off n => x / 2 ^ (8 * off) % 2 ^ (8 * n)
  let d := collDesc x
  let reduces := d.op == 1 || d.op == 2
  decide (1 ≤ d.op ∧ d.op ≤ 6) && decide (d.red ≤ 2) && (reduces || d.red == 0) && decide (d.ty ≤ 4) && (d.op != 6 || d.ty == 0) &&
    decide (d.ctl < 8) && f 5 1 == 0 && f 32 32 == 0 && (d.op == 4 || d.root == 0) &&
    (if d.op = 6 then d.count == 0 else decide (1 ≤ d.count ∧ d.count < 2 ^ 32))

/-- The launch record of the domain a tile belongs to. -/
def domainRec (s : State) (pos : Nat) : Option Mem :=
  match (tileAt s pos).dom with
  | none => none
  | some d =>
    match s.berths.find? (fun b => b.id == d), s.domains.find? (fun b => b.id == d) with
    | some b, _ => some b.lrec
    | none, some b => some b.lrec
    | none, none => none

/-- DONE of a launch record (12 Table 12-13). -/
def doneOf (lrec : Mem) : Word := BitVec.ofNat 64 (memRead lrec 0x0D0 8)

/-- The group entry a COLL names and the rank of the domain of a tile in it: the group is formed or broken, not pending (12 R279; 22 R412, R413). -/
def groupRank (s : State) (pos g : Nat) : Option (Nat × Group × Nat) :=
  match partOf s pos, domainRec s pos with
  | some p, some r =>
    (match tblGet? (partAt s p).grps g with
     | some x =>
       if x.formed || x.broken then
         (x.members.findIdx? (fun m => m.pkg == s.pkg.toNat && m.mkey == doneOf r)).map (fun k => (p, x, k))
       else none
     | none => none)
  | _, _ => none

/-- The alignment of a buffer (12 R278). -/
def bufAligned (ty a : Nat) : Bool := if ty = 4 then a % 64 == 0 else a % collElem ty == 0

/-- Every buffer that a descriptor's operation uses is aligned; where OP or TYPE is not listed, none is tested (12 Table 12-14, row 3). -/
def misaligned (d : CollDesc) (reads : Bool) : Option Nat :=
  if d.op = 0 ∨ 6 ≤ d.op ∨ 4 < d.ty then none
  else if reads && !bufAligned d.ty d.inp then some d.inp
  else if !bufAligned d.ty d.out then some d.out
  else none

/-- The tests of a descriptor before any data moves, for the domain of a tile: the cause, or partition, group entry and rank (12 R278, R279, R285). -/
def collTests (s : State) (pos : Nat) (desc : Word) (x : Nat) : Except Cause (CollDesc × Nat × Group × Nat) :=
  let d := collDesc x
  let gr := groupRank s pos d.group
  let reads := d.op != 6 && (d.op != 4 || (match gr with | some g => g.2.2 == d.root | none => false))
  let writes := d.op != 6
  match misaligned d reads with
  | some a => .error { row := 8, cause := cMISALIGN, tval := BitVec.ofNat 64 a }
  | none =>
    if !collFormat x then .error { row := 9, cause := cACCESS, tval := desc }
    else
      match gr with
      | none => .error { row := 9, cause := cACCESS, tval := BitVec.ofNat 64 d.group }
      | some g =>
        let n := g.2.1.members.length
        let ok := fun (a len : Nat) =>
          match rangeKindAt s pos (BitVec.ofNat 64 a) len with
          | .own => true
          | .global => true
          | _ => false
        if reads && !ok d.inp (d.inLen g.2.2 n) then .error { row := 9, cause := cACCESS, tval := BitVec.ofNat 64 d.inp }
        else if writes && !ok d.out (d.outLen n) then .error { row := 9, cause := cACCESS, tval := BitVec.ofNat 64 d.out }
        else .ok (d, g)

/-- The member's sequence number, which its next COLL on the group carries (12 R279). -/
def nextSeq (g : Group) (rank : Nat) : Nat := tblGet 0 g.seqs rank

/-- The sequence number has been consumed. -/
def takeSeq (s : State) (p g rank : Nat) : State :=
  let x := partAt s p
  match tblGet? x.grps g with
  | none => s
  | some e => setPart s p { x with grps := tblSet x.grps g { e with seqs := tblSet e.seqs rank (nextSeq e rank + 1) } }

/-- A member enters a collective. -/
def joinColl (s : State) (m : CollMember) : State := { s with colls := s.colls ++ [m] }

/-- COLL: the descriptor is read after every earlier access of the slot and of its operations; on a broken group −5 is written at issue (12 R267, R278, R279, R281). -/
def execColl (g : BitVec 3) (t a : BitVec 5) (s : State) : Out :=
  runCore (.coll g t a) s (fun o s =>
    let va := o.word 0
    needClean o 0 <|
    demand (decide (va.toNat % 64 = 0)) 8 cMISALIGN va <|
    demand (isGlobal va || rangeKind s va 64 == .own) 9 cACCESS va <|
    if !(me s).outs.isEmpty ||
        (myTile s).ops.any (fun o => o.slot == s.cur.slot && !o.finished && (o.kind.readsMem || o.kind.writesMem)) then .wait s
    else
      withUnits s va.toNat 1 0 fun s1 l =>
        if l.any (·.2) then .trapWith s1 { row := 15, cause := cPOISON, tval := va }
        else
          match collTests s1 s1.cur.pos va ((l.map (·.1)).headD 0) with
          | .error c => .trapWith s1 c
          | .ok (d, p, e, rank) =>
            if e.broken then
              .done (writeToken s1 s1.cur.pos s1.cur.slot t.toNat (-5) (some (cCOLLLOST, Config.freeWord s1.fresh)) |> nextFresh)
            else
              let n := e.members.length
              let kind : OpKind := .coll d va.toNat (nextSeq e rank) rank n
              if !lockRoom (myTile s1) kind then .wait s1
              else
                let id := (myTile s1).nextOp
                let s2 := startOp (takeSeq s1 p d.group rank) kind t (BitVec.ofNat 3 d.ctl) 5 none 0 true
                .done (joinColl s2
                  { part := p, group := d.group, seq := nextSeq e rank, rank := rank, desc := d, agent := .op s1.cur.pos id, res := none }))

/-! ### Reading and writing the buffers of a member -/

/-- The tile whose scratch a member's buffers may name. -/
def CollAgent.tile (s : State) : CollAgent → Nat
  | .op pos _ => pos
  | .berth id => match s.berths.find? (fun b => b.id == id) with | some b => gridPos b.tx b.ty | none => 0

/-- The operation that a member's COLL is at its tile: a COLL's own, or that of a COLLECTIVE step, whose token is none. -/
def CollAgent.oper (s : State) : CollAgent → Option AsyncOp
  | .op pos id => opOf s pos id
  | .berth id =>
    (tileAt s (CollAgent.tile s (.berth id))).ops.find? (fun o => match o.kind with | .coll .. => o.slot == 0 && o.tok == 0 | _ => false)

/-- The slot whose FLAGS a correction sets (02 R33; 12 R280). -/
def CollAgent.slot (s : State) : CollAgent → Nat
  | .op pos id => match opOf s pos id with | some o => o.slot | none => 0
  | .berth _ => 0

/-- A berth's agent: its sequencer, under the berth's address space; its accesses need U (20 R360, R365). -/
def berthWho (_s : State) (b : Berth) : Who :=
  let pos := gridPos b.tx b.ty
  { pos := pos, slot := none, quay := transQuay pos, asid := b.asid, root := b.root, sup := false, part := some b.part, cls := b.budget.toNat
    ag := .berth b.id }

/-- The agent of a member. -/
def CollAgent.who (s : State) : CollAgent → Who
  | .op pos id =>
    (match opOf s pos id with
     | some o => opWho s pos o
     | none => { slotWho s pos 0 with slot := none })
  | .berth id =>
    (match s.berths.find? (fun b => b.id == id) with
     | some b => { berthWho s b with oc := ((CollAgent.oper s (.berth id)).map (·.cls.toNat)).getD 0 }
     | none => { slotWho s 0 0 with slot := none })

/-- Replace a berth. -/
def updBerth (s : State) (b : Berth) : State := { s with berths := s.berths.map (fun x => if x.id = b.id then b else x) }

/-- What a member has withheld. -/
def CollAgent.held (s : State) : CollAgent → Option Blocked
  | .op pos id => (opOf s pos id).bind (·.held)
  | .berth id => (s.berths.find? (fun b => b.id == id)).bind (·.held)

/-- What a member has withheld is another thing now, or nothing. -/
def CollAgent.setHeld (s : State) (b : Option Blocked) : CollAgent → State
  | .op pos id => (match opOf s pos id with | some o => updOp s pos { o with held := b } | none => s)
  | .berth id => (match s.berths.find? (fun x => x.id == id) with | some x => updBerth s { x with held := b } | none => s)

/-- A member's access is withheld. -/
def CollAgent.hold (s : State) (a : CollAgent) (va : Nat) (migrating write : Bool) : State :=
  let x := withhold s (a.who s) va migrating write (a.held s)
  a.setHeld x.1 (some x.2)

/-- What a member had withheld has been performed. -/
def CollAgent.letGo (s : State) (a : CollAgent) : State :=
  if (a.held s).isSome then leaveReplay (a.setHeld s none) (a.who s).quay (a.who s).ag else s

/-- A member may go on: nothing of it is withheld. -/
def CollAgent.ready (s : State) (a : CollAgent) : Bool := (a.oper s).isSome && !withheld (a.held s)

/-- An access of a member waits for an earlier access of its slot or for an earlier operation of its tile (07 R156, R157). -/
def CollAgent.behind (s : State) (a : CollAgent) (va n : Nat) (store : Bool) : Bool :=
  match a.oper s with
  | some o => opHeldBack s (a.tile s) o va n store || rangeBehind (tileAt s (a.tile s)) o va n store
  | none => false

/-- What reading or checking a range answers. -/
inductive RangeAns (α : Type) where
  | ok (s : State) (x : α)
  | wait (s : State)
  | held (s : State) (va : Nat) (migrating write : Bool)
  | fail (s : State)

/-- One read of a member, made once however often the collective is tried again (19 R350). -/
def readOnce (s : State) (w : Who) (va n : Nat) : EAns :=
  match fetchedAt s w.ag va with
  | some f => .ok s f.data f.poison
  | none =>
    match engineRead s w va n with
    | .ok s1 v p => .ok (noteFetched s1 w.ag va v p) v p
    | r => r

/-- The bytes of a range with their poison, read in pieces that each lie within a 64-byte unit. -/
def readRange (a : CollAgent) : Nat → State → Nat → Nat → List (Byte × Bool) → RangeAns (List (Byte × Bool))
  | 0, s, _, _, acc => .ok s acc
  | n + 1, s, va, len, acc =>
    let k := min len (64 - va % 64)
    if len = 0 then .ok s acc
    else if a.behind s va k false then .wait s
    else
      match readOnce s (a.who s) va k with
      | .ok s1 v p => readRange a n (a.letGo s1) (va + k) (len - k) (acc ++ (bytesLE k v).map (fun b => (b, p)))
      | .wait s1 => .wait s1
      | .held s1 va m w => .held s1 va m w
      | .fail s1 => .fail s1
      | .discard s1 => .fail s1

/-- Every unit of a range can be translated for a write. -/
def checkRange (a : CollAgent) : Nat → State → Nat → Nat → RangeAns Unit
  | 0, s, _, _ => .ok s ()
  | n + 1, s, va, len =>
    let k := min len (64 - va % 64)
    if len = 0 then .ok s ()
    else if !isGlobal (BitVec.ofNat 64 va) then .ok s ()
    else
      match translate s (a.who s) (needOf .store) (va56 va) with
      | .leaf s1 _ _ => checkRange a n (a.letGo s1) (va + k) (len - k)
      | .refused s1 => .fail s1
      | .absent s1 => .held s1 va false true
      | .migrating s1 => .held s1 va true true
      | .wait s1 => .wait s1

/-- A member's IN. -/
def readIn (s : State) (m : CollMember) (n : Nat) : RangeAns (List (Byte × Bool)) :=
  let len := m.desc.inLen m.rank n
  readRange m.agent (unitsOf m.desc.inp len) s m.desc.inp len []

/-- A member's OUT may be written. -/
def checkOut (s : State) (m : CollMember) (n : Nat) : RangeAns Unit :=
  let len := m.desc.outLen n
  checkRange m.agent (unitsOf m.desc.out len) s m.desc.out len

/-! ### Reductions (04 R95, R96; 12 R278, R280) -/

/-- RNE without flushing (04 R95). -/
def collRnd : Rnd := { rm := 0, sat := false, ftz := false, nft := false }

/-- A sum of two binary32 patterns. -/
def addF32 (a b : Nat) : Nat := (roundTo collRnd f32 (exactAdd collRnd (decodeF f32 a) (decodeF f32 b)).1 0).1

/-- A bfloat16 pattern as binary32 (exact). -/
def widenBf (x : Nat) : Nat := x * 2 ^ 16

/-- A binary32 pattern rounded to bfloat16. -/
def narrowBf (x : Nat) : Nat :=
  match decodeF f32 x with
  | .nan => bf16.nan
  | .inf n => bf16.signed n bf16.inf
  | .fin n m => if m = 0 then bf16.signed n 0 else (roundMag collRnd bf16 n m (2 ^ opUnit) 0).1

/-- The children of a rank, rising. -/
def children (parent : Nat → Nat) (n r : Nat) : List Nat := (List.range n).filter (fun c => decide (r < c) && parent c == r)

/-- Partial sums of the ranks below `k`, given those from `k` on: own value, then the children's, left to right (04 R95). -/
def partials (f : Nat → Nat → Nat) (own parent : Nat → Nat) (n : Nat) : Nat → Tbl Nat → Tbl Nat
  | 0, t => t
  | r + 1, t => partials f own parent n r ((r, (children parent n r).foldl (fun x c => f x (tblGet 0 t c)) (own r)) :: t)

/-- The partial sum of every rank. -/
def partialSums (f : Nat → Nat → Nat) (own parent : Nat → Nat) (n : Nat) : Tbl Nat := partials f own parent n n []

/-- The rank named by a non-finite element, or none where it is finite everywhere (12 R280). -/
def nonfiniteRank (sum : Bool) (own parent : Nat → Nat) (n : Nat) : Option Nat :=
  match (List.range n).find? (fun r => f32.nonfinite (own r)) with
  | some r => some r
  | none =>
    if !sum then none
    else
      let t := partialSums addF32 own parent n
      (List.range n).find? (fun r => f32.nonfinite (tblGet 0 t r) && (children parent n r).all (fun c => !f32.nonfinite (tblGet 0 t c)))

/-- Minimum or maximum of two integers of `w` bits, signed. -/
def minMaxI (w : Nat) (isMax : Bool) (a b : Nat) : Nat :=
  let lt := decide ((BitVec.ofNat w a).toInt < (BitVec.ofNat w b).toInt)
  if isMax then (if lt then b else a) else (if lt then a else b)

/-- One element of a reduction of types 0 to 3. -/
def reduceElem (d : CollDesc) (own parent : Nat → Nat) (n : Nat) : Nat :=
  let tree := fun (f : Nat → Nat → Nat) (own : Nat → Nat) => tblGet 0 (partialSums f own parent n) 0
  match d.ty with
  | 0 => if d.red = 0 then tree addF32 own else tree (minMaxF f32 (d.red == 1)) own
  | 1 => if d.red = 0 then narrowBf (tree addF32 (fun r => widenBf (own r))) else tree (minMaxF bf16 (d.red == 1)) own
  | 2 => if d.red = 0 then tree (fun a b => (a + b) % 2 ^ 32) own else tree (minMaxI 32 (d.red == 1)) own
  | _ => if d.red = 0 then tree (fun a b => (a + b) % 2 ^ 64) own else tree (minMaxI 64 (d.red == 1)) own

/-- A list cut into pieces of a size. -/
def chunks {α : Type} (size : Nat) : Nat → List α → List (List α)
  | 0, _ => []
  | n + 1, l => l.take size :: chunks size n (l.drop size)

/-- A contribution as elements, each with its poison. -/
def elemsOf (size : Nat) (l : List (Byte × Bool)) : List (Nat × Bool) :=
  (chunks size (l.length / size) l).map (fun e => (ofBytesLE (e.map (·.1)), e.any (·.2)))

/-- How a collective ends: a status with the cause each rank reads, or the whole result of every rank. -/
inductive CollEnd where
  | status (v : Int) (cause : Nat → Option (Nat × Word)) (undef : Bool)
  | result (out : Nat → List (Byte × Bool))

/-- An image as it leaves a member: bound, mode and digits with the corrections made; or its lowest mismatch (05 R111; 12 R280). -/
def leaveImage (t : Tile) (bs : List Byte) : Except Cause (Nat × BitVec 1 × List Byte × List (Nat × Int × Nat)) :=
  let h := ofBytesLE (bs.take 64)
  let mode : BitVec 1 := BitVec.ofNat 1 (h / 2 ^ 8)
  let tl := { t with rnsMode := mode }
  let a : Acc := { cells := cellsFrom 0 (bs.drop 64), beta := 0, poison := false }
  match checkRun tl a 0 (elements mode) with
  | .error (e, k) => .error (mismatchCause tl e k)
  | .ok l =>
    let fixed := (correctedOf l).foldl (fun m r => setDigits m (elemCell mode r.1).1 [(r.2.2, rnsReduce r.2.1 r.2.2)]) a.cells
    .ok (h % 2 ^ 8, mode, leavingCells tl { a with cells := fixed }, correctedOf l)

/-- A header that a residue collective accepts: valid under 11 R238 for the mode it names. -/
def imageOk (bs : List Byte) : Bool :=
  let h := ofBytesLE (bs.take 64)
  decide (h / 2 ^ 8 % 2 ^ 8 < 2) && (headerBound (BitVec.ofNat 1 (h / 2 ^ 8)) h).isSome

/-- The bound of a sum of residue vectors (05 Table 5-7). -/
def sumBound (bs : List Nat) : Nat := ceilLog2 (((bs.map (2 ^ ·)).foldl (· + ·) 0) - bs.length + 1)

/-- Digit by digit sum of images. -/
def sumImages (ls : List (List Byte)) : List Byte :=
  match ls with
  | [] => []
  | l :: rest => rest.foldl (fun (a : List Byte) b =>
      (List.zip a b).mapIdx (fun i p => BitVec.ofNat 8 ((p.1.toNat + p.2.toNat) % Config.modulus (i % 10)))) l

/-- An image of a residue sum as it leaves its member: bound, mode, digits, corrections. -/
abbrev Leaving := Except Cause (Nat × BitVec 1 × List Byte × List (Nat × Int × Nat))

/-- An image of a member on another package has been checked there: its digits arrive as they are, or it was found a mismatch, at an element that `x` picks among
all, with the cause and the fields of the image's MODE (05 Table 5-4; log entry 5). -/
def arriveImage (x : Word) (bs : List Byte) : Leaving :=
  let h := ofBytesLE (bs.take 64)
  let mode : BitVec 1 := BitVec.ofNat 1 (h / 2 ^ 8)
  if x.getLsbD 0 then .error (mismatchCause { Tile.reset with rnsMode := mode } (x.toNat / 2 % elements mode) (x.toNat / 2 ^ 16 % 11))
  else
  .ok (h % 2 ^ 8, BitVec.ofNat 1 (h / 2 ^ 8), (bs.drop 64).mapIdx (fun i b => BitVec.ofNat 8 (b.toNat % Config.modulus (i % 10))), [])

/-- The image of index `i` of every rank, as it leaves; `tiles` are those of the members of this package, and the free values from `fresh` on say what the other
packages find. -/
def leavingImages (tiles : List (Option Tile)) (fresh : Nat) (ins : List (List Byte)) (i : Nat) : List Leaving :=
  (List.zip tiles ins).mapIdx (fun r x =>
    let bs := (x.2.drop (i * imageSize)).take imageSize
    match x.1 with
    | some t => leaveImage t bs
    | none => arriveImage (Config.freeWord (fresh + i * ins.length + r)) bs)

/-- The headers of the images of one index: all valid and of one MODE (12 R280). -/
def headersAgree (ins : List (List Byte)) (i : Nat) : Bool :=
  let hs := ins.map (fun l => (l.drop (i * imageSize)).take imageSize)
  let modes := hs.map (fun b => ofBytesLE (b.take 2) / 256)
  hs.all imageOk && modes.all (fun m => m == modes.headD 0)

/-- The rank and cause of the lowest mismatch among the images of one index. -/
def mismatchOf (ls : List Leaving) : Option (Nat × Cause) :=
  ls.zipIdx.findSome? (fun x => match x.1 with | .error c => some (x.2, c) | .ok _ => none)

/-- Images that have left. -/
def leftOf (ls : List Leaving) : List (Nat × BitVec 1 × List Byte × List (Nat × Int × Nat)) :=
  ls.filterMap (fun l => match l with | .ok x => some x | .error _ => none)

/-- The sum of the images of one index, or the bound that exceeds the range limit (05 Table 5-7; 12 R280). -/
def sumOf (ls : List Leaving) : Except Nat (List Byte) :=
  let oks := leftOf ls
  let nb := sumBound (oks.map (·.1))
  let mode := (oks.map (·.2.1)).headD 0
  if rangeLimit mode < nb then .error nb else .ok (bytesLE 64 (headerOf mode nb) ++ sumImages (oks.map (·.2.2.1)))

/-- The corrections that each rank of this package has made, over all its images; none where one of them is a mismatch (log entry 98). -/
def correctionsOf (ls : List (List Leaving)) (n : Nat) : List (Nat × List (Nat × Int × Nat)) :=
  (List.range n).map (fun r =>
    let own := ls.filterMap (fun l => l[r]?)
    (r, if own.any (fun l => match l with | .error _ => true | .ok _ => false) then [] else (leftOf own).flatMap (·.2.2.2)))

/-- How a residue sum ends, and the corrections that its members have made as their images left (12 R280; 05 R102, R111). -/
def reduceImages (tiles : List (Option Tile)) (fresh : Nat) (ins : List (List Byte)) (k : Nat) : (CollEnd ⊕ List (List Byte)) × List (Nat × List (Nat × Int × Nat)) :=
  if !(List.range k).all (headersAgree ins) then (.inl (.status (-3) (fun _ => some (cCOLLMIS, 0)) false), [])
  else
    let ls := (List.range k).map (leavingImages tiles fresh ins)
    let cs := correctionsOf ls ins.length
    match ls.findSome? mismatchOf with
    | some (r, c) => (.inl (.status (-7) (fun _ => some (c.cause, BitVec.ofNat 64 (c.tval.toNat % 2 ^ 20 + r * 2 ^ 32))) false), cs)
    | none =>
      match (ls.map sumOf).findSome? (fun x => match x with | .error nb => some nb | .ok _ => none) with
      | some nb => (.inl (.status (-6) (fun _ => some (cRNSOVF, BitVec.ofNat 64 nb)) false), cs)
      | none => (.inr ((ls.map sumOf).filterMap (fun x => match x with | .ok b => some b | .error _ => none)), cs)

/-- The reduction of elements of types 0 to 3: the lowest non-finite element ends a floating one (12 R280). -/
def reduceElems (d : CollDesc) (parent : Nat → Nat) (cs : List (List (Nat × Bool))) (n count : Nat) : CollEnd ⊕ List (Byte × Bool) :=
  let arr := cs.toArray.map (·.toArray)
  let own := fun e r => ((arr.getD r #[]).getD e (0, false)).1
  let psn := fun e => (List.range n).any (fun r => ((arr.getD r #[]).getD e (0, false)).2)
  let asF := fun e r => if d.ty = 1 then widenBf (own e r) else own e r
  let bad := if d.ty ≤ 1 then
      (List.range count).findSome? (fun e => nonfiniteRank (d.red == 0) (asF e) parent n)
    else none
  match bad with
  | some r =>
    .inl (.status (-4) (fun k => some (cCOLLNF, BitVec.ofNat 64 (r + (if k = r then 2 ^ 16 else 0)))) true)
  | none =>
    .inr ((List.range count).flatMap (fun e =>
      (bytesLE (collElem d.ty) (reduceElem d (own e) parent n)).map (fun b => (b, psn e))))

/-- What ranks receive of a whole reduced vector. -/
def shareReduced (d : CollDesc) (v : List (Byte × Bool)) (r : Nat) : List (Byte × Bool) :=
  if d.op = 1 then v else (v.drop (r * d.block)).take d.block

/-- How a collective ends from every rank's contribution (12 R278, R280); the residue corrections of each rank of this package, whose tiles are known, beside it. -/
def endOfColl (d : CollDesc) (parent : Nat → Nat) (tiles : List (Option Tile)) (fresh : Nat) (ins : List (List (Byte × Bool))) (n : Nat) :
    CollEnd × List (Nat × List (Nat × Int × Nat)) :=
  let in_ := fun r => ins.getD r []
  match d.op with
  | 3 => (.result (fun _ => ins.flatten), [])
  | 4 => (.result (fun _ => in_ d.root), [])
  | 5 => (.result (fun r => (List.range n).flatMap (fun j => ((in_ j).drop (r * d.block)).take d.block)), [])
  | 6 => (.result (fun _ => []), [])
  | _ =>
    if d.ty = 4 then
      if d.red ≠ 0 then (.status (-3) (fun _ => some (cCOLLMIS, 0)) false, [])
      else
        let x := reduceImages tiles fresh (ins.map (·.map (·.1))) ((in_ 0).length / imageSize)
        match x.1 with
        | .inl e => (e, x.2)
        | .inr bs =>
          let psn := fun i => ins.any (fun l => (l.drop (i * imageSize)).take imageSize |>.any (·.2))
          (.result (fun r => shareReduced d (bs.flatten.mapIdx (fun i x => (x, psn (i / imageSize)))) r), x.2)
    else
      match reduceElems d parent (ins.map (elemsOf (collElem d.ty))) n ((in_ 0).length / collElem d.ty) with
      | .inl e => (e, [])
      | .inr v => (.result (shareReduced d v), [])

/-! ### The collective ends -/

/-- The members of one collective (12 R280). -/
def collOf (s : State) (m : CollMember) : List CollMember :=
  s.colls.filter (fun x => x.part == m.part && x.group == m.group && x.seq == m.seq)

/-- Two members belong to one collective. -/
def CollMember.same (a b : CollMember) : Bool := a.part == b.part && a.group == b.group && a.seq == b.seq

/-- `len` undefined bytes (00 R2). -/
def freeBytes (fresh len : Nat) : List (Byte × Bool) :=
  (List.range len).map (fun i => ((Config.freeVec (fresh + i / 64)).extractLsb' (8 * (i % 64)) 8, Config.freeBool (fresh + i / 64)))

/-- The free values that `len` undefined bytes take. -/
def freesFor (len : Nat) : Nat := len / 64 + 1

/-- What a member on another package contributes: free values (log entry 5). -/
def farIn (s : State) (d : CollDesc) (rank n : Nat) : State × List (Byte × Bool) :=
  let len := d.inLen rank n
  ({ s with fresh := s.fresh + freesFor len }, freeBytes s.fresh len)

/-- The contribution of every rank, in order, with every OUT of this package checked. -/
def gatherColl (d : CollDesc) (n : Nat) (ms : List CollMember) : List Nat → State → List (List (Byte × Bool)) → RangeAns (List (List (Byte × Bool)))
  | [], s, acc => .ok s acc
  | r :: rs, s, acc =>
    match ms.find? (fun m => m.rank == r) with
    | none => let x := farIn s d r n; gatherColl d n ms rs x.1 (acc ++ [x.2])
    | some m =>
      match readIn s m n with
      | .ok s1 bs =>
        (match checkOut s1 m n with
         | .ok s2 _ => gatherColl d n ms rs s2 (acc ++ [if m.poison then bs.map (fun b => (b.1, true)) else bs])
         | .wait s2 => .wait s2
         | .held s2 va mg w => .wait (m.agent.hold s2 va mg w)
         | .fail s2 => .fail s2)
      | .wait s1 => .wait s1
      | .held s1 va mg w => .wait (m.agent.hold s1 va mg w)
      | .fail s1 => .fail s1

/-- Every member of a collective receives its result. -/
def setResults (s : State) (m : CollMember) (f : CollMember → CollRes) : State :=
  { s with colls := s.colls.map (fun x => if x.same m then { x with res := some (f x) } else x) }

/-- A collective ends with a status at every member; OUT holds undefined bytes where the rule says so (12 R280, R281). COLL_MISMATCH
carries the group and the sequence number (13 Table 13-9); no rule states the value that comes with COLL_MEMBER_LOST. -/
def endWith (s : State) (m : CollMember) (n : Nat) (v : Int) (cause : Nat → Option (Nat × Word)) (undef : Bool) : State :=
  let s1 := setResults s m (fun x =>
    { status := v, moved := 0
      cause := (cause x.rank).map (fun c =>
        if c.1 = cCOLLMIS then (c.1, BitVec.ofNat 64 (m.group + m.seq % 2 ^ 32 * 2 ^ 32))
        else if c.1 = cCOLLLOST then (c.1, Config.freeWord s.fresh) else c)
      bytes := if undef then freeBytes (s.fresh + x.rank * freesFor (x.desc.outLen n)) (x.desc.outLen n) else [] })
  { s1 with fresh := s.fresh + (n + 1) * freesFor (m.desc.outLen n) }

/-- Corrections of a residue sum set FLAGS.RC of the issuing slot and log one event for the member: of its first image with one the lowest element, with the
number over all its images (12 R280; log entry 98). -/
def noteCorrections (s : State) (ms : List CollMember) (cs : List (Nat × List (Nat × Int × Nat))) : State :=
  ms.foldl (fun s m =>
    match (cs.filter (fun c => c.1 == m.rank)).flatMap (·.2) with
    | [] => s
    | (e, _, ch) :: rest =>
      let pos := m.agent.tile s
      let k := m.agent.slot s
      let t := slotAt s pos k
      let s1 := setSlot s pos k { t with flags := t.flags ||| fRC.setWidth 64 }
      let u := tileAt s1 pos
      setTile s1 pos { u with synq := u.synq ++ [corrEvent k (some m.part) s.cycle 0 true e ch (rest.length + 1)] }) s

/-- The comparison of signatures (12 R280). -/
def signaturesDiffer (ms : List CollMember) : Bool :=
  match ms with
  | [] => false
  | m :: rest => rest.any (fun x =>
      x.desc.op != m.desc.op || x.desc.red != m.desc.red || x.desc.ty != m.desc.ty || x.desc.count != m.desc.count || x.desc.root != m.desc.root)

/-- The member is of this package. -/
def Member.here (s : State) (m : Member) : Bool := m.pkg == s.pkg.toNat

/-- Members in the order of their ranks. -/
def byRank (ms : List CollMember) (n : Nat) : List CollMember := (List.range n).filterMap (fun r => ms.find? (fun m => m.rank == r))

/-- Two live domains of a partition have the DONE of a member of this package: the data of every collective on the group is undefined (22 R412). -/
def sharedDone (s : State) (p : Nat) (g : Group) : Bool :=
  let dones := (s.berths.filter (fun b => b.part == p)).map (fun b => doneOf b.lrec) ++
    (s.domains.filter (fun d => d.part == p && !d.dead)).map (fun d => doneOf d.lrec)
  g.members.any (fun m => m.here s && decide (2 ≤ (dones.filter (· == m.mkey)).length))

/-- How members on other packages end a collective before any image leaves, as they may: they differ in their signature, or fail a translation (12 R280;
log entry 5). -/
def farEnd (s : State) (m : CollMember) (far : List Nat) : Option CollEnd :=
  let x := (Config.freeWord s.fresh).toNat
  match far with
  | [] => none
  | _ =>
    if x % 8 = 1 then some (.status (-3) (fun _ => some (cCOLLMIS, 0)) false)
    else if x % 8 = 2 ∧ m.desc.op ≠ 6 then some (.status (-1) (fun _ => none) true)
    else none

/-- The active set of a member's tile is that of its issue (05 R110). -/
def collTile (s : State) (m : CollMember) : Tile :=
  let t := tileAt s (m.agent.tile s)
  match m.agent.oper s with
  | some o => { t with reta := o.ret.1, retb := o.ret.2 }
  | none => t

/-! ### The data of a collective between its members (03 R74; 22 R412; log entry 95) -/

/-- Beats of a number of bytes; control words take one. -/
def collBeats (len : Nat) : Nat := max 1 ((len + 63) / 64)

/-- The ranks to which a rank sends, with the beats of each: its contribution, or the partial result, to its parent, and the result to its children. -/
def partners (g : Group) (d : CollDesc) (r : Nat) : List (Nat × Nat) :=
  let n := g.members.length
  let parent := fun k => ((g.members[k]?).map (·.parent)).getD 0
  (if r = 0 then [] else [(parent r, collBeats (d.inLen r n))]) ++ (children parent n r).map (fun c => (c, collBeats (d.outLen n)))

/-- The path from a die to the member of a rank: to its die here, or through the port that its entry binds, while that is UP. -/
def collPath (s : State) (ms : List CollMember) (g : Group) (src r : Nat) : Option (List Nat) :=
  match ms.find? (fun x => x.rank == r), g.members[r]? with
  | some x, _ => let d := dieOf (x.agent.tile s); some (if d = src then [] else [d])
  | none, some q =>
    if portUp s q.port && (portAt s q.port).peerPkg.toNat == q.pkg then some ((if portDie q.port = src then [] else [portDie q.port]) ++ [256 + q.pkg])
    else none
  | none, none => some []

/-- What a member sends to the member of a rank crosses; it is charged to the member's launch. -/
def sendPart (ms : List CollMember) (g : Group) (m : CollMember) (a : State × Bool) (q : Nat × Nat) : State × Bool :=
  let w := m.agent.who a.1
  let msg := collMsg + q.1
  let r :=
    match collPath a.1 ms g w.die q.1 with
    | some path => travelBy a.1 w none w.die path msg (beatUnits path q.2)
    | none => if hasBeat a.1 w.ag msg then leaveBeats a.1 w.ag msg else (a.1, false)
  (r.1, a.2 && r.2)

/-- Everything that the members of this package send has crossed. -/
def crossColl (s : State) (g : Group) (d : CollDesc) (ms : List CollMember) : State × Bool :=
  ms.foldl (fun a m => (partners g d m.rank).foldl (sendPart ms g m) a) (s, true)

/-- The messages of an agent in a collective have been performed. -/
def dropColl (s : State) (ag : Agent) : State :=
  { s with
    hawsers := s.hawsers.filter (fun x => match x with | .beat _ _ _ a n _ => !(a == ag && decide (collMsg ≤ n)) | .marker .. => true)
    bills := s.bills.filter (fun b => !(b.agent == ag && decide (collMsg ≤ b.msg))) }

/-- Every member of this package has read what it contributes, and sent it: nothing of it is kept any longer. -/
def forgetAll (s : State) (ms : List CollMember) : State := ms.foldl (fun s m => let ag := (m.agent.who s).ag; dropColl (forget s ag) ag) s

/-- The result of every member, once each contribution is known. -/
def deliver (s : State) (m : CollMember) (g : Group) (ms : List CollMember) (ins : List (List (Byte × Bool))) (far : List Nat) : State :=
  let n := g.members.length
  let tiles := (List.range n).map (fun r => (ms.find? (fun x => x.rank == r)).map (collTile s))
  let e := endOfColl m.desc (fun r => ((g.members[r]?).map (·.parent)).getD 0) tiles (s.fresh + 1) ins n
  let fe := farEnd s m far
  let s1 := { noteCorrections s ms (if fe.isSome then [] else e.2) with fresh := s.fresh + 1 + n * (m.desc.inLen 0 n / imageSize) }
  let undef := sharedDone s m.part g
  match fe.getD e.1 with
  | .status v c u => endWith s1 m n v c u
  | .result out =>
    let s2 := setResults s1 m (fun x =>
      { status := x.desc.outLen n, cause := none, moved := 0
        bytes := if undef then freeBytes (s1.fresh + x.rank * freesFor (x.desc.outLen n)) (x.desc.outLen n) else out x.rank })
    if undef then { s2 with fresh := s1.fresh + (n + 1) * freesFor (m.desc.outLen n) } else s2

/-- Compute the results of a collective, once every member of this package has entered it and may be read, and what they send has crossed. What members on other packages contribute is free, and
is reduced with the rest (04 R95, R96; log entry 5). -/
def resolveColl (s : State) (m : CollMember) (g : Group) : State :=
  let n := g.members.length
  let ms := byRank (collOf s m) n
  let far := (List.range n).filter (fun r => !((g.members[r]?).any (fun x => x.here s)))
  if ms.length + far.length < n || !ms.all (fun x => x.agent.ready s) then s
  else if signaturesDiffer ms || (m.desc.op == 4 && decide (n ≤ m.desc.root)) then
    endWith s m n (-3) (fun _ => some (cCOLLMIS, 0)) false
  else if m.desc.ty == 4 && (m.desc.op == 1 || m.desc.op == 2) && ms.any (fun x => decide (synSize ≤ (tileAt s (x.agent.tile s)).synq.length)) then s
  else
    match gatherColl m.desc n ms (List.range n) s [] with
    | .wait s1 => s1
    | .held s1 _ _ _ => s1
    | .fail s1 => endWith (forgetAll s1 ms) m n (-1) (fun _ => none) true
    | .ok s1 ins =>
      let r := crossColl s1 g m.desc ms
      if r.2 then deliver (forgetAll r.1 ms) m g ms ins far else r.1

/-- A member's result is another now. -/
def setRes (s : State) (a : CollAgent) (r : CollRes) : State :=
  { s with colls := s.colls.map (fun x => if x.agent = a then { x with res := some r } else x) }

/-- Write the next pieces of a member's OUT: fuel, the member's result; what has been written stays so while the rest waits (19 R350). -/
def writeOut (a : CollAgent) (base : Nat) : Nat → State → CollRes → RangeAns CollRes
  | 0, s, r => .ok s r
  | n + 1, s, r =>
    match r.bytes with
    | [] => .ok s r
    | _ =>
      let va := base + r.moved
      let k := min r.bytes.length (64 - va % 64)
      let piece := r.bytes.take k
      let r1 := { r with bytes := r.bytes.drop k, moved := r.moved + k }
      if a.behind s va k true then .wait (setRes s a r)
      else
        match engineWrite s (a.who s) va k (ofBytesLE (piece.map (·.1))) (piece.any (·.2)) with
        | .ok s1 _ _ => writeOut a base n (a.letGo s1) r1
        | .discard s1 => writeOut a base n (a.letGo s1) (if 0 ≤ r.status then { r1 with status := -2 } else r1)
        | .wait s1 => .wait (setRes s1 a r)
        | .held s1 va m w => .held (setRes s1 a r) va m w
        | .fail s1 => .ok s1 { r with bytes := [], status := if 0 ≤ r.status then -1 else r.status }

/-- The event that a COLLECTIVE step raises for a negative status, with the descriptor's address (12 R281). -/
def stepCause (v : Int) (cause : Option (Nat × Word)) : Nat :=
  if v = -3 then cCOLLMIS else if v = -4 then cCOLLNF else if v = -5 then cCOLLLOST else if v = -6 then cRNSOVF
  else if v = -7 then (match cause with | some c => c.1 | none => cRNSUNC) else cACCESS

/-- A member leaves its collective. -/
def dropMember (s : State) (m : CollMember) : State := { s with colls := s.colls.filter (fun x => x.agent != m.agent) }

/-- The operation of a COLLECTIVE step ends: its lock-table entries are free; it has no token (02 R33). -/
def endBerthOp (s : State) (id : Nat) : State :=
  match CollAgent.oper s (.berth id) with
  | none => s
  | some o =>
    let pos := CollAgent.tile s (.berth id)
    let t := tileAt s pos
    setTile s pos { t with ops := t.ops.filter (fun p => p.id != o.id), lock := t.lock.filter (fun e => e.op != o.id) }

/-- A member that has its result writes OUT and then its token, or ends its COLLECTIVE step (12 R280, R281; 02 R33). -/
def finishMember (s : State) (m : CollMember) (r : CollRes) (stepDone : State → Nat → Int → Option (Nat × Word) → State) : State :=
  match writeOut m.agent m.desc.out (r.bytes.length + 1) s r with
  | .wait s1 => s1
  | .held s1 va mg w => m.agent.hold s1 va mg w
  | .fail s1 => s1
  | .ok s1 r1 =>
    let s2 := dropMember s1 m
    match m.agent with
    | .op pos id => (match opOf s2 pos id with | some o => endOp s2 pos o r1.status r1.cause | none => s2)
    | .berth id => stepDone (endBerthOp s2 id) id r1.status r1.cause

/-- A collective at one of its members goes on: its result is computed, or written. -/
def runColl (s : State) (m : CollMember) (stepDone : State → Nat → Int → Option (Nat × Word) → State) : State :=
  match m.res with
  | some r => if m.agent.ready s then finishMember s m r stepDone else s
  | none =>
    match tblGet? (partAt s m.part).grps m.group with
    | some g => resolveColl s m g
    | none => endWith s m 1 (-5) (fun _ => some (cCOLLLOST, BitVec.ofNat 64 m.group)) false

/-- COLL_COMPLETE: the collective of a COLL goes on at its member. -/
def execCollComplete (s : State) : Out := with2 s fun pos id =>
  match s.colls.find? (fun m => m.agent == .op pos id) with
  | none => .next s
  | some m => .next (runColl s m (fun s _ _ _ => s))

/-- A group is not formed: its entry is removed, and its command ends with 4 (22 R413). -/
def notFormed (s : State) (p g : Nat) (e : Group) : State :=
  let x := partAt s p
  { setPart s p { x with grps := tblErase x.grps g } with mgmt := { s.mgmt with mstatSeq := e.cmdSeq, mstat := 4 } }

/-- A member is lost: every collective of the group in flight ends with −5, and the group is broken (12 R281); one that is still pending cannot be formed
any more (22 R413; log entry 77). -/
def loseMember (s : State) (p g : Nat) : State :=
  let x := partAt s p
  match tblGet? x.grps g with
  | none => s
  | some e =>
    if !e.formed && !e.broken then notFormed s p g e
    else
    let n := e.members.length
    let s1 := (s.colls.filter (fun m => m.part == p && m.group == g && m.res.isNone)).foldl (fun s m =>
      endWith s m n (-5) (fun _ => some (cCOLLLOST, BitVec.ofNat 64 g)) true) s
    let y := partAt s1 p
    setPart s1 p { y with grps := tblSet y.grps g { e with broken := true } }

/-- MEMBER_LOSS: the member of a rank of a group is lost. -/
def execMemberLoss (s : State) : Out := with3 s fun p g rank =>
  match tblGet? (partAt s p).grps g with
  | some e => .next (if rank < e.members.length then loseMember s p g else s)
  | none => .next s

end Sys2Proof.Machine
end

