-- ==== Sys2Proof/Machine/Hardware.lean ====
section
/-!
DEFINITION. What hardware itself reads and writes at physical addresses: scheduler blocks, error queues and group entries
(19 R340; 21 R382, R383; 22 R409, R412).

Such an access is made in one instant, when its lines have their turn at their homes: the row that makes it waits until then (06 R126; log entry 14).
-/
namespace Sys2Proof.Machine

open Sys2Proof

/-- For whom hardware makes an access to a line, at its home. -/
def hwWho (l : Nat) : Who :=
  { pos := homePos l, slot := none, quay := homePos l, asid := 0, root := 0, sup := true, part := none, cls := 0 }

/-- A line under a key slot may be read or written by hardware in this instant: it is its turn at the home, no transaction is needed, and its data can be had. -/
def lineReady (s : State) (l key : Nat) (write : Bool) : Bool :=
  !homedHere s l ||
    (homeTurn s l .hw && !needsTrans (metaOf s l).st write &&
      (match fetchLine s l key write with | .error (_, .busy) => false | _ => true))

/-- An access of hardware waits for its turn: it is held in the comparator while it is asked for in every cycle, and what it needs is asked for. -/
def waitLine (s : State) (l key : Nat) (write : Bool) : State :=
  if lineReady s l key write then s
  else
    let s1 := waitHome s (hwWho l) l write
    if !homeTurn s1 l .hw then s1
    else if needsTrans (metaOf s1 l).st write then askHome s1 l write
    else (match fetchLine s1 l key write with | .error (s2, _) => s2 | .ok (s2, _) => s2)

/-- Some lines may be accessed by hardware in this instant, or else what is done for that. -/
def hwTurn (s : State) (ls : List Nat) (key : Nat) (write : Bool) : Option State :=
  if ls.all (fun l => lineReady s l key write) then none else some (ls.foldl (fun s l => waitLine s l key write) s)

/-- The lines of some bytes. -/
def linesAt (pa n : Nat) : List Nat := (List.range ((pa + n - 1) / 128 + 1 - pa / 128)).map (pa / 128 + ·)

/-- Hardware reads `n` bytes of one line; none where the address is not populated here, or the line is lost, its block fails, or it is not its turn. -/
def hwRead? (s : State) (pa n key : Nat) : Option (State × Nat) :=
  let l := lineOf pa
  if !populatedOff pa || !homedHere s l || (metaOf s l).st == .broken || !lineReady s l key false then none
  else
    match fetchLine s l key false with
    | .ok (s1, x) => some (settled s1 l .hw, sliceLine x.data (pa % 128) n)
    | .error _ => none

/-- Hardware reads a value; where it cannot be read the value is free (00 R2; log entry 14). -/
def hwRead (s : State) (pa n key : Nat) : State × Nat :=
  match hwRead? s pa n key with
  | some r => r
  | none => (nextFresh s, (Config.freeVec s.fresh).toNat % 2 ^ (8 * n))

/-- Hardware writes `n` bytes of one line; a write that cannot be performed is lost. -/
def hwWrite (s : State) (pa n key data : Nat) : State :=
  let l := lineOf pa
  if !populatedOff pa || !homedHere s l || (metaOf s l).st == .broken || !lineReady s l key true then s
  else
    match fetchLine s l key true with
    | .ok (s1, x) => settled (putLine s1 l (mergeLine x.data (pa % 128) n (fullMask n) data)) l .hw
    | .error (s1, _) => s1

/-! ### The scheduler block (19 R340, Table 19-1) -/

/-- Bytes of a scheduler block. -/
def sblkSize : Nat := 0x100

/-- The scheduler block of a partition may be accessed in this instant, or else what is done for that. -/
def sblkTurn (s : State) (p : Nat) (write : Bool) : Option State :=
  let x := partAt s p
  if x.st = .none then none else hwTurn s (linesAt x.sblk.toNat sblkSize) x.tkey.toNat write

/-- What a word of one line of this package holds now, wherever its newest copy is; none where it cannot be read here. -/
def peek (s : State) (pa n key : Nat) : Option Nat :=
  let l := lineOf pa
  if !populatedOff pa || !homedHere s l || (metaOf s l).st == .broken || blockKey s (blockOfLine l) != key then none
  else
    match localCopy s l with
    | some (v, _) => some (sliceLine v (pa % 128) n)
    | none => (match fetchLine s l key false with | .ok (_, x) => some (sliceLine x.data (pa % 128) n) | .error _ => none)

/-- A field of a partition's scheduler block, read when it is used. -/
def sblkRead (s : State) (p off n : Nat) : State × Nat :=
  hwRead s ((partAt s p).sblk.toNat + off) n (partAt s p).tkey.toNat

/-- The ASID under which the host's accesses for a partition are made, as its scheduler block holds it now. -/
def peekAsid (s : State) (p : Nat) : Option (BitVec 9) := (peek s ((partAt s p).sblk.toNat + 0x010) 8 (partAt s p).tkey.toNat).map (BitVec.ofNat 9)

/-- Write a field of a partition's scheduler block. -/
def sblkWrite (s : State) (p off n v : Nat) : State :=
  hwWrite s ((partAt s p).sblk.toNat + off) n (partAt s p).tkey.toNat v

/-- The supervisor values that dispatch gives: STVEC, ASID, PTBASE and SLOTS (19 R347). -/
structure DispatchCsrs where
  stvec : Word
  asid : Word
  ptbase : Word
  slots : Nat

/-- Read them. -/
def dispatchCsrs (s : State) (p : Nat) : State × DispatchCsrs :=
  let a := sblkRead s p 0x008 8
  let b := sblkRead a.1 p 0x010 8
  let c := sblkRead b.1 p 0x018 8
  let d := sblkRead c.1 p 0x020 8
  (d.1,
    { slots := a.2, stvec := BitVec.ofNat 64 (b.2 % 8192), asid := BitVec.ofNat 64 (c.2 % 512)
      ptbase := under 0xFFFFFFFFFE000 0 (BitVec.ofNat 64 d.2) })

/-- An agent of a partition's hardware at a tile's quay, under DASID and DPTBASE (19 R348, R425; 22 R406, R408). -/
def schedWho (s : State) (p pos cls : Nat) (sup : Bool) (ag : Agent) : State × Who :=
  let c := dispatchCsrs s p
  (c.1, { pos := pos, slot := none, quay := transQuay pos, asid := c.2.asid.setWidth 9, root := c.2.ptbase, sup := sup, part := some p
          cls := cls, ag := ag })

/-! ### Error queues of partitions (21 R382, R383) -/

/-- The 64 bytes of a record (21 Table 21-1). -/
def ErrRec.bytes (r : ErrRec) : Nat :=
  r.kind % 2 ^ 8 + r.fl.toNat * 2 ^ 8 + r.count % 2 ^ 16 * 2 ^ 16 + r.cycle.toNat * 2 ^ 64 + r.place.toNat * 2 ^ 128 +
    r.addr.toNat * 2 ^ 192 + r.lo.toNat * 2 ^ 256 + r.hi.toNat * 2 ^ 320

/-- Vector `k` of a virtual function fires: an interrupt for the host, or, while its MSI-X table entry masks it, a pending bit (22 R409, Table 22-8; log
entry 122). -/
def fireVector (s : State) (vf k : Nat) : State :=
  let x := tblGet Vf.reset s.vfs vf
  if (vget MsixEnt.reset x.msix k).ctrl.getLsbD 0 then { s with vfs := tblSet s.vfs vf { x with pending := bitSet x.pending k true } }
  else { s with irqs := s.irqs ++ [(vf, k)] }

/-- Vector `k` of the enabled virtual functions of a partition fires (22 R409). -/
def fireAll (s : State) (p k : Nat) : State := (List.range (partAt s p).nvf).foldl (fun s i => fireVector s (4 * p + i) k) s

/-- LOST rises by one, saturating, and the next record written has LOSTB set (21 R383). -/
def dropRec (s : State) (p base key : Nat) : State :=
  let x := partAt s p
  let l := hwRead (setPart s p { x with errLost := 1 }) (base + 0x18) 4 key
  hwWrite l.1 (base + 0x18) 4 key (min (2 ^ 32 - 1) (l.2 + 1))

/-- BASE and NREC of a header are as 21 Table 21-3 asks: a populated multiple of 64, and a power of two from 64 to 65,536. -/
def ringOk (s : State) (base nrec : Nat) : Bool :=
  base % 64 == 0 && populated s none base && populated s none (base + 64 * nrec - 1) && (List.range 11).any (fun i => nrec == 64 * 2 ^ i)

/-- Write one record to a partition's error queue: it is dropped while the ring is full or its header is malformed (21 R383). -/
def writeRec (s : State) (p : Nat) (r : ErrRec) : State :=
  let x := partAt s p
  let h := x.errq.toNat
  let k := x.errKey.toNat
  if x.st = .none then s
  else
    let base := hwRead s h 8 k
    let nrec := hwRead base.1 (h + 8) 4 k
    let head := hwRead nrec.1 (h + 0x10) 4 k
    let tail := hwRead head.1 (h + 0x14) 4 k
    if ringOk s base.2 nrec.2 = false ∨ (head.2 + 2 ^ 32 - tail.2) % 2 ^ 32 = nrec.2 then dropRec tail.1 p h k
    else
      let r1 := if x.errLost = 0 then r else { r with fl := r.fl ||| 4 }
      let s1 := hwWrite tail.1 (base.2 + 64 * (head.2 % nrec.2)) 64 k r1.bytes
      let y := partAt s1 p
      fireAll (hwWrite (setPart s1 p { y with errLost := 0 }) (h + 0x10) 4 k ((head.2 + 1) % 2 ^ 32)) p 0

/-- The header of a partition's error queue, and the place of its next record, may be accessed in this instant, or else what is done for that. -/
def ringTurn (s : State) (p : Nat) : Option State :=
  let x := partAt s p
  let h := x.errq.toNat
  let k := x.errKey.toNat
  if x.st = .none then none
  else
    match hwTurn s (linesAt h 64) k true with
    | some s1 => some s1
    | none =>
      match hwRead? s h 8 k, hwRead? s (h + 8) 4 k, hwRead? s (h + 0x10) 4 k with
      | some b, some n, some i => if ringOk s b.2 n.2 then hwTurn s (linesAt (b.2 + 64 * (i.2 % n.2)) 64) k true else none
      | _, _, _ => none

/-- A record that is on its way to an error queue is written, or follows later, after those before it of its queue; after a record of a read the next access to its
Poisoned line may be released (21 R383, R387). -/
def flushRec (s : State) (e : Nat × ErrRec) : State :=
  if s.recs.any (fun x => x.1 == e.1) then { s with recs := s.recs ++ [e] }
  else
    match ringTurn s e.1 with
    | some s1 => { s1 with recs := s1.recs ++ [e] }
    | none =>
      let s1 := writeRec s e.1 e.2
      if e.2.kind = 0x05 then releaseNext s1 (lineOf e.2.addr.toNat) else s1

/-- Every record on its way to an error queue is written, oldest first, as far as it can be. -/
def flushRecs (s : State) : State := s.recs.foldl flushRec { s with recs := [] }

end Sys2Proof.Machine
end

