-- ==== Sys2Proof/Machine/Control.lean ====
section
/-!
DEFINITION. Branches, jumps, the ends of tasks and iterations, and the repeat buffer: major opcodes 0x0B, 0x0C, 0x0E and 0x38
(09 R203 to R207, R212; 13 R296 to R299; 02 R34, R51).
-/
namespace Sys2Proof.Machine

open Sys2Proof

/-- BR: continues at pc + d; a target outside 0 to 8,191 raises ACCESS (08 R172; 09 R203). -/
def execBr (g : BitVec 3) (o : BitVec 23) (s : State) : Out :=
  runCore (.br g o) s (fun _ s =>
    let t : Int := s.cur.pc.toNat + o.toInt
    demand (decide (0 ≤ t ∧ t < 8192)) 9 cACCESS (ofInt 64 t) (.goto s t.toNat))

/-- JALR: rd := pc + 1 and continue at a; a target of 8,192 or more raises ACCESS (09 R205). -/
def execJalr (g : BitVec 3) (d a : BitVec 5) (s : State) : Out :=
  runCore (.jalr g d a) s (fun o s =>
    needClean o 0 <|
    demand (decide ((o.word 0).toNat < 8192)) 9 cACCESS (o.word 0) <|
      .goto (setS s d (BitVec.ofNat 64 (s.cur.pc.toNat + 1)) false) (o.word 0).toNat)

/-- TEXIT: the slot becomes DRAINING (02 R51; 09 R206). -/
def execTexit (g : BitVec 3) (s : State) : Out :=
  runCore (.texit g) s (fun _ s => .keep (setMe s { me s with phase := .draining true }))

/-- The berth of a tile. -/
def berthAt (s : State) (pos : Nat) : Option Berth :=
  match (tileAt s pos).berth with
  | some b => s.berths.find? (fun x => x.id == b)
  | none => none

/-- A save has been requested and stops the chart at iteration count `n` (19 R352). -/
def stopsAt (b : Option Berth) (n : Nat) : Bool :=
  match b.bind (·.saveT) with
  | some t => decide (t ≤ n)
  | none => false

/-- ITEND: the iteration count rises, WID advances, and the slot continues at the core entry point or becomes SUSPENDED at the step boundary;
a save stops it at its common count (02 R34, R40; 09 R207; 19 R352). -/
def execItend (g : BitVec 3) (s : State) : Out :=
  runCore (.itend g) s (fun _ s =>
    let t := myTile s
    let n := t.coit + 1
    let x := me s
    let wid := widAdvance x.widf (fun f => (vget 0 t.fBase f).toNat) (fun f => (vget 0 t.fExt f).toNat) x.wid
    let count := match berthAt s s.cur.pos with | some b => b.count | none => 0
    let s1 := setMyTile s { t with coit := n }
    if n < count then
      .keep (setMe s1
        { me s1 with
          wid := wid
          pc := t.centry.setWidth 14
          phase := if stopsAt (berthAt s s.cur.pos) n then .boundary else .running })
    else .keep (setMe s1 { me s1 with wid := wid, phase := .boundary }))

/-- REP: captures the words that follow and hands their passes to the repeat buffer; with a count of 0 the token is written at once
(08 R177, R180; 09 R212; 13 R300; 18 R337). -/
def execRep (g : BitVec 3) (t a : BitVec 5) (st m l : BitVec 4) (s : State) : Out :=
  runCore (.rep g t a st m l) s (fun o s =>
    needClean o 0 <|
    demand (!(me s).rep.active) 7 cUNDEF (curWord s) <|
      let n := min (o.word 0).toNat (2 ^ 32 - 1)
      if n = 0 then .done (setS s t 0 false)
      else
        let x := me s
        let r : Rep :=
          { active := true, susp := false, base := BitVec.ofNat 13 (s.cur.pc.toNat + 1), len := BitVec.ofNat 5 (l.toNat + 1)
            count := BitVec.ofNat 32 n, pass := 0, idx := 0, mask := m, stride := st, tok := t
            resume := BitVec.ofNat 14 (s.cur.pc.toNat + l.toNat + 2) }
        .done (reserveToken (setMe s
          { x with rep := r, sPend := pendToken x.sPend t.toNat, outs := x.outs.map (fun a => { a with late := false }) }) s.cur.pos s.cur.slot t.toNat .rep))

/-- TRAP: raises USER_TRAP with a, CODE and the next word as EPC; it is complete when it traps, so a port word it names has been taken (13 R297; 03 R59). -/
def execTrap (g : BitVec 3) (a : BitVec 5) (c : BitVec 11) (s : State) : Out :=
  runCore (.trap g a c) s (fun o s =>
    needClean o 0 <| .trapWith (dequeue (.trap g a c) s) { row := 20, cause := cUSERTRAP, tval := o.word 0, code := c.toNat, next := true })

/-- SVC: as TRAP; never delegated (13 R297). -/
def execSvc (g : BitVec 3) (a : BitVec 5) (c : BitVec 11) (s : State) : Out :=
  runCore (.svc g a c) s (fun o s =>
    needClean o 0 <| .trapWith (dequeue (.svc g a c) s) { row := 20, cause := cSVC, tval := o.word 0, code := c.toNat, next := true })

/-- BREAK: its EPC is its own word index (13 R297). -/
def execBrk (g : BitVec 3) (a : BitVec 5) (c : BitVec 11) (s : State) : Out :=
  runCore (.brk g a c) s (fun o s =>
    needClean o 0 <| .trapWith (dequeue (.brk g a c) s) { row := 20, cause := cBREAK, tval := o.word 0, code := c.toNat })

/-- URET: UNDEF_OP outside a user handler; otherwise the return of R299. -/
def execUret (g : BitVec 3) (s : State) : Out :=
  runCore (.uret g) s (fun _ s =>
    demand ((me s).ucause.getLsbD 63) 7 cUNDEF (curWord s) <| .keep (setMe s (returnUser (me s))))

/-- ERET: the return of 18 R328; the run count of the slot restarts (19 R351). -/
def execEret (g : BitVec 3) (s : State) : Out :=
  runCore (.eret g) s (fun _ s => .keep (setMe s { returnSupervisor (me s) with runCount := 0 }))

end Sys2Proof.Machine
end

