-- ==== Sys2Proof/Machine/Task.lean ====
section
/-!
DEFINITION. Tasks and task messages: MSEND, the task network, run queues and spill regions, dispatch to slots, and the end of a task
(02 R42 to R51; 12 R277; 19 R347).
-/
namespace Sys2Proof.Machine

open Sys2Proof

/-! ### Domains (02 R43) -/

/-- A rectangle of tiles in tile-grid coordinates. -/
structure Rect where
  tx : Nat
  ty : Nat
  w : Nat
  h : Nat
  deriving DecidableEq, Repr

/-- The rectangle of a domain by its number: a berth or a task domain. -/
def domainRect (s : State) (d : Nat) : Option Rect :=
  match s.berths.find? (fun b => b.id == d), s.domains.find? (fun b => b.id == d) with
  | some b, _ => some ⟨b.tx, b.ty, b.w, b.h⟩
  | none, some b => some ⟨b.tx, b.ty, b.w, b.h⟩
  | none, none => none

/-- The tile-grid coordinates lie in a rectangle. -/
def Rect.has (r : Rect) (x y : Nat) : Bool := decide (r.tx ≤ x ∧ x < r.tx + r.w ∧ r.ty ≤ y ∧ y < r.ty + r.h)

/-- The tiles of a rectangle, row by row. -/
def Rect.tiles (r : Rect) : List Nat :=
  (List.range r.h).flatMap (fun j => (List.range r.w).map (fun i => gridPos (r.tx + i) (r.ty + j)))

/-- A coordinate moved into a range. -/
def clampTo (x lo n : Nat) : Nat := if x < lo then lo else min x (lo + n - 1)

/-! ### The start of a task (02 R42, R50; 19 R347) -/

/-- An entry of the handler table of a tile: the word index where it is valid. -/
def handlerEntry (t : Tile) (h : Nat) : Option (BitVec 13) :=
  let e := memRead t.htab (2 * h) 2
  if 2 ^ 15 ≤ e then some (BitVec.ofNat 13 e) else none

/-- The stack pointer of a slot at the start of its work (02 R50). -/
def stackTop (t : Tile) (k : Nat) : Word := BitVec.ofNat 64 (Config.localBase + Config.spillOff - k * t.stk.toNat)

/-- SSCRATCH of a slot of a tile (19 R347). -/
def saveArea (slots pos k : Nat) : Word :=
  BitVec.ofNat 64 (slots + 0xA00 * (4 * (128 * gridY pos + posX pos) + k))

/-- The state in which work begins in a slot: registers 0 but for the stack pointer, header defaults, and the supervisor values of dispatch. CSRs that 02 R50 and
19 R347 do not name hold their reset values (log entry 15). -/
def freshSlot (t : Tile) (k pos : Nat) (c : DispatchCsrs) (budget : BitVec 4) (pc : BitVec 13) (nextId : Nat) : Slot :=
  { Slot.reset with
    s := vset Slot.reset.s 29 (stackTop t k)
    pc := pc.setWidth 14
    phase := .running
    nfc := t.hNfc
    seed := t.hSeed
    stvec := c.stvec
    asid := c.asid
    ptbase := c.ptbase
    sscratch := saveArea c.slots pos k
    budget := budget
    nextId := nextId }

/-- The registers that the words of a message fill, with their poison bits. -/
def putPayload (t : Slot) (ws : List (Word × Bool)) : Slot :=
  ws.zipIdx.foldl (fun t w => { t with s := vset t.s (1 + w.2) w.1.1, sP := bitSet t.sP (1 + w.2) w.1.2 }) t

/-- Code of the chart of a tile that a resume has found changed: it is undefined for the tasks too that begin there (19 R355). -/
def chartTorn (t : Tile) : List Torn :=
  let x := vget Slot.reset t.slots 0
  if x.isChart then x.torn else []

/-- A task begins in a slot; the first task of a boot record starts in the supervisor view as the event slot (22 R403). -/
def startTask (s : State) (pos k : Nat) (m : Msg) (pc : BitVec 13) : State :=
  match partOf s pos with
  | none => s
  | some p =>
    let c := dispatchCsrs s p
    let s1 := c.1
    let t := tileAt s1 pos
    let x0 := putPayload (freshSlot t k pos c.2 m.budget pc (vget Slot.reset t.slots k).nextId) m.payload
    let x := { x0 with s := vset x0.s 5 m.sender, wid := m.wid, widf := m.widf, hnd := m.hnd, isTask := true, torn := chartTorn t }
    let boot := s1.domains.any (fun d => d.id == m.dom && d.boot) || s1.berths.any (fun b => b.id == m.dom && b.boot)
    if boot then
      let s2 := clearEv
        { s1 with
          domains := s1.domains.map (fun d => if d.id = m.dom then { d with boot := false } else d)
          berths := s1.berths.map (fun b => if b.id = m.dom then { b with boot := false } else b) } p
      setSlot s2 pos k { x with sstatus := 0x11 }
    else setSlot s1 pos k x

/-- The slots that may take a task: 1 to 3 on a tile of a berth, else all (02 R43). -/
def eligibleSlots (t : Tile) : List Nat := if t.berth.isSome then [1, 2, 3] else [0, 1, 2, 3]

/-- The lowest-numbered IDLE eligible slot (02 R48). -/
def idleSlot (t : Tile) : Option Nat := (eligibleSlots t).find? (fun k => (vget Slot.reset t.slots k).phase == .idle)

/-- Tasks a run queue holds, messages a spill region holds, messages an outgoing queue holds (02 R45; 12 R277). -/
def runqSize : Nat := 64
def spillSize : Nat := 256
def outSize : Nat := 8

/-- Accepts(T) (02 R45). -/
def accepts (t : Tile) : Bool := (idleSlot t).isSome && decide (t.runq.length < runqSize)

/-- A message that no slot takes at once: queued, spilled, or held with MSEND_OVERFLOW (02 R45, R49). A spilled message is held beside the scratch bytes, whose
values stay as they were (log entry 99). -/
def queueMsg (s : State) (pos : Nat) (m : Msg) : State :=
  let t := tileAt s pos
  if t.runq.length < runqSize && t.spill.isEmpty then setTile s pos { t with runq := t.runq ++ [m] }
  else if t.spill.length < spillSize then setTile s pos { t with spill := t.spill ++ [m] }
  else raiseAt (setTile s pos { t with heldMsg := some m }) pos cOVERFLOW (tileId s.pkg pos)

/-- A tile takes a message: dispatched at once or queued; an invalid handler discards it (02 R42, R45). -/
def takeMsg (s : State) (pos : Nat) (m : Msg) : State :=
  let t := tileAt s pos
  match handlerEntry t m.hnd.toNat with
  | none => raiseAt s pos cACCESS (m.hnd.setWidth 64)
  | some pc =>
    match idleSlot t, t.runq with
    | some k, [] => startTask s pos k m pc
    | _, _ => queueMsg s pos m

/-- A message leaves the network. -/
def dropNet (s : State) (i : Nat) : State := { s with net := s.net.eraseIdx i }

/-- The message that has reached the message unit of a tile first, by its number in the network: messages there are served in the order in which they arrive
(02 R46; 03 R71). -/
def firstAt (s : State) (pos : Nat) : Option Nat := s.net.findIdx? (fun n => (n.arrived || n.msg.hinted) && n.pos == pos)

/-- TASK_MESSAGE_TAKE: the message that has arrived at a tile first is taken, unless the tile holds one back (02 R45, R49). -/
def execTaskMessageTake (s : State) : Out := with1 s fun pos =>
  if (tileAt s pos).heldMsg.isSome then .next s
  else
    match firstAt s pos with
    | none => .next s
    | some i =>
      match s.net[i]? with
      | some n => .next (if n.arrived then takeMsg (dropNet s i) pos n.msg else s)
      | none => .next s

/-- One step toward a hint: first in x, then in y (02 R46). -/
def stepToward (pos tx ty : Nat) : Nat :=
  if posX pos < tx then pos + 1
  else if tx < posX pos then pos - 1
  else if gridY pos < ty then gridPos (posX pos) (gridY pos + 1)
  else gridPos (posX pos) (gridY pos - 1)

/-- HINTED_WALK_STEP: the message with a number in the network tests the tile it stands at, once it is the first there, and is taken or moves one step, behind
what has reached that tile before (02 R46). -/
def execHintedWalkStep (s : State) : Out := with1 s fun i =>
  match s.net[i]? with
  | none => .next s
  | some n =>
    let t := tileAt s n.pos
    let h := gridPos n.msg.tx n.msg.ty
    if n.arrived || !n.msg.hinted || firstAt s n.pos != some i then .next s
    else if (decide (gridDist n.pos h ≤ n.msg.rad) && accepts t) || n.pos == h then
      .next (if t.heldMsg.isSome then s else takeMsg (dropNet s i) n.pos n.msg)
    else .next { s with net := s.net.eraseIdx i ++ [{ n with pos := stepToward n.pos n.msg.tx n.msg.ty }] }

/-- TASK_DISPATCH: the oldest queued task goes to the lowest-numbered IDLE eligible slot (02 R48). -/
def execTaskDispatch (s : State) : Out := with1 s fun pos =>
  let t := tileAt s pos
  match idleSlot t, t.runq with
  | some k, m :: ms =>
    (match handlerEntry t m.hnd.toNat with
     | some pc => .next (startTask (setTile s pos { t with runq := ms }) pos k m pc)
     | none => .next (raiseAt (setTile s pos { t with runq := ms }) pos cACCESS (m.hnd.setWidth 64)))
  | _, _ => .next s

/-- SPILL_TO_QUEUE: a freed queue entry takes the oldest spilled message, and a held message is spilled in its place (02 R48, R49). -/
def execSpillToQueue (s : State) : Out := with1 s fun pos =>
  let t := tileAt s pos
  match t.spill with
  | [] => .next s
  | m :: ms =>
    if t.runq.length < runqSize then
      .next (setTile s pos { t with runq := t.runq ++ [m], spill := ms ++ t.heldMsg.toList, heldMsg := none })
    else .next s

/-- A DRAINING slot has nothing left: its operations have written their tokens and its accesses have been performed and answered (02 R51). -/
def drainedOut (t : Tile) (k : Nat) : Bool :=
  let x := vget Slot.reset t.slots k
  !t.ops.any (fun o => o.slot == k && !o.finished) && x.outs.isEmpty && x.replies.isEmpty

/-- DRAIN_COMPLETE: the slot becomes IDLE, and its registers keep their values (02 R51); the cause of a negative status that no instruction has read is raised at the TEXIT first
(12 R271). -/
def execDrainComplete (s : State) : Out := with2 s fun pos k =>
  let t := tileAt s pos
  let x := vget Slot.reset t.slots k
  if x.phase.isDraining = true ∧ drainedOut t k = true then
    match x.phase, x.tokErr with
    | .draining true, e :: es => .next (takeTrap (setSlot s pos k { x with tokErr := es }) pos k false e.cause 0 e.tval x.pc.toNat)
    | _, _ => .next (setSlot s pos k x.ended)
  else .next s

/-! ### MSEND (12 R277) -/

/-- The message of an MSEND from the current slot. -/
def sentMsg (s : State) (x : Word) (hint : Bool) (payload : List (Word × Bool)) (d : Nat) (r : Rect) : Msg :=
  let t := me s
  let px := bitsOf x 6 0
  let py := bitsOf x 22 16
  { hnd := BitVec.ofNat 6 (bitsOf x 37 32), payload := payload, sender := tileId s.pkg s.cur.pos, wid := t.wid, widf := t.widf
    budget := t.budget, dom := d, hinted := hint
    tx := if hint then clampTo px r.tx r.w else px
    ty := if hint then clampTo py r.ty r.h else gridY (mkPos px py)
    rad := bitsOf x 27 24 }

/-- MSEND: the target word is checked, then the message enters the outgoing queue, which the slot waits for while it is full. -/
def execMsend (g : BitVec 3) (d a : BitVec 5) (n : BitVec 3) (h : BitVec 1) (s : State) : Out :=
  runCore (.msend g d a n h) s (fun o s =>
    let x := o.word 0
    let hint := h == 1
    let pos := mkPos (bitsOf x 6 0) (bitsOf x 22 16)
    needClean o 0 <|
    demand (bitsOf x 63 38 == 0) 9 cACCESS x <|
    demand (hint || bitsOf x 27 24 == 0) 9 cACCESS x <|
    demand (hint || isTilePos pos) 9 cACCESS x <|
      match (myTile s).dom with
      | none => .trap { row := 9, cause := cACCESS, tval := x }
      | some dm =>
        match domainRect s dm with
        | none => .trap { row := 9, cause := cACCESS, tval := x }
        | some r =>
          demand (hint || r.has (posX pos) (gridY pos)) 9 cACCESS x <|
            let t := myTile s
            if outSize ≤ t.msgOut.length then .wait s
            else
              let ws := (List.range n.toNat).map (fun i => (o.word (1 + i), o.psn (1 + i)))
              .done (setMyTile s { t with msgOut := t.msgOut ++ [sentMsg s x hint ws dm r] }))

/-- A number lies between two others. -/
def between (a b x : Nat) : Bool := decide (min a b ≤ x ∧ x ≤ max a b)

/-- The way of a hinted message that travels, first in x and then in y, still leads to a tile or stands there (02 R46). -/
def mayReach (n : NetMsg) (dst : Nat) : Bool :=
  (gridY dst == gridY n.pos && between (posX n.pos) n.msg.tx (posX dst)) || (posX dst == n.msg.tx && between (gridY n.pos) n.msg.ty (gridY dst))

/-- An earlier message of a tile may still arrive at the tile of its die that a message without hint names: the two arrive there in the order sent (03 R71). -/
def sentBefore (s : State) (pos : Nat) (m : Msg) : Bool :=
  let dst := gridPos m.tx m.ty
  !m.hinted && dieOf dst == dieOf pos && s.net.any (fun n => n.msg.hinted && n.msg.sender == m.sender && mayReach n dst)

/-- The oldest message of a tile's outgoing queue enters the network at that tile (02 R46), once it cannot overtake an earlier one. -/
def sendOut (s : State) (pos : Nat) : State :=
  let t := tileAt s pos
  match t.msgOut with
  | [] => s
  | m :: ms =>
    if sentBefore s pos m then s
    else
    { setTile s pos { t with msgOut := ms } with net := s.net ++ [{ msg := m, pos := pos, arrived := false }] }

/-- Messages to exact tiles arrive, in the order sent, behind what has reached their tiles before (02 R45; 03 R71; 12 R277). -/
def arriveAll (s : State) : State :=
  { s with net := s.net.filter (fun n => n.msg.hinted || n.arrived) ++
      (s.net.filter (fun n => !(n.msg.hinted || n.arrived))).map (fun n => { n with pos := gridPos n.msg.tx n.msg.ty, arrived := true }) }

end Sys2Proof.Machine
end

