-- ==== Sys2Proof/Machine/SwitchWords.lean ====
section
/-!
DEFINITION. Switches and their words: crossbar settings, transfers, counters, branches and faults (03 R57 to R61; 13 R286 to R294).
-/
namespace Sys2Proof.Machine

open Sys2Proof

/-! ### Spans (02 R30) -/

/-- A position lies in the span of a rectangle of tiles: a tile of it, or a quay of its columns on a line of a band that holds one of its rows. -/
def Rect.spans (r : Rect) (pos : Nat) : Bool :=
  decide (r.tx ≤ posX pos ∧ posX pos < r.tx + r.w) &&
    (if isQuay pos then (List.range r.h).any (fun j => bandOf (gridPos (posX pos) (r.ty + j)) == bandOf pos)
     else decide (r.ty ≤ gridY pos ∧ gridY pos < r.ty + r.h))

/-- The rectangle of a berth. -/
def Berth.rect (b : Berth) : Rect := ⟨b.tx, b.ty, b.w, b.h⟩

/-- The berth whose span holds a position. -/
def berthOfPos (s : State) (pos : Nat) : Option Berth := s.berths.find? (fun b => b.rect.spans pos)

/-! ### Inputs, outputs and room (03 Table 3-1, R58, R64, R67) -/

/-- The link on a side of a position crosses from one die to another (01 R16). -/
def boundarySide (pos side : Nat) : Bool :=
  match linkPos pos side with
  | some q => dieOf q != dieOf pos
  | none => false

/-- The input with a port-track code exists at a position: a link without track B where it crosses dies, the core of a tile, or the generators of a
quay. -/
def inputExists (pos code : Nat) : Bool :=
  if code < 12 then (linkPos pos (code / 3)).isSome && !(code % 3 == 1 && boundarySide pos (code / 3))
  else if code = 12 then !isQuay pos
  else code ≤ 14

/-- The input carries control words of 64 bits (13 R288). -/
def controlInput (pos code : Nat) : Bool :=
  if code < 12 then code % 3 != 2 else decide (code ≤ 13) && !isQuay pos

/-- The output is a data output: track 2 toward a neighbour, or 30. -/
def dataOutput (out : Nat) : Bool := (out - 16) % 3 == 2

/-- The switch and the buffer of it that an output feeds. -/
def outputBuf (pos out : Nat) : Option (Nat × Nat) :=
  if out < 28 then (linkPos pos ((out - 16) / 3)).map (fun q => (q, 3 * (((out - 16) / 3 + 2) % 4) + (out - 16) % 3))
  else some (pos, out - 13)

/-- The words a buffer holds: 8 on a boundary link, 4 elsewhere. -/
def bufSize (pos b : Nat) : Nat := if b < 12 && boundarySide pos (b / 3) then 8 else 4

/-- The buffer that an output feeds has room; an output that leads nowhere takes every word. -/
def outputRoom (s : State) (pos out : Nat) : Bool :=
  match outputBuf pos out with
  | some (q, b) => decide ((bufOf (switchAt s q) b).length < bufSize q b)
  | none => true

/-! ### Crossbar settings (03 R60, R61; 13 R287) -/

/-- A route of a setting: output, input, PAIR mode. -/
structure Route where
  out : Nat
  inp : Nat
  pair : Bool
  deriving DecidableEq, Repr

/-- OUT and IN of route field `i` of a table entry. -/
def fieldOut (e : BitVec 32) (i : Nat) : Nat := bitsOf e (8 * i + 7) (8 * i + 4)
def fieldIn (e : BitVec 32) (i : Nat) : Nat := bitsOf e (8 * i + 3) (8 * i)

/-- The routes of a table entry. -/
def routesOf (e : BitVec 32) : List Route :=
  ((List.range 4).filter (fun i => decide (fieldOut e i < 15) && decide (fieldIn e i < 15))).map (fun i =>
    { out := 16 + fieldOut e i, inp := fieldIn e i
      pair := (List.range 4).any (fun j => fieldOut e j == fieldOut e i && fieldIn e j == 15) })

/-- Lanes of a data word from a control word (03 R61). -/
def replicate (pair : Bool) (x : Vec) : Vec :=
  let lo := x.toNat % 2 ^ 32
  let w := if pair then x.toNat % 2 ^ 64 else lo + lo * 2 ^ 32
  BitVec.ofNat 512 (((List.range 8).map (fun i => w * 2 ^ (64 * i))).foldl (· + ·) 0)

/-- The word a route sends. -/
def routed1 (pos : Nat) (r : Route) (x : TWord) : TWord :=
  if dataOutput r.out && controlInput pos r.inp then { x with data := replicate r.pair x.data } else x

/-- The head of an input buffer. -/
def inputHead (s : State) (pos code : Nat) : Option TWord := (bufOf (switchAt s pos) code).head?

/-- The inputs of a setting, each once. -/
def needed (rs : List Route) : List Nat := (rs.map (·.inp)).eraseDups

/-- Every needed input holds a word and every target has room. -/
def transferReady (s : State) (pos : Nat) (rs : List Route) : Bool :=
  rs.all (fun r => (inputHead s pos r.inp).isSome && outputRoom s pos r.out)

/-- Send a word to the buffer an output feeds. -/
def sendTo (s : State) (pos out : Nat) (x : TWord) : State :=
  match outputBuf pos out with
  | some (q, b) => pushBuf s q b x
  | none => s

/-- Take the head from an input buffer. -/
def takeHead (s : State) (pos code : Nat) : State :=
  let w := switchAt s pos
  setSwitch s pos (setBuf w code ((bufOf w code).drop 1))

/-- One transfer with a setting, whole or not at all; `deq` makes the dequeue step (03 R60). -/
def transfer (s : State) (pos : Nat) (rs : List Route) (deq : Bool) : Option State :=
  if transferReady s pos rs then
    let heads := rs.map (fun r => (r, (inputHead s pos r.inp).getD { data := 0, poison := false }))
    let s1 := if deq then (needed rs).foldl (fun s i => takeHead s pos i) s else s
    some (heads.foldl (fun s h => sendTo s pos h.1.out (routed1 pos h.1 h.2)) s1)
  else none

/-- The entry that a routing word names: of the shadow table while TAB is 1 (13 R291). -/
def Switch.entry (w : Switch) (e : Nat) : BitVec 32 := vget 0 (if w.tab = 0 then w.rtab else w.shTab) e

/-! ### Faults (13 R294) -/

/-- STVAL of a switch fault. -/
def switchFaultValue (s : State) (pos : Nat) : Word :=
  BitVec.ofNat 64 (2 ^ 63 + (switchAt s pos).pc.toNat % 2 ^ 13 * 2 ^ 48 + (tileId s.pkg pos).toNat % 2 ^ 48)

/-- The switch stops and raises its cause to the supervisor of its partition. -/
def switchFault (s : State) (cause : Nat) : State :=
  let pos := s.cur.pos
  raiseAt (setSwitch s pos { switchAt s pos with flt := true }) pos cause (switchFaultValue s pos)

/-! ### One switch word -/

/-- What a switch word answers. -/
inductive SwEffect where
  /-- done; the switch continues at a word index -/
  | go (s : State) (pc : Int)
  /-- nothing more in this cycle: the word waits, or has transfers owed -/
  | stay (s : State)
  | fault (cause : Nat)

/-- One execution of the word of the current switch; a switch at the boundary or with FLT executes nothing. A target outside route memory faults and the word is
not performed. The target of a branch that is not taken is not looked at: 13 R294 does not say whether it counts, and this is the model's choice (log entry 70). -/
def runSwitch (s : State) (f : Nat → Switch → SwEffect) : Out :=
  let pos := s.cur.pos
  let w := switchAt s pos
  if w.phase ≠ .running ∨ w.flt then .next s
  else
    match f pos w with
    | .stay s1 => .next s1
    | .fault c => .next (switchFault s c)
    | .go s1 pc =>
      if 0 ≤ pc ∧ pc < 8192 then .next (setSwitch s1 pos { switchAt s1 pos with pc := BitVec.ofNat 14 pc.toNat })
      else .next (switchFault s cACCESS)

/-- The next word of a switch. -/
def Switch.next (w : Switch) : Int := w.pc.toNat + 1

/-- The target of a branch. -/
def Switch.target (w : Switch) (off : Int) : Int := w.pc.toNat + off

/-- A counter. -/
def Switch.ctr (w : Switch) (c : BitVec 2) : BitVec 16 := vget 0 w.c c.toNat

/-- Set a counter of the switch at a position. -/
def setCtr (s : State) (pos : Nat) (c : BitVec 2) (v : BitVec 16) : State :=
  let w := switchAt s pos
  setSwitch s pos { w with c := vset w.c c.toNat v }

/-- Transfers or discards owed by a word, `n` of them when it begins: one is made by `f`, which is told whether it is the last; a word that is blocked keeps
REM (13 R291). -/
def owed (s : State) (pos : Nat) (w : Switch) (n : Nat) (f : Bool → Option State) : SwEffect :=
  if 8192 ≤ w.next then .fault cACCESS
  else
    let rem := if w.rem = 0 then n else w.rem.toNat
    if rem = 0 then .go s w.next
    else
      match f (rem == 1) with
      | none => .stay s
      | some s1 =>
        let s2 := setSwitch s1 pos { switchAt s1 pos with rem := BitVec.ofNat 16 (rem - 1) }
        if rem = 1 then .go s2 w.next else .stay s2

/-- ROUTE (13 R291). -/
def execRoute (e : BitVec 4) (n : BitVec 8) (s : State) : Out :=
  runSwitch s fun pos w => owed s pos w (n.toNat + 1) (fun _ => transfer s pos (routesOf (w.entry e.toNat)) true)

/-- HOLD: inputs are dequeued only at the last transfer (13 R291). -/
def execHold (e : BitVec 4) (n : BitVec 8) (s : State) : Out :=
  runSwitch s fun pos w => owed s pos w (n.toNat + 1) (fun last => transfer s pos (routesOf (w.entry e.toNat)) last)

/-- ROUTEC: as many transfers as the counter holds (13 R291). -/
def execRoutec (e : BitVec 4) (c : BitVec 2) (s : State) : Out :=
  runSwitch s fun pos w => owed s pos w (w.ctr c).toNat (fun _ => transfer s pos (routesOf (w.entry e.toNat)) true)

/-- SWITCH_TRANSFER: one transfer of the current switch with an entry, once it is ready (03 R60). -/
def execSwitchTransfer (s : State) : Out := with1 s fun e =>
  .next ((transfer s s.cur.pos (routesOf ((switchAt s s.cur.pos).entry e)) true).getD s)

/-- SETC. -/
def execSetc (c : BitVec 2) (v : BitVec 10) (s : State) : Out :=
  runSwitch s fun pos w => .go (setCtr s pos c (v.setWidth 16)) w.next

/-- SETCH. -/
def execSetch (c : BitVec 2) (v : BitVec 6) (s : State) : Out :=
  runSwitch s fun pos w => .go (setCtr s pos c (BitVec.ofNat 16 (v.toNat * 1024 + bitsOf (w.ctr c) 9 0))) w.next

/-- The in field of a word that reads a control word names one (13 R292). -/
def namesControl (pos code : Nat) : Bool := inputExists pos code && controlInput pos code

/-- A control word is read: it waits, faults on poison, or is dequeued (13 R292). Where BCZ and BCNZ go is known only once it has been read, so that at index 8,191 they
wait for it, and fault on its poison, before a program counter that would pass 8,191 faults; the rule gives no order, and this is the model's choice (log
entry 70). -/
def controlWord (s : State) (pos code : Nat) (f : State → Word → SwEffect) : SwEffect :=
  if !namesControl pos code then .fault cRSVD
  else
    match inputHead s pos code with
    | none => .stay s
    | some x => if x.poison then .fault cPOISON else f (takeHead s pos code) (x.data.setWidth 64)

/-- LDC (13 R292): at index 8,191 it faults without waiting for its word (R294; log entry 70). -/
def execLdc (c : BitVec 2) (i : BitVec 5) (s : State) : Out :=
  runSwitch s fun pos w =>
    if namesControl pos i.toNat && decide (8192 ≤ w.next) then .fault cACCESS
    else controlWord s pos i.toNat (fun s1 x => .go (setCtr s1 pos c (x.setWidth 16)) w.next)

/-- DBNZ. -/
def execDbnz (c : BitVec 2) (o : BitVec 10) (s : State) : Out :=
  runSwitch s fun pos w =>
    let v := w.ctr c - 1
    .go (setCtr s pos c v) (if v = 0 then w.next else w.target o.toInt)

/-- BZC. -/
def execBzc (c : BitVec 2) (o : BitVec 10) (s : State) : Out :=
  runSwitch s fun _ w => .go s (if w.ctr c = 0 then w.target o.toInt else w.next)

/-- BCZ (13 R292). -/
def execBcz (i : BitVec 5) (o : BitVec 7) (s : State) : Out :=
  runSwitch s fun pos w => controlWord s pos i.toNat (fun s1 x => .go s1 (if x = 0 then w.target o.toInt else w.next))

/-- BCNZ (13 R292). -/
def execBcnz (i : BitVec 5) (o : BitVec 7) (s : State) : Out :=
  runSwitch s fun pos w => controlWord s pos i.toNat (fun s1 x => .go s1 (if x = 0 then w.next else w.target o.toInt))

/-- JMP. -/
def execJmp (o : BitVec 12) (s : State) : Out := runSwitch s fun _ w => .go s (w.target o.toInt)

/-- WAIT: dequeues nothing. -/
def execWait (i : BitVec 5) (s : State) : Out :=
  runSwitch s fun pos w =>
    if !inputExists pos i.toNat then .fault cRSVD
    else if 8192 ≤ w.next then .fault cACCESS
    else if (inputHead s pos i.toNat).isSome then .go s w.next
    else .stay s

/-- DROP: one discard at a time. -/
def execDrop (i : BitVec 5) (n : BitVec 7) (s : State) : Out :=
  runSwitch s fun pos w =>
    if !inputExists pos i.toNat then .fault cRSVD
    else owed s pos w (n.toNat + 1) (fun _ => if (inputHead s pos i.toNat).isSome then some (takeHead s pos i.toNat) else none)

/-- IEND: the next iteration, the step boundary, the common count of a save, or the wait of a shadow program (13 R293; 19 R352). -/
def execIend (s : State) : Out :=
  runSwitch s fun pos w =>
    if w.tab = 1 then .stay (setSwitch s pos { w with phase := .boundary })
    else
      let n := w.iter + 1
      let count := match berthOfPos s pos with | some b => b.count | none => 0
      if n.toNat < count then
        .go (setSwitch s pos { w with iter := n, phase := if stopsAt (berthOfPos s pos) n.toNat then .boundary else .running }) w.rentry.toNat
      else .stay (setSwitch s pos { w with iter := n, phase := .boundary })

/-- UNDEFINED_SWITCH_WORD: the fault of a word that the decoder rejects (13 R294). -/
def execUndefinedSwitchWord (s : State) : Out := with1 s fun x =>
  match decodeSwitch x with
  | .ok _ => .next s
  | .error .undefOp => runSwitch s fun _ _ => .fault cUNDEF
  | .error _ => runSwitch s fun _ _ => .fault cRSVD

end Sys2Proof.Machine
end

