-- ==== Sys2Proof/Machine/Banks.lean ====
section
/-!
DEFINITION. The places of the records of a save in the pools, and the operand banks that saved charts hold (19 R355, R357).
-/
namespace Sys2Proof.Machine

open Sys2Proof

/-! ### Spans of quays (02 R30) -/

/-- The rows of the quay lines of a span, northernmost first. -/
def quayRows (r : Rect) : List Nat := (List.range 74).filter (fun y => isQuay (mkPos r.tx y) && r.spans (mkPos r.tx y))

/-- The quays of a span in ascending y and then x. -/
def Rect.quays (r : Rect) : List Nat := (quayRows r).flatMap (fun y => (List.range r.w).map (fun i => mkPos (r.tx + i) y))

/-- Every position of a span in ascending y and then x. -/
def Rect.positions (r : Rect) : List Nat :=
  ((List.range 74).flatMap (fun y => (List.range r.w).map (fun i => mkPos (r.tx + i) y))).filter r.spans

/-! ### The places of the records (19 R355) -/

/-- Bytes of a header, a tile record and a quay record. -/
def headSize : Nat := 0x400
def tileRecSize : Nat := 0x160000
def quayRecSize : Nat := 0x9000

/-- A position with its record's place in the pool of its die. -/
structure Placed where
  pos : Nat
  addr : Nat
  deriving DecidableEq, Repr

/-- Where the records of a rectangle's positions stand in the space reserved for them: each die's records are contiguous, after the header on the origin's
die. -/
def placeRecords (r : Rect) (pool : List (Nat × Nat × Nat)) : List Placed :=
  let o := dieOf (gridPos r.tx r.ty)
  (r.positions.foldl (fun (acc : List Placed × Tbl Nat) p =>
    let d := dieOf p
    let base := match pool.find? (fun x => x.1 == d) with | some x => x.2.1 | none => 0
    let at_ := tblGet (base + if o = d then headSize else 0) acc.2 d
    (acc.1 ++ [⟨p, at_⟩], tblSet acc.2 d (at_ + if isQuay p then quayRecSize else tileRecSize))) ([], [])).1

/-- The address of the header. -/
def headAddr (r : Rect) (pool : List (Nat × Nat × Nat)) : Nat :=
  match pool.find? (fun x => x.1 == dieOf (gridPos r.tx r.ty)) with
  | some x => x.2.1
  | none => 0

/-- The rectangle that a saved chart had. -/
def Saved.rect (x : Saved) : Rect := ⟨x.tx, x.ty, x.w, x.h⟩

/-! ### Held banks (19 R357) -/

/-- An operand bank that a saved chart of a partition holds, with the address of its tile record. -/
structure HeldBank where
  part : Nat
  chart : Nat
  pos : Nat
  addr : Nat
  deriving DecidableEq, Repr

/-- The banks that saved charts hold at positions of a set. -/
def heldBanks (s : State) (at_ : Nat → Bool) : List HeldBank :=
  s.parts.flatMap (fun e => e.2.saved.flatMap (fun x =>
    match x.banks.filter (fun q => at_ q.1) with
    | [] => []
    | qs =>
      (placeRecords x.rect x.pool).filterMap (fun y =>
        if qs.any (fun q => q.1 == y.pos) then some { part := e.1, chart := x.id, pos := y.pos, addr := y.addr } else none)))

/-- The first of them. -/
def heldBank (s : State) (ps : List Nat) : Option HeldBank := (heldBanks s (fun p => ps.contains p)).head?

/-- The bank has been copied into its record: it is released. -/
def releaseBank (s : State) (h : HeldBank) : State :=
  let x := partAt s h.part
  setPart s h.part { x with saved := x.saved.map (fun y => if y.id = h.chart then { y with banks := y.banks.filter (fun q => q.1 != h.pos) } else y) }

/-- Unit `n` of a bank and its poison bits, with its offset in the tile record (19 Table 19-4); none past the last. -/
def bankUnit (t : Tile) (n : Nat) : Option (Nat × Nat) :=
  if n < 16384 then some (0x58000 + 64 * n, ofBytesLE (memRun t.bank (64 * n) 64))
  else if n < 16416 then some (0x158000 + 64 * (n - 16384), packFrom 1 (fun i => (memGet t.bankP (512 * (n - 16384) + i)).toNat % 2) 512 0)
  else none

/-- The agent that copies a bank: the scheduler of the chart's partition, on behalf of who waits for the copy. -/
def bankWho (s : State) (h : HeldBank) (cls : Nat) (ag : Agent) : State × Who := schedWho s h.part h.pos cls true ag

/-- One 64-byte unit is written. -/
def storeUnit (s : State) (w : Who) (va v : Nat) : MemAns := memAccess s w va 64 .store (fun _ _ => .put v (fullMask 64) false)

/-- Some 64 KiB granule of a bank's tile record has a property of its physical address and key slot; what does not translate has none. -/
def recordHas (w : Who) (addr : Nat) (mine : Nat → Nat → Bool) : Nat → State → Option (State × Bool)
  | 0, s => some (s, false)
  | n + 1, s =>
    match translate s w (needOf .store) (va56 (addr + 0x10000 * n)) with
    | .leaf s1 pa key => if mine pa key then some (s1, true) else recordHas w addr mine n s1
    | .refused s1 => recordHas w addr mine n s1
    | .absent s1 => recordHas w addr mine n s1
    | .migrating s1 => recordHas w addr mine n s1
    | .wait _ => none

/-- The first held bank whose record has blocks of a kind; none of the outer kind where a translation waits. -/
def bankOf (s : State) (cls : Nat) (ag : Agent) (mine : Nat → Nat → Bool) : List HeldBank → Option (Option HeldBank)
  | [] => some none
  | h :: hs =>
    match recordHas (bankWho s h cls ag).2 h.addr mine 23 (bankWho s h cls ag).1 with
    | none => none
    | some (_, true) => some (some h)
    | some (_, false) => bankOf s cls ag mine hs

/-- An instruction that would write back or initialise blocks of a record waits until every bank whose record has such blocks has been copied into it, one unit
after another (19 R357). -/
def afterBanks (s : State) (mine : Nat → Nat → Bool) (f : State → Effect) : Effect :=
  let t := me s
  let ag : Agent := .inline s.cur.pos s.cur.slot
  let banks := heldBanks s (fun _ => true)
  match banks.findSome? (fun h => sblkTurn s h.part false) with
  | some s1 => .wait s1
  | none =>
  match bankOf s t.budget.toNat ag mine banks with
  | none => .wait s
  | some none => f s
  | some (some h) =>
    let y := t.busy.getD {}
    let w := bankWho s h t.budget.toNat ag
    let kept := fun (s : State) (n : Nat) =>
      let s1 := asks s s.cur.pos s.cur.slot false
      Effect.wait (setMe s1 { me s1 with busy := some { y with stored := n, asking := false } })
    match bankUnit (tileAt s h.pos) y.stored with
    | none => kept (releaseBank s h) 0
    | some (off, v) =>
      match storeUnit w.1 w.2 (h.addr + off) v with
      | .ok s1 _ _ => kept s1 (y.stored + 1)
      | .bad s1 _ => kept s1 (y.stored + 1)
      | .wait s1 => .wait (asks s1 s.cur.pos s.cur.slot true)
      | .held s1 m =>
        let x := withhold s1 w.2 (h.addr + off) m true t.blocked
        .wait (setMe x.1 { me x.1 with blocked := some x.2 })

end Sys2Proof.Machine
end

