-- ==== Sys2Proof/Machine/Privileged.lean ====
section
/-!
DEFINITION. The instructions of the supervisor view: WFI, translation invalidation, slot save and restore, seal and cache maintenance
(18 R328 to R337; 20 R374).
-/
namespace Sys2Proof.Machine

open Sys2Proof

/-! ### WFI (18 R328) -/

/-- The slot's partition has an event pending. -/
def eventPending (s : State) (pos : Nat) : Bool :=
  match partOf s pos with
  | some p => !(partAt s p).evq.isEmpty
  | none => false

/-- WFI: the event slot is SUSPENDED at the word after it until an event is pending; another slot goes on. -/
def execWfi (g : BitVec 3) (s : State) : Out :=
  runCore (.wfi g) s (fun _ s =>
    let t := me s
    if !t.sstatus.getLsbD 4 || eventPending s s.cur.pos then .done s
    else .keep (setMe s { t with phase := .wfi, pc := t.pc + 1 }))

/-- A slot SUSPENDED in WFI goes on once an event is pending. -/
def wakeWfi (s : State) (pos k : Nat) : State :=
  let t := slotAt s pos k
  if t.phase = .wfi ∧ eventPending s pos = true then setSlot s pos k { t with phase := .running } else s

/-! ### TLBINV (18 R330; 20 R374) -/

/-- What a TLBINV names: a page, as an address with the log2 of its size, and an ASID; none stands for any. -/
structure Inval where
  page : Option (Nat × Nat)
  asid : Option (BitVec 9)
  deriving DecidableEq, Repr

/-- A held access matches. -/
def Inval.hits (i : Inval) (va : Nat) (asid : BitVec 9) : Bool :=
  (match i.page with | some (v, lg) => va % 2 ^ 56 / 2 ^ lg == v / 2 ^ lg | none => true) &&
    (match i.asid with | some a => a == asid | none => true)

/-- A TLB entry matches: a page of the named size, and of the ASID or global (log entry 16). -/
def Inval.entry (i : Inval) (e : TlbEnt) : Bool :=
  (match i.page with | some (v, lg) => e.lg == lg && e.vbase / 2 ^ lg == v / 2 ^ lg | none => true) &&
    (match i.asid with | some a => e.leaf.getLsbD 5 || e.asid == a | none => true)

/-- A withheld access that a TLBINV matches is released: it keeps the cycle of its first ABSENT, and waits no longer (20 R374). -/
def Inval.free (i : Inval) (b : Blocked) : Blocked := if i.hits b.va.toNat b.asid then { b with released := true } else b

/-- The outstanding accesses of a slot after the release: the matched ones are translated anew. -/
def Inval.access (i : Inval) (a : Access) : Access :=
  if (a.stage = .faultHeld ∨ a.stage = .migHeld) ∧ i.hits a.va.toNat a.asid = true then { a with stage := .issued } else a

/-- A slot after the release. -/
def Inval.slot (i : Inval) (t : Slot) : Slot := { t with outs := t.outs.map i.access, blocked := t.blocked.map i.free }

/-- The held access of an agent matches; of the scheduler and the host, every one of their held reads does. -/
def Inval.agent (i : Inval) (s : State) : Agent → Bool
  | .access pos k id =>
    (match accessOf s pos k id with
     | some a => i.hits a.va.toNat a.asid
     | none => true)
  | .inline pos k => ((slotAt s pos k).blocked.map (fun b => i.hits b.va.toNat b.asid)).getD true
  | .op pos id => ((opOf s pos id).bind (·.held) |>.map (fun b => i.hits b.va.toNat b.asid)).getD true
  | .gen pos k => ((vget Gen.reset (quayAt s pos).gens k).held.map (fun b => i.hits b.va.toNat b.asid)).getD true
  | .berth id => s.berths.all (fun x => x.id != id || (x.held.map (fun b => i.hits b.va.toNat b.asid)).getD true)
  | .domain id => s.domains.all (fun x => x.id != id || (x.held.map (fun b => i.hits b.va.toNat b.asid)).getD true)
  | .sched p => (partAt s p).queues.toList.all (fun q => q.all (fun l => (l.held.map (fun b => i.hits b.va.toNat b.asid)).getD true))
  | .host vf => (tblGet Vf.reset s.vfs vf).heldWrites.all (fun x => (peekAsid s (vf / 4)).all (i.hits x.toNat))
  | _ => true

/-- A quay after the invalidation: matching entries are gone, and so are the outcomes of walks that it matches; released accesses leave the replay queue. -/
def Inval.quay (i : Inval) (s : State) (q : Quay) : Quay :=
  { q with
    tlb := q.tlb.filter (fun e => !i.entry e)
    replay := q.replay.filter (fun ag => !i.agent s ag)
    walks := q.walks.filter (fun x => x.out.isNone || !i.hits (x.page.granule * 2 ^ 16) x.page.asid)
    gens := q.gens.map (fun g => { g with held := g.held.map i.free }) }

/-- The row by which a released access is made again, or re-walked where its agent, a STALLED slot, a sequencer or a scheduler, makes it in its own turn: in the
order of the queues. -/
def rewalkRow (s : State) : Agent → List Activity
  | .access pos k id => [.event .accessPerform (.three pos k id)]
  | .inline pos k => (match (slotAt s pos k).phase with | .barw .. => [.event .barrierWake (.two pos k)] | _ => [.event .pageTableWalk (.two 0 (4 * pos + k))])
  | .op pos id =>
    (match opOf s pos id with
     | some o =>
       if o.finished then [.event .beatSubtraction (.two pos id)]
       else (match o.kind with | .coll .. => [.event .collComplete (.two pos id)] | _ => [.event .engineOperationComplete (.two pos id)])
     | none => [])
  | .gen pos k => [.event .generatorReadIssue (.two pos k)]
  | .berth id => [.event .pageTableWalk (.two 1 id)]
  | .domain id => [.event .pageTableWalk (.two 2 id)]
  | .sched p => [.event .pageTableWalk (.two 3 p)]
  | _ => []

/-- The launch-window writes of the host that a TLBINV releases are made again; where the ASID of the partition cannot be read, all of them. -/
def reissueWindow (s : State) (i : Inval) : State :=
  s.vfs.foldl (fun s v =>
    let go : List Word := v.2.heldWrites.filter (fun x => (peekAsid s (v.1 / 4)).all (i.hits x.toNat))
    if go.isEmpty then s
    else
      go.foldl (fun s x => later s .launchWindowWrite (.two v.1 x.toNat))
        { s with vfs := tblSet s.vfs v.1 { v.2 with heldWrites := v.2.heldWrites.filter (fun x => !go.contains x) } }) s

/-- The invalidation, and the release of what it matches in the order of the replay queues, for which PAGE_FAULT may be raised anew (20 R373, R374). -/
def invalidateTlbs (s0 : State) (i : Inval) : State :=
  let s := reissueWindow s0 i
  let rows := s.quays.flatMap (fun e => (e.2.replay.filter (i.agent s)).flatMap (rewalkRow s))
  let s1 := wakeWatches s (· == unreadable)
  { s1 with
    agenda := s.agenda ++ rows
    quays := s.quays.map (fun e => (e.1, i.quay s e.2))
    tiles := s.tiles.map (fun e =>
      (e.1, { e.2 with slots := e.2.slots.map i.slot, ops := e.2.ops.map (fun o => { o with held := o.held.map i.free }) }))
    berths := s.berths.map (fun b => { b with held := b.held.map i.free })
    domains := s.domains.map (fun d => { d with held := d.held.map i.free })
    parts := s.parts.map (fun e =>
      (e.1, { e.2 with
        queues := e.2.queues.map (fun q => q.map (fun l => { l with held := l.held.map i.free }))
        pfSeen := e.2.pfSeen.filter (fun k => !i.hits (k.2 * 2 ^ 16) (BitVec.ofNat 9 k.1)) })) }

/-- log2 of a page size by its SZ field (18 Table 18-18). -/
def pageLg (z : BitVec 2) : Nat := if z = 0 then 16 else if z = 1 then 26 else 36

/-- TLBINV waits until every earlier access of the slot has been performed. -/
def tlbinv (i : Inval) (s : State) : Effect := if (me s).outs.isEmpty then .done (invalidateTlbs s i) else .wait s

/-- TLBINV.ALL. -/
def execTlbinvAll (g : BitVec 3) (s : State) : Out :=
  runCore (.tlbinvAll g) s (fun _ s => tlbinv { page := none, asid := none } s)

/-- TLBINV.ASID. -/
def execTlbinvAsid (g : BitVec 3) (b : BitVec 5) (s : State) : Out :=
  runCore (.tlbinvAsid g b) s (fun o s => needClean o 0 <| tlbinv { page := none, asid := some ((o.word 0).setWidth 9) } s)

/-- TLBINV.PAGE. -/
def execTlbinvPage (g : BitVec 3) (a b : BitVec 5) (z : BitVec 2) (s : State) : Out :=
  runCore (.tlbinvPage g a b z) s (fun o s =>
    needClean o 0 <| needClean o 1 <| demand (z != 3) 7 cRSVD (curWord s) <|
      tlbinv { page := some (va56 (o.word 0).toNat, pageLg z), asid := some ((o.word 1).setWidth 9) } s)

/-- TLBINV.VA. -/
def execTlbinvVa (g : BitVec 3) (a : BitVec 5) (z : BitVec 2) (s : State) : Out :=
  runCore (.tlbinvVa g a z) s (fun o s =>
    needClean o 0 <| demand (z != 3) 7 cRSVD (curWord s) <| tlbinv { page := some (va56 (o.word 0).toNat, pageLg z), asid := none } s)

/-! ### SSAVE and SREST (18 R331 to R333, Table 18-19) -/

/-- Bytes of a save area. -/
def saveSize : Nat := 2560

/-- Words packed into a number, the first lowest. -/
def packWords : List Word → Nat
  | [] => 0
  | x :: xs => x.toNat + 2 ^ 64 * packWords xs

/-- REPA. -/
def repA (r : Rep) : Word := BitVec.ofNat 64 (r.count.toNat * 2 ^ 32 + r.pass.toNat)

/-- REPB. -/
def repB (r : Rep) : Word :=
  BitVec.ofNat 64
    ((if r.active then 1 else 0) + r.base.toNat * 2 + r.len.toNat * 2 ^ 14 + r.idx.toNat * 2 ^ 19 + r.mask.toNat * 2 ^ 23 +
      r.stride.toNat * 2 ^ 27 + r.tok.toNat * 2 ^ 31 + r.resume.toNat % 2 ^ 13 * 2 ^ 36)

/-- The first 24 words of the area: the CSRs, the repeat state, predicates and masks. -/
def saveHead (t : Slot) (pmap pmapx : Word) : List Word :=
  [1, pmap, pmapx, t.sstatus, t.sepc, t.scause, t.stval, t.asid, t.ptbase, t.nfc, t.flags, t.seed, t.wid, t.widf, t.unchk, t.utvec, t.uepc,
    t.ucause, t.utval, repA t.rep, repB t.rep, BitVec.ofNat 64 (t.p.toNat / 2 * 2)] ++
    (List.range 2).map (fun j => BitVec.ofNat 64 (packFrom 16 (fun i => (t.maskOf (4 * j + i)).toNat) 4 0))

/-- The words of s0 to s31; s0 and the ports are stored as 0. -/
def saveS (t : Slot) : List Word := (List.range 32).map (fun i => if i = 0 ∨ 30 ≤ i then 0 else vget 0 t.s i)

/-- The 40 units of the area. -/
def saveUnits (t : Slot) (pmap pmapx : Word) (chart : Bool) : List Nat :=
  let ws := saveHead t pmap pmapx ++ saveS t ++ (List.range 8).map (fun i => vget 0 t.g i)
  (List.range 8).map (fun i => packWords ((ws.drop (8 * i)).take 8)) ++
    (List.range 32).map (fun i => if chart && i == 31 then 0 else (vget 0 t.v i).toNat)

/-- The area lies in global memory or in own scratch. -/
def saveReach (s : State) (va : Word) : Bool :=
  if isGlobal va then decide (va56 va.toNat + saveSize ≤ Config.localBase)
  else
    match regionOf s s.cur.pos va.toNat saveSize with
    | .scratch p _ => p == s.cur.pos
    | _ => false

/-- Stores of 64 bytes each from an address, one after another by the slot that waits for all of them: a store that waits lets the performed ones stand, and one
that is refused raises its cause (18 R332; 19 R350; log entry 101). -/
def inlineStores (cls : BitVec 3) (us : List Nat) (va : Nat) : Nat → State → Effect ⊕ State
  | 0, s => .inr s
  | n + 1, s =>
    let y := (me s).busy.getD {}
    match us[y.stored]? with
    | none => .inr s
    | some x =>
      match inlineAccess s (va + 64 * y.stored) 64 cls false .store (fun _ _ => .put x (fullMask 64) false) with
      | .ok s1 _ _ => inlineStores cls us va n (setMe s1 { me s1 with busy := some { y with stored := y.stored + 1, asking := false } })
      | .bad s1 c => .inl (.trapWith s1 c)
      | .wait s1 => .inl (.wait s1)

/-- The cause with which one of the stores that remain would be refused as memory stands: no store is made then (18 R337). -/
def storesRefused (cls : BitVec 3) (us : List Nat) (va : Nat) (s : State) : Option Cause :=
  us.zipIdx.findSome? (fun x =>
    if x.2 < ((me s).busy.getD {}).stored then none
    else
      match inlineAccess s (va + 64 * x.2) 64 cls false .store (fun _ _ => .put x.1 (fullMask 64) false) with
      | .bad _ c => some c
      | _ => none)

/-- The tests of SSAVE and SREST before they wait. -/
def saveTests (s : State) (e : Effect) : Effect :=
  let va := (me s).sscratch
  demand (decide (va.toNat % 64 = 0)) 8 cMISALIGN va <| demand (saveReach s va) 9 cACCESS va e

/-- Locked ranges of the tile that the area overlaps (07 R155). -/
def saveLocked (s : State) (store : Bool) (e : Effect) : Effect :=
  match lockedAddr (myTile s) ((List.range saveSize).map (fun i => va56 (me s).sscratch.toNat + i)) store with
  | some x => .trap { row := 10, cause := cRANGE, tval := BitVec.ofNat 64 x }
  | none => e

/-- No register of the slot is pending, no operation of it is in flight, and its accesses have been performed. -/
def slotSettled (s : State) : Bool :=
  nonePending (me s) && (me s).outs.isEmpty && !(myTile s).ops.any (fun o => o.slot == s.cur.slot && !o.finished)

/-- SSAVE (18 R332). -/
def execSsave (g : BitVec 3) (s : State) : Out :=
  runCore (.ssave g) s (fun _ s =>
    saveTests s <|
      if !slotSettled s then .wait s
      else
        saveLocked s true <|
          let t := me s
          let us := saveUnits t (pmapOf t) (pmapxOf s) (chartSlot s)
          match storesRefused 0 us t.sscratch.toNat s with
          | some c => .trap c
          | none =>
          match inlineStores 0 us t.sscratch.toNat 40 s with
          | .inl e => e
          | .inr s1 => .done (setMe s1 { me s1 with rep := { (me s1).rep with active := false } }))

/-- Word `i` of the units read. -/
def areaWord (us : List Nat) (i : Nat) : Word := BitVec.ofNat 64 ((us.getD (i / 8) 0) / 2 ^ (64 * (i % 8)) % 2 ^ 64)

/-- The bits of each of the first 22 words that are not reserved. -/
def areaMasks : List Word :=
  [0xFFFFFFFFFFFFFFFF, 0xFFFFFFFFFFFFFFFE, 0xFF0FFEFE, 0x1F, 0x1FFF, 0x800000000007FFFF, 0xFFFFFFFFFFFFFFFF, 0x1FF, 0xFFFFFFFFFE000,
    0xFFB7, 0x3F, 0xFFFFFFFFFFFFFFFF, 0xFFFFFFFFFFFFFFFF, 0xFFFFFFFFF, 0xFFFFFFFFFFFFFFFF, 0x3FFF, 0x1FFF, 0x800000000007FFFF,
    0xFFFFFFFFFFFFFFFF, 0xFFFFFFFFFFFFFFFF, 0x1FFFFFFFFFFFF, 0xFE]

/-- The bits of a scale register that are not reserved (04 Table 4-12). -/
def scaleMask : Word := 0xFFFFFFFFF

/-- VER, the reserved fields, those of g0 to g7 among them, and RM of an area are as R333 asks. -/
def areaOk (us : List Nat) : Bool :=
  areaWord us 0 == 1 && (areaMasks.zipIdx.all (fun m => areaWord us m.2 &&& ~~~m.1 == 0)) &&
    (List.range 8).all (fun i => areaWord us (56 + i) &&& ~~~scaleMask == 0) && decide (bitsOf (areaWord us 9) 2 0 ≤ 4)

/-- The repeat state of an area: its passes stay suspended until the next ERET. -/
def areaRep (a b : Word) : Rep :=
  { active := b.getLsbD 0, susp := b.getLsbD 0, base := BitVec.ofNat 13 (bitsOf b 13 1), len := BitVec.ofNat 5 (bitsOf b 18 14)
    count := BitVec.ofNat 32 (bitsOf a 63 32), pass := BitVec.ofNat 32 (bitsOf a 31 0), idx := BitVec.ofNat 4 (bitsOf b 22 19)
    mask := BitVec.ofNat 4 (bitsOf b 26 23), stride := BitVec.ofNat 4 (bitsOf b 30 27), tok := BitVec.ofNat 5 (bitsOf b 35 31)
    resume := BitVec.ofNat 14 (bitsOf b 48 36) }

/-- A slot with the words of an area: poison from the maps and from the poisoned units (18 R333). -/
def restoreSlot (t : Slot) (us : List (Nat × Bool)) (chart : Bool) : Slot :=
  let ws := us.map (·.1)
  let w := areaWord ws
  let bad := fun (u : Nat) => ((us[u]?).map (·.2)).getD false
  let pm := w 1
  let px := w 2
  { t with
    s := Vector.ofFn (fun i => if i.val = 0 ∨ 30 ≤ i.val then t.s[i] else w (24 + i.val))
    sP := bitSet (BitVec.ofNat 32 (packFrom 1 (fun i => if pm.getLsbD i || (decide (i < 30) && bad (3 + i / 8)) then 1 else 0) 32 0)) 0 false
    v := Vector.ofFn (fun i => if chart && i.val == 31 then t.v[i] else BitVec.ofNat 512 (ws.getD (8 + i.val) 0))
    vP := BitVec.ofNat 32 (packFrom 1 (fun i =>
      if chart && i == 31 then (if t.vP.getLsbD i then 1 else 0) else if pm.getLsbD (32 + i) || bad (8 + i) then 1 else 0) 32 0)
    p := BitVec.ofNat 8 (bitsOf (w 21) 7 0)
    pP := bitSet (BitVec.ofNat 8 (bitsOf px 7 0)) 0 false
    m := Vector.ofFn (fun i => if i.val = 0 then t.m[i] else BitVec.ofNat 16 ((w (22 + i.val / 4)).toNat / 2 ^ (16 * (i.val % 4)) % 2 ^ 16))
    mP := bitSet (BitVec.ofNat 8 (bitsOf px 15 8)) 0 false
    g := Vector.ofFn (fun i => w (56 + i.val) &&& scaleMask)
    gP := BitVec.ofNat 8 (packFrom 1 (fun i => if px.getLsbD (24 + i) || bad 7 then 1 else 0) 8 0)
    sstatus := under 0x0E t.sstatus (w 3)
    sepc := w 4
    scause := w 5
    stval := w 6
    asid := w 7
    ptbase := w 8
    nfc := w 9
    flags := w 10
    seed := w 11
    wid := w 12
    widf := w 13
    unchk := w 14
    utvec := w 15
    uepc := w 16
    ucause := w 17
    utval := w 18
    rep := areaRep (w 19) (w 20)
    tokErr := t.tokErr.map (fun e => { e with reg := 0 }) }

/-- SREST (18 R333): it also waits for pending registers, all of which it writes (08 R166). -/
def execSrest (g : BitVec 3) (s : State) : Out :=
  runCore (.srest g) s (fun _ s =>
    let va := (me s).sscratch
    saveTests s <|
      if !((me s).outs.isEmpty && nonePending (me s)) then .wait s
      else
        saveLocked s false <|
          withUnits s va.toNat 40 0 fun s1 us =>
            match (us.take 3).findIdx? (·.2) with
            | some i => .trapWith s1 { row := 15, cause := cPOISON, tval := BitVec.ofNat 64 (va56 va.toNat + 64 * i) }
            | none =>
              if areaOk (us.map (·.1)) then .done (setMe s1 (restoreSlot (me s1) us (chartSlot s1)))
              else .trapWith s1 { row := 15, cause := cACCESS, tval := va })

/-! ### Seal and cache maintenance (18 R334 to R336) -/

/-- Lines of a block. -/
def blockLines (b : Nat) : List Nat := (List.range 16).map (16 * b + ·)

/-- No transaction runs or waits on a line of a block. -/
def blockQuiet (s : State) (b : Nat) : Bool :=
  let y := dieAt s (dieOfBlock b)
  (blockLines b).all (fun l => (tblGet? y.trans l).isNone && !y.cmp.any (fun r => r.line == l && r.live s))

/-- No transaction runs on a line of a block. -/
def blockIdle (s : State) (b : Nat) : Bool := (blockLines b).all (fun l => !transOn s l)

/-- Messages from a die over a path, and their answers, cross in one instant for an instruction, which is charged two beats for each: whether they may. -/
def bulkTurn (s : State) (w : Who) (msg : Nat) (ms : List (Nat × Option (List Nat))) : State × Bool :=
  let ps := ms.filterMap (fun m => m.2.map (fun p => (m.1, p)))
  if ps.length < ms.length || !ps.all (fun m => m.2.all (fun d => clearWay s m.1 d (w.oc % 4)) && wayBack s m.1 w.oc m.2) then (s, false)
  else pay s w.part w.cls w.ag msg (ps.flatMap (fun m => beatUnits m.2 2))

/-- The number of the message by which an instruction acts on a block, or on all of a partition's. -/
def blockMsg (b : Nat) : Nat := 2 ^ 52 + b

/-- The invalidations of a block initialisation: of each line to every other die and to every package that the partition reaches (06 R131; 18 R335). -/
def initMessages (s : State) (w : Who) (b : Nat) : List (Nat × Option (List Nat)) :=
  let d := dieOfBlock b
  let pkgs : List Nat := match w.part with | some p => ((partAt s p).routes.map (·.1)).filter (fun q => !s.lostPkgs.contains q) | none => []
  (blockLines b).flatMap (fun _ =>
    ((List.range 8).filter (· != d)).map (fun e => (d, some [e])) ++
      pkgs.map (fun q => (d, (pierOf s w.part q w.oc).map (fun j => (if portDie j = d then [] else [portDie j]) ++ [256 + q]))))

/-- The block initialisation of a block of this package under a key slot (18 R335): its lines and sidebands are read, and the stored count and generation stay where
the lines whose sidebands hold COUNT and KEY pass the code. The entry is whole: nothing of the old block is opened for it. -/
def initBlock (s0 : State) (b k : Nat) : State :=
  let s := readBlock (bankServed s0 b) b
  let s1 := (blockLines b).foldl (fun s l => setMeta (dropCopies s l) l LineMeta.idle) s
  let d := dieOfBlock b
  let y := dieAt s1 d
  let sm := tblGet SealMeta.reset y.sealMeta b
  let gen : BitVec 1 := BitVec.ofNat 1 (sm.key.toNat / 128)
  let lost := (badLines s1 b).contains 4 || (badLines s1 b).contains 5
  let kept := !lost && sm.key.toNat % 128 == k && (keysOf s1 k gen).isSome
  let e : ScEnt :=
    { ScEnt.empty (BitVec.ofNat 7 k) with
      valid := 0xFFFF
      dirty := 0xFFFF
      filled := true
      count := if kept then sm.count else 0
      gen := if kept then gen else (tblGet KeySlot.reset s1.keys k).cg }
  wakeBlock
    (setDie s1 d
    { y with
      sc := tblSet y.sc b e
      l2 := y.l2.filter (fun x => x.1 / 16 != b)
      lostTold := y.lostTold.filter (fun x => x.1 / 16 != b)
      sealTold := y.sealTold.filter (fun x => x.1 != b)
      poisonSeen := y.poisonSeen.filter (fun l => l / 16 != b) }) b

/-- Copies of lines homed on another package, of the blocks that `mine` names: dirty data goes home and a shared copy stays. -/
def shareFar (s : State) (mine : Nat → Bool) : State :=
  { s with dies := s.dies.map (fun d =>
      { d with rdc := d.rdc.map (fun x => if mine (x.1 / 16) ∧ (x.2.st = .E ∨ x.2.st = .O ∨ x.2.st = .M) then (x.1, { x.2 with st := .S }) else x) }) }

/-- The recalls of lines at homes here, as for a load at the home: from which die, over what path. -/
def recallMessages (s : State) (w : Who) (ls : List Nat) : List (Nat × Option (List Nat)) :=
  ls.flatMap (fun l =>
    let r := homeReq s w l false
    if needsTrans (metaOf s l).st false then
      ((targetsOf s (metaOf s l) r).filter (fun t => !targetLost s t)).map (fun t => (dieOfLine l, targetPath s r (dieOfLine l) t))
    else [])

/-- The dirty copies of lines of other packages, of the blocks that `mine` names, go home: from which die, over what path. -/
def shareMessages (s : State) (w : Who) (mine : Nat → Bool) : List (Nat × Option (List Nat)) :=
  (List.range 8).flatMap (fun d =>
    ((dieAt s d).rdc.filter (fun x => mine (x.1 / 16) && (x.2.st == .M || x.2.st == .O))).map (fun x => (d, pathTo s w.part w.oc d x.1)))

/-- One line: its RDC copy in E, M or O is recalled as for a load at the home. -/
def recallLine (s : State) (l : Nat) : State :=
  let st := (metaOf s l).st
  if st = .E ∨ st = .M ∨ st = .O then settleLine s { line := l, kind := .homeLoad, pkg := s.pkg.toNat, die := dieOfLine l } else s

/-- The write-back of a block of this package (18 R336). -/
def writeBackBlock (s : State) (b : Nat) : State :=
  resealBlock (mergeL2 ((blockLines b).foldl recallLine s) b) b

/-- Nothing of a block is dirty any more, unless it failed or is frozen. -/
def blockClean (s : State) (b : Nat) : Bool :=
  let y := dieAt s (dieOfBlock b)
  !(entOf s b).any (fun e => !e.failed && !e.frozen && e.dirty != 0) && !y.l2.any (fun x => x.1 / 16 == b && x.2.dirty)

/-- Some blocks are written back in one instant, once no transaction runs on them: whether nothing of them is left dirty. -/
def writeBackAll (s : State) (bs : List Nat) : State × Bool :=
  if bs.all (blockIdle s) then (let s1 := bs.foldl writeBackBlock s; (s1, bs.all (blockClean s1))) else (s, false)

/-- The shared tests of BINIT and BWB, and the translation that names the key slot. -/
def maintain (o : Ops) (s : State) (f : State → Nat → Nat → Effect) : Effect :=
  let va := o.word 0
  needClean o 0 <|
  demand (decide (va.toNat % 2048 = 0)) 8 cMISALIGN va <|
  demand (isGlobal va) 9 cACCESS va <|
    if !(me s).outs.isEmpty then .wait s
    else
      match translate s (slotWho s s.cur.pos s.cur.slot) { r := false, w := true } (va56 va.toNat) with
      | .leaf s1 pa key => f (asks s1 s1.cur.pos s1.cur.slot false) (blockOf pa) key
      | .refused s1 => .trapWith s1 { row := 13, cause := cACCESS, tval := vaOf va }
      | .absent s1 => .wait (blockSlot s1 s.cur.pos s.cur.slot va.toNat false true)
      | .migrating s1 => .wait (blockSlot s1 s.cur.pos s.cur.slot va.toNat true true)
      | .wait s1 => .wait (asks s1 s1.cur.pos s1.cur.slot true)

/-- BINIT of a block of another package: its beats cross a pier, this package's copies go, with the failures told of the block, and the home may find the block
frozen, a free choice (18 R335; 06 R136, R138; log entry 5). -/
def binitFar (s : State) (b : Nat) (va : Word) : Effect :=
  let w := slotWho s s.cur.pos s.cur.slot
  let r := bulkTurn s w (blockMsg b) [(w.die, pathTo s w.part 0 w.die (16 * b))]
  if !r.2 then .wait r.1
  else if farSays r.1 = 2 then .trapWith (nextFresh r.1) { row := 14, cause := cSEALWRAP, tval := vaOf va }
  else
    let d := dieOfBlock b
    let s1 := (blockLines b).foldl dropCopies (nextFresh r.1)
    let y := dieAt s1 d
    .done (setDie s1 d
      { y with lostTold := y.lostTold.filter (fun x => x.1 / 16 != b), sealTold := y.sealTold.filter (fun x => x.1 != b) })

/-- BINIT (18 R335; 19 R357). -/
def execBinit (g : BitVec 3) (a : BitVec 5) (s : State) : Out :=
  runCore (.binit g a) s (fun o s =>
    maintain o s fun s1 b key =>
      if !homedHere s1 (16 * b) then binitFar s1 b (o.word 0)
      else if (entOf s1 b).any (·.frozen) then .trapWith s1 { row := 14, cause := cSEALWRAP, tval := vaOf (o.word 0) }
      else if !blockQuiet s1 b then .wait s1
      else if bankBlocked s1 b then .wait (bankWaits s1 b)
      else
        afterBanks s1 (fun pa _ => pa / 2 ^ 16 == b / 32) fun s2 =>
          let w := slotWho s2 s2.cur.pos s2.cur.slot
          let room := if (entOf s2 b).isSome then (s2, true) else sealRoom s2 b
          if !room.2 then .wait room.1
          else
            let r := bulkTurn room.1 w (blockMsg b) (initMessages room.1 w b)
            if r.2 then .done (initBlock r.1 b key) else .wait r.1)

/-- BWB (18 R336). -/
def execBwb (g : BitVec 3) (a : BitVec 5) (s : State) : Out :=
  runCore (.bwb g a) s (fun o s =>
    maintain o s fun s1 b _ =>
      let w := slotWho s1 s1.cur.pos s1.cur.slot
      if !homedHere s1 (16 * b) then
        (let r := bulkTurn s1 w (blockMsg b) (shareMessages s1 w (· == b))
         if r.2 then .done (shareFar r.1 (· == b)) else .wait r.1)
      else if !blockQuiet s1 b then .wait s1
      else
        let r := bulkTurn s1 w (blockMsg b) (recallMessages s1 w (blockLines b))
        if !r.2 then .wait r.1
        else
          let s2 := writeBackBlock r.1 b
          if blockClean s2 b then .done s2 else .wait s2)

/-- The blocks of this package that a cache of it holds, sealed under key slots that `mine` names. -/
def heldBlocks (s : State) (mine : Nat → Bool) : List Nat :=
  ((s.dies.toList.flatMap (fun d =>
      d.sc.map (·.1) ++ d.l2.map (fun x => x.1 / 16) ++ d.rdc.map (fun x => x.1 / 16) ++ d.wbuf.map (fun x => x.1 / 16))).eraseDups).filter
    (fun b => homedHere s (16 * b) && mine (blockKey s b))

/-- A partition owns a key slot. -/
def ownsKey (s : State) (p k : Nat) : Bool := (tblGet KeySlot.reset s.keys k).owner == some p

/-- PWB: every block of this package sealed under a key slot of the partition; and the dirty copies that its dies hold of blocks of other packages go home
(18 R336; 19 R357; log entry 5). -/
def execPwb (g : BitVec 3) (s : State) : Out :=
  runCore (.pwb g) s (fun _ s =>
    if !(me s).outs.isEmpty then .wait s
    else
      match partOf s s.cur.pos with
      | none => .done s
      | some p =>
        let bs := heldBlocks s (ownsKey s p)
        if !bs.all (blockQuiet s) then .wait s
        else
          afterBanks s (fun _ key => ownsKey s p key) fun s1 =>
            let w := slotWho s1 s1.cur.pos s1.cur.slot
            let far := fun (b : Nat) => !homedHere s1 (16 * b)
            let mine := heldBlocks s1 (ownsKey s1 p)
            let r := bulkTurn s1 w (blockMsg 0) (shareMessages s1 w far ++ recallMessages s1 w (mine.flatMap blockLines))
            if !r.2 then .wait r.1
            else
              let s2 := mine.foldl writeBackBlock (shareFar r.1 far)
              if mine.all (blockClean s2) then .done s2 else .wait s2)

end Sys2Proof.Machine
end

