-- ==== Sys2Proof/Machine/Image.lean ====
section
/-!
DEFINITION. The reads of a berth sequencer, configuration images and the loader checks (02 R32, R33, R36; 03 R62, R68; 08 R187, R188; 13 R288; 20 R369).
-/
namespace Sys2Proof.Machine

open Sys2Proof

/-! ### Reads of the sequencer (02 R33, R36) -/

/-- What the sequencer's reading answers: `bad` names the cause of R36 and the 64-byte unit that it was met in. -/
inductive SeqAns (α : Type) where
  | ok (s : State) (x : α)
  | wait (s : State)
  | held (s : State) (va : Nat) (migrating write : Bool)
  | bad (s : State) (cause va : Nat)

/-- Go on with what has been read. -/
def SeqAns.bind {α β : Type} (a : SeqAns α) (f : State → α → SeqAns β) : SeqAns β :=
  match a with
  | .ok s x => f s x
  | .wait s => .wait s
  | .held s va m w => .held s va m w
  | .bad s c va => .bad s c va

/-- The cause of a sequencer or scheduler read that fails (02 R36; 19 R425). -/
def lossCause (why : Bad) : Nat :=
  match why with
  | .failed => cSEALTAG
  | .broken => cCOHLOST
  | _ => cACCESS

/-- Bytes of global memory read by an agent of the hardware in pieces that lie within 64-byte units, `n` pieces at most; each is read once (19 R350). -/
def seqRead (w : Who) : Nat → State → Nat → Nat → List Byte → SeqAns (List Byte)
  | 0, s, _, _, acc => .ok s acc
  | n + 1, s, va, len, acc =>
    let k := min len (64 - va % 64)
    if len = 0 then .ok s acc
    else if !isGlobal (BitVec.ofNat 64 va) then .bad s cACCESS (va / 64 * 64)
    else
      match accessOnce s w va k .load readOnly with
      | .ok s1 v p => if p then .bad s1 cPOISON (va / 64 * 64) else seqRead w n s1 (va + k) (len - k) (acc ++ bytesLE k v)
      | .wait s1 => .wait s1
      | .held s1 m => .held s1 va m false
      | .bad s1 why => .bad s1 (lossCause why) (va / 64 * 64)

/-- `len` bytes from an address. -/
def seqBytes (s : State) (w : Who) (va len : Nat) : SeqAns (List Byte) := seqRead w (len / 64 + 2) s va len []

/-- What the reading of a berth sequencer leads to: it goes on with the berth and what it has read, waits, is withheld, or meets a cause (02 R33, R36). -/
def seqStop {α : Type} (a : SeqAns α) (w : Who) (b : Berth) (bad : State → Berth → Nat → Nat → State)
    (f : State → Berth → α → State) : State :=
  let free := fun s => if b.held.isSome then leaveReplay s w.quay w.ag else s
  match a with
  | .ok s x => f (free s) { b with held := none } x
  | .wait s => s
  | .held s va m wr => let x := withhold s w va m wr b.held; updBerth x.1 { b with held := some x.2 }
  | .bad s c va => bad (free s) { b with held := none } c va

/-- A field of some bytes. -/
def le (bs : List Byte) (off n : Nat) : Nat := ofBytesLE ((bs.drop off).take n)

/-- Bytes of zero. -/
def zeros (bs : List Byte) (off n : Nat) : Bool := ((bs.drop off).take n).all (· == 0)

/-! ### Records of an image (08 Tables 8-15 to 8-17) -/

/-- A record of an image, of a tile (`quay = false`) or a quay: its place, code, route program, tables. -/
structure ImgRec where
  quay : Bool
  x : Nat
  y : Nat
  cload : Nat
  code : List Byte
  centry : Nat
  rload : Nat
  rcode : List Byte
  rentry : Nat
  rtab : List (BitVec 32)
  gens : List GenDesc
  ranges : List RangeEnt

/-- The table entries of a record. -/
def rtabOf (h : List Byte) : List (BitVec 32) := (List.range 16).map (fun i => BitVec.ofNat 32 (le h (0x20 + 4 * i) 4))

/-- A generator descriptor from its 32 bytes (03 Table 3-4). -/
def genOf (b : List Byte) : GenDesc :=
  let ctl := le b 0x1C 4
  { base := le b 0 8, c0 := le b 8 2, c1 := le b 10 2, c2 := le b 12 2, c3 := le b 14 2
    s1 := (BitVec.ofNat 32 (le b 0x10 4)).toInt, s2 := (BitVec.ofNat 32 (le b 0x14 4)).toInt, s3 := (BitVec.ofNat 32 (le b 0x18 4)).toInt
    rng := ctl / 16 % 16, oc := BitVec.ofNat 3 (ctl / 2), en := ctl % 2 == 1 }

/-- The limits of 03 R68: of CTL always, of the rest where EN is 1. -/
def genOk (b : List Byte) : Bool :=
  let d := genOf b
  le b 0x1D 3 == 0 &&
    (!d.en ||
      (d.base % 64 == 0 && decide (1 ≤ d.c0 ∧ 1 ≤ d.c1 ∧ 1 ≤ d.c2 ∧ 1 ≤ d.c3) && d.s1 % 64 == 0 && d.s2 % 64 == 0 && d.s3 % 64 == 0))

/-- A stream range entry from its 32 bytes (20 Table 20-4). -/
def rangeOf (b : List Byte) : RangeEnt :=
  let ctl := le b 0x18 4
  { vbase := le b 0 8, len := le b 8 8, pbase := le b 0x10 8, key := BitVec.ofNat 7 (ctl / 256), r := ctl / 2 % 2 == 1, v := ctl % 2 == 1 }

/-- The limits of a valid entry (20 R369; 22 R401). -/
def rangeOk (s : State) (part : Nat) (b : List Byte) : Bool :=
  let e := rangeOf b
  let ctl := le b 0x18 4
  !e.v ||
    (e.vbase % 65536 == 0 && e.len % 65536 == 0 && e.pbase % 65536 == 0 && e.len != 0 && decide (e.vbase + e.len ≤ Config.localBase) &&
      populated s (some part) e.pbase && populated s (some part) (e.pbase + e.len - 1) && e.pbase / 2 ^ 36 == (e.pbase + e.len - 1) / 2 ^ 36 &&
      ctl / 2 ^ 15 == 0 && ctl / 4 % 64 == 0 && le b 0x1C 4 == 0 && mayUseKey s (some part) e.key.toNat)

/-- Valid entries of one quay do not overlap in VA. -/
def rangesApart : List RangeEnt → Bool
  | [] => true
  | e :: es => es.all (fun f => !e.v || !f.v || decide (e.vbase + e.len ≤ f.vbase) || decide (f.vbase + f.len ≤ e.vbase)) && rangesApart es

/-- A table entry is well formed at a position of a span (13 R288; 03 R62). -/
def entryOk (r : Rect) (pos : Nat) (e : BitVec 32) : Bool :=
  let fs := (List.range 4).map (fun i => (fieldOut e i, fieldIn e i))
  let routes := fs.filter (fun f => decide (f.1 < 15) && decide (f.2 < 15))
  let pairs := fs.filter (fun f => decide (f.1 < 15) && f.2 == 15)
  fs.all (fun f => !(f.1 == 15 && decide (f.2 < 15))) &&
    decide ((routes.map (·.1)).Nodup) && decide ((pairs.map (·.1)).Nodup) &&
    routes.all (fun f =>
      (dataOutput (16 + f.1) || controlInput pos f.2) && inputExists pos f.2 &&
        (decide (12 ≤ f.2) || (match linkPos pos (f.2 / 3) with | some q => r.spans q | none => false)) &&
        (if f.1 < 12 then
          (match linkPos pos (f.1 / 3) with | some q => r.spans q | none => false) && !(f.1 % 3 == 1 && boundarySide pos (f.1 / 3))
         else !isQuay pos)) &&
    pairs.all (fun p => dataOutput (16 + p.1) && routes.any (fun f => f.1 == p.1 && controlInput pos f.2))

/-- The position that a record names in a rectangle, where it names one. -/
def ImgRec.pos? (r : Rect) (x : ImgRec) : Option Nat :=
  if x.quay then
    if x.x < r.w then ((quayRows r)[x.y]?).map (fun y => mkPos (r.tx + x.x) y) else none
  else if x.x < r.w ∧ x.y < r.h then some (gridPos (r.tx + x.x) (r.ty + x.y))
  else none

/-- The head of a record: 192 bytes. Its lengths in bytes: core words, switch words, range entries, the record. -/
def headLens (quay : Bool) (h : List Byte) : Nat × Nat × Nat × Nat :=
  if quay then (0, 2 * le h 6 2, 32 * le h 0x0A 2, le h 0x0C 4) else (4 * le h 6 2, 2 * le h 0x0C 2, 0, le h 0x10 4)

/-- The checks of a record's head (08 R188, checks 1, 4 and 5). -/
def headOk (quay : Bool) (h : List Byte) : Bool :=
  let l := headLens quay h
  let rload := if quay then le h 4 2 else le h 0x0A 2
  let rentry := if quay then le h 8 2 else le h 0x0E 2
  let rlen := l.2.1 / 2
  l.2.2.2 % 64 == 0 && decide (192 + l.1 + l.2.1 + l.2.2.1 ≤ l.2.2.2) &&
    decide (rload + rlen ≤ 8192 ∧ rload ≤ rentry ∧ rentry < rload + rlen) &&
    (if quay then zeros h 0x10 16 && zeros h 0xA0 32 && decide (le h 0x0A 2 ≤ 16)
     else
      zeros h 0x14 12 && zeros h 0x60 96 &&
        decide (1 ≤ le h 6 2 ∧ le h 4 2 + le h 6 2 ≤ 8192 ∧ le h 4 2 ≤ le h 8 2 ∧ le h 8 2 < le h 4 2 + le h 6 2))

/-- A record from its head and the bytes after it. -/
def recOf (quay : Bool) (h body : List Byte) : ImgRec :=
  let l := headLens quay h
  { quay := quay, x := le h 0 2, y := le h 2 2
    cload := if quay then 0 else le h 4 2
    code := body.take l.1
    centry := if quay then 0 else le h 8 2
    rload := if quay then le h 4 2 else le h 0x0A 2
    rcode := (body.drop l.1).take l.2.1
    rentry := if quay then le h 8 2 else le h 0x0E 2
    rtab := rtabOf h
    gens := if quay then [genOf ((h.drop 0x60).take 32), genOf ((h.drop 0x80).take 32)] else []
    ranges := if quay then (List.range (l.2.2.1 / 32)).map (fun i => rangeOf ((body.drop (l.2.1 + 32 * i)).take 32)) else [] }

/-- The checks of a record that need its place, its tables and its body (08 R188, checks 3, 6 and 7). -/
def recOk (s : State) (b : Berth) (quay : Bool) (h body : List Byte) : Bool :=
  let x := recOf quay h body
  let l := headLens quay h
  match x.pos? b.rect with
  | none => false
  | some pos =>
    x.rtab.all (entryOk b.rect pos) &&
      (!quay ||
        (genOk ((h.drop 0x60).take 32) && genOk ((h.drop 0x80).take 32) && rangesApart x.ranges &&
          (List.range (l.2.2.1 / 32)).all (fun i => rangeOk s b.part ((body.drop (l.2.1 + 32 * i)).take 32))))

/-- The records of a run, read and checked one after another; none is read past `lim`. The run's end comes with them. -/
def readRecs (b : Berth) (w : Who) (base lim : Nat) (quay : Bool) : Nat → State → Nat → List ImgRec → SeqAns (List ImgRec × Nat)
  | 0, s, off, acc => .ok s (acc, off)
  | n + 1, s, off, acc =>
    if lim < off + 192 then .bad s cACCESS (base + off)
    else
      (seqBytes s w (base + off) 192).bind fun s1 h =>
        let l := headLens quay h
        if !headOk quay h || decide (lim < off + l.2.2.2) then .bad s1 cACCESS (base + off)
        else
          (seqBytes s1 w (base + off + 192) (l.1 + l.2.1 + l.2.2.1)).bind fun s2 body =>
            if recOk s2 b quay h body then readRecs b w base lim quay n s2 (off + l.2.2.2) (acc ++ [recOf quay h body]) else .bad s2 cACCESS (base + off)

/-- Every position of a list has exactly one record. -/
def eachOnce (r : Rect) (ps : List Nat) (xs : List ImgRec) : Bool :=
  decide (xs.length = ps.length) && ps.all (fun p => (xs.filter (fun x => x.pos? r == some p)).length == 1)

/-- The image at an address, read and checked (08 R188). -/
def readImage (s : State) (b : Berth) (w : Who) (va : Nat) : SeqAns (List ImgRec) :=
  (seqBytes s w va 64).bind fun s1 h =>
    let nt := le h 0x0C 2
    let nq := le h 0x0E 2
    let toff := le h 0x10 8
    let qoff := le h 0x18 8
    let len := le h 0x20 8
    let r := b.rect
    if le h 0 4 != 0x44514349 || le h 4 2 != 1 || !zeros h 6 2 || !zeros h 0x28 24 || toff % 64 != 0 || qoff % 64 != 0 || decide (toff < 64) ||
        decide (qoff < 64) || le h 8 2 != b.w || le h 0x0A 2 != b.h || nt != b.w * b.h || nq != b.w * (quayRows r).length then .bad s1 cACCESS va
    else
      (readRecs b w va len false nt s1 toff []).bind fun s2 ts =>
        (readRecs b w va len true nq s2 qoff []).bind fun s3 qs =>
          if (decide (ts.2 ≤ qoff) || decide (qs.2 ≤ toff)) && len == max ts.2 qs.2 && eachOnce r r.tiles ts.1 && eachOnce r r.quays qs.1 then
            .ok s3 (ts.1 ++ qs.1)
          else .bad s3 cACCESS va

/-! ### Installing an image (02 R33; 08 R189; 19 R357) -/

/-- One record goes into a resident configuration at its position. -/
def installRec (r : Rect) (conf : Nat) (s : State) (x : ImgRec) : State :=
  match x.pos? r with
  | none => s
  | some pos =>
    let w := switchAt s pos
    let c : Conf :=
      { installed := true, centry := BitVec.ofNat 13 x.centry, rentry := BitVec.ofNat 13 x.rentry
        rtab := Vector.ofFn (fun i => x.rtab.getD i.val 0xFFFFFFFF), gens := x.gens, ranges := x.ranges }
    let s1 := setSwitch s pos { w with rmem := memSplice w.rmem (2 * x.rload) x.rcode, confs := vset w.confs conf c }
    if x.quay then s1
    else
      let t := tileAt s1 pos
      setTile s1 pos { t with imem := memSplice t.imem (4 * x.cload) x.code }

/-- A whole image goes into a resident configuration throughout a berth. -/
def installImage (s : State) (b : Berth) (conf : Nat) (xs : List ImgRec) : State := xs.foldl (installRec b.rect conf) s

/-- A slot whose code at some words is written anew: undefined for a task that runs, and well defined for the chart (08 R189). -/
def tearSlot (x : Torn) (t : Slot) : Slot :=
  if t.isTask && t.phase != .idle then { t with torn := x :: t.torn }
  else { t with torn := t.torn.filter (fun y => !(decide (x.start ≤ y.start) && decide (y.start + y.len ≤ x.start + x.len))) }

/-- The tasks of a tile whose code a record overwrites go on with undefined code. -/
def tearRec (r : Rect) (s : State) (x : ImgRec) : State :=
  match (if x.quay then none else x.pos? r) with
  | none => s
  | some pos =>
    let n := x.code.length / 4
    let t := tileAt s pos
    { setTile s pos { t with slots := t.slots.map (tearSlot ⟨x.cload, n, s.fresh⟩) } with fresh := s.fresh + n }

/-- The tasks of a berth's tiles whose code an image overwrites. -/
def tearTasks (s : State) (b : Berth) (xs : List ImgRec) : State := xs.foldl (tearRec b.rect) s

/-- What the store of a unit leads to; one that is refused is lost (log entry 104). -/
def written (a : MemAns) (va : Nat) : SeqAns Unit :=
  match a with
  | .ok s _ _ => .ok s ()
  | .bad s _ => .ok s ()
  | .wait s => .wait s
  | .held s m => .held s va m true

/-- One unit of a held bank goes into its record, on behalf of a berth; after the last the bank is released (19 R357). -/
def copyBank (s : State) (b : Berth) (h : HeldBank) : State :=
  match sblkTurn s h.part false with
  | some s1 => s1
  | none =>
  let w := bankWho s h b.budget.toNat (.berth b.id)
  match bankUnit (tileAt s h.pos) b.cap with
  | none => updBerth (releaseBank s h) { b with cap := 0 }
  | some (off, v) =>
    seqStop (written (storeUnit w.1 w.2 (h.addr + off) v) (h.addr + off)) w.2 b (fun s b _ _ => updBerth s b)
      fun s1 b1 _ => updBerth s1 { b1 with cap := b1.cap + 1 }

end Sys2Proof.Machine
end

