-- ==== Sys2Proof/Machine/Charts.lean ====
section
/-!
DEFINITION. Charts: the steps of a berth sequencer, address generators and the quiescence detector (02 R29 to R41, R53 to R55; 03 R66 to R70).
-/
namespace Sys2Proof.Machine

open Sys2Proof

/-! ### Fields of a launch record (12 Table 12-13) -/

/-- WIDF of the launched work. -/
def recWidf (l : Mem) : Word := BitVec.ofNat 64 (packFrom 6 (fun i => memRead l (0x038 + i) 1 % 64) 6 0)

/-- Base and extent of field `f`. -/
def recBase (l : Mem) (f : Nat) : Nat := memRead l (0x040 + 8 * f) 8
def recExt (l : Mem) (f : Nat) : Nat := memRead l (0x070 + 8 * f) 8

/-- The first identifier of the launched work (02 R41). -/
def recBases (l : Mem) : Word := widBases (recWidf l) (recBase l)

/-! ### Berths -/

/-- The berth with a number. -/
def berthOf (s : State) (id : Nat) : Option Berth := s.berths.find? (fun b => b.id == id)

/-- A tile has a task in a slot, in its queue or in its spill region. -/
def tileBusy (t : Tile) : Bool :=
  !t.runq.isEmpty || !t.spill.isEmpty || t.heldMsg.isSome || !t.msgOut.isEmpty || t.slots.toList.any (fun x => x.isTask)

/-- A tile of a chart that ends: slot 0 is IDLE, and the tile stays in the domain only for tasks that still run (02 R37). -/
def vacateTile (t : Tile) (keep : Bool) : Tile :=
  { t with
    slots := vset t.slots 0 (if (vget Slot.reset t.slots 0).isTask then vget Slot.reset t.slots 0 else (vget Slot.reset t.slots 0).ended)
    berth := none
    dom := if keep then t.dom else none }

/-- A switch of a chart that ends: nothing runs and its buffers are empty. -/
def vacateSwitch (w : Switch) : Switch :=
  { w with phase := .idle, flt := false, rem := 0, tab := 0, bufs := Vector.replicate 18 [], reserved := Vector.replicate 3 [], confs := Vector.replicate 4 Conf.reset }

/-- A quay whose generators have ended: nothing of them is withheld. -/
def vacateQuay (pos : Nat) (q : Quay) : Quay :=
  { q with
    gens := Vector.replicate 2 Gen.reset
    replay := q.replay.filter (fun ag => match ag with | .gen p _ => p != pos | _ => true) }

/-- A member leaves the collective it is in; one that has no result yet is lost to the others (12 R281). -/
def leaveColl (s : State) (a : CollAgent) : State :=
  match s.colls.find? (fun m => m.agent == a) with
  | none => s
  | some m => dropMember (if m.res.isNone then loseMember s m.part m.group else s) m

/-- Agents that make no further access keep no place: in replay queues, hawsers and comparators, and nothing of what they have read. -/
def giveUp (s : State) (mine : Agent → Bool) : State :=
  let ls := s.dies.toList.flatMap (fun d => (d.cmp.filter (fun r => r.kind.atHome && mine r.agent)).map (·.line))
  ls.foldl releaseNext
    { s with
      quays := s.quays.map (fun e => (e.1, { e.2 with replay := e.2.replay.filter (fun a => !mine a), walks := leaveWalks mine e.2.walks }))
      hawsers := s.hawsers.filter (fun x => match x with | .beat _ _ _ a _ _ => !mine a | .marker .. => true)
      bills := s.bills.filter (fun b => !mine b.agent)
      fetched := s.fetched.filter (fun f => !mine f.agent)
      dies := s.dies.map (fun d => { d with cmp := d.cmp.filter (fun r => !(r.kind.atHome && mine r.agent)) }) }

/-- The sequencer of a berth gives up what it does: its reads, what it has withheld, and its part in a collective. -/
def stopSequencer (s : State) (b : Berth) : State := giveUp (endBerthOp (leaveColl s (.berth b.id)) b.id) (· == .berth b.id)

/-- Failed answers that slot 0 of a chart's tiles has not taken at an instruction boundary when the chart ends go to the supervisor of the partition, as those of a
slot that drains (12 R424; log entry 117). -/
def tellAnswers (s : State) (b : Berth) : State :=
  b.rect.tiles.foldl (fun s p =>
    let x := slotAt s p 0
    if x.isChart then x.answers.foldl (fun s d => raiseEvent s b.part d.cause d.tval) s else s) s

/-- The berth is free again; tasks of its domain that still run keep theirs (02 R37; log entry 18). -/
def freeBerth (s0 : State) (b : Berth) : State :=
  let s := tellAnswers s0 b
  let ts := b.rect.tiles
  let busy := ts.any (fun p => tileBusy (tileAt s p)) || s.net.any (fun n => n.msg.dom == b.id)
  let s1 := ts.foldl (fun s p => setTile s p (vacateTile (tileAt s p) busy)) (stopSequencer s b)
  let s2 := b.rect.positions.foldl (fun s p => setSwitch s p (vacateSwitch (switchAt s p))) s1
  let s3 := b.rect.quays.foldl (fun s p => setQuay s p (vacateQuay p (quayAt s p))) s2
  let d : Domain :=
    { id := b.id, part := b.part, tx := b.tx, ty := b.ty, w := b.w, h := b.h, budget := b.budget, lrec := b.lrec, boot := b.boot, dispatched := true
      held := none, dead := true, cut := false, left := 0, wid := 0 }
  { s3 with
    berths := s3.berths.filter (fun x => x.id != b.id)
    domains := if busy then s3.domains ++ [d] else s3.domains }

/-- An arrive on DONE by an agent of the hardware: made, waiting, withheld, or, where it cannot be applied, its cause instead (02 R37; 19 R348). -/
def arriveDone (s : State) (w : Who) (p : Nat) (done : Word) : SeqAns Unit :=
  if done = 0 then .ok s ()
  else
    match memAccess s w done.toNat 16 .atomic (barUpd barArrive false) with
    | .ok s1 _ _ => .ok s1 ()
    | .wait s1 => .wait s1
    | .held s1 m => .held s1 done.toNat m true
    | .bad s1 why => .ok (raiseEvent s1 p why.cause done) ()

/-! ### Step entries (02 Table 2-4) -/

/-- The address of the current entry. -/
def entryAddr (b : Berth) : Nat := memRead b.lrec 0x010 8 + 32 * b.stepIdx

/-- A step entry. -/
structure StepEnt where
  kind : Nat
  conf : Nat
  wrst : Bool
  count : Nat
  addr : Nat
  deriving DecidableEq, Repr

/-- An entry from its 32 bytes; none where KIND is not listed. Reserved bits are ignored (00 R7; 02 R32). -/
def stepEnt (bs : List Byte) : Option StepEnt :=
  let kind := le bs 0 1
  if kind == 1 || kind == 2 || kind == 3 || kind == 15 then
    some { kind := kind, conf := le bs 1 1 % 4, wrst := le bs 2 1 % 2 == 1, count := le bs 4 4, addr := le bs 8 8 }
  else none

/-- A malformed entry ends the chart; its berth is freed and one cause raised with the entry's address (02 R36). -/
def endMalformed (s : State) (b : Berth) (cause : Nat) : State :=
  raiseEvent (freeBerth s b) b.part cause (BitVec.ofNat 64 (entryAddr b))

/-- As `endMalformed`, wherever the cause was met. -/
def malformed (s : State) (b : Berth) (cause _va : Nat) : State := endMalformed s b cause

/-- Read the current entry of a berth that is about to begin a step, once, and act on it where it is of the kind a row names; an entry of no kind ends the
chart (02 R33). -/
def withEntry (s : State) (id kind : Nat) (f : State → Berth → StepEnt → State) : State :=
  match berthOf s id with
  | none => s
  | some b =>
    if b.seq ≠ .fetch ∨ withheld b.held ∨ b.saveT.isSome ∨ b.evict then s
    else
      seqStop (seqBytes s (berthWho s b) (entryAddr b) 32) (berthWho s b) b malformed fun s1 b1 bs =>
        match stepEnt bs with
        | none => endMalformed s1 b1 cACCESS
        | some e => if e.kind = kind then f (updBerth s1 b1) b1 e else updBerth s1 b1

/-- The row that the current entry of a berth asks for; INSTALL where it cannot be told yet. -/
def entryRow (s : State) (b : Berth) : Instr :=
  match seqBytes s (berthWho s b) (entryAddr b) 32 with
  | .ok _ bs =>
    (match stepEnt bs with
     | some e => if e.kind = 2 then .stepSelect else if e.kind = 3 then .stepCollective else if e.kind = 15 then .stepEnd else .stepInstall
     | none => .stepInstall)
  | _ => .stepInstall

/-! ### The start of a step (02 R33; 03 R69; 13 R286) -/

/-- Slot 0 of a tile at the start of a step. -/
def startTile (lrec : Mem) (wrst : Bool) (entry : BitVec 13) (t : Tile) : Tile :=
  let x := vget Slot.reset t.slots 0
  { t with
    coit := 0
    centry := entry
    slots := vset t.slots 0 { x with pc := entry.setWidth 14, phase := .running, wid := if wrst then recBases lrec else x.wid } }

/-- A switch at the start of a step. -/
def startSwitch (conf : Nat) (w : Switch) : Switch :=
  let c := vget Conf.reset w.confs conf
  { w with
    pc := c.rentry.setWidth 14, c := Vector.replicate 4 0, iter := 0, rem := 0, tab := 0, phase := .running, rentry := c.rentry, rtab := c.rtab }

/-- A generator at the start of a step. -/
def startGen (b : Berth) (d : GenDesc) : Gen :=
  if d.en then
    { desc := d, ended := false, blocked := false, held := none, issued := 0, arrived := [], pushed := 0, asid := b.asid, root := b.root }
  else { Gen.reset with desc := d }

/-- Every slot 0, switch and generator of a berth begins a step of a resident configuration. -/
def beginStep (s : State) (b : Berth) (e : StepEnt) : State :=
  let r := b.rect
  let s1 := r.tiles.foldl (fun s p =>
    setTile s p (startTile b.lrec e.wrst (vget Conf.reset (switchAt s p).confs e.conf).centry (tileAt s p))) s
  let s2 := r.positions.foldl (fun s p => setSwitch s p (startSwitch e.conf (switchAt s p))) s1
  let s3 := r.quays.foldl (fun s p =>
    let gs := (vget Conf.reset (switchAt s p).confs e.conf).gens
    setQuay s p { quayAt s p with gens := Vector.ofFn (fun i => startGen b (gs.getD i.val GenDesc.none)) }) s2
  updBerth (forget s3 (.berth b.id)) { b with seq := .step, conf := e.conf, count := e.count, still := 0, told := false, cap := 0 }

/-- STEP_INSTALL: the image is read and checked, the banks that saved charts hold on the berth's tiles go into their records, the image goes into its resident
configuration, and the step begins (02 R33, R36; 19 R357). -/
def execStepInstall (s : State) : Out := with1 s fun id =>
  .next (withEntry s id 1 fun s1 b e =>
    if e.count = 0 ∨ e.addr % 64 ≠ 0 then endMalformed s1 b cACCESS
    else
      seqStop (readImage s1 b (berthWho s1 b) e.addr) (berthWho s1 b) b malformed fun s2 b1 xs =>
        match heldBank s2 b1.rect.tiles with
        | some h => copyBank s2 b1 h
        | none =>
          beginStep (installImage (tearTasks s2 b1 xs) b1 e.conf xs)
            { b1 with imgs := vset b1.imgs e.conf (BitVec.ofNat 64 e.addr), installed := vset b1.installed e.conf true } e)

/-- STEP_SELECT (02 R33, R36). -/
def execStepSelect (s : State) : Out := with1 s fun id =>
  .next (withEntry s id 2 fun s1 b e =>
    if e.count = 0 ∨ vget false b.installed e.conf = false then endMalformed s1 b cACCESS else beginStep s1 b e)

/-! ### COLLECTIVE steps (02 R33; 03 R66; 12 R281) -/

/-- A switch takes its shadow configuration: it saves program counter and counters, and begins at the shadow entry point with its counters at zero. -/
def enterShadow (w : Switch) : Switch :=
  { w with spc := w.pc, sc := w.c, pc := w.shEntry.setWidth 14, c := Vector.replicate 4 0, tab := 1, rem := 0, phase := .running }

/-- A switch returns to its primary table, program counter and counters. -/
def leaveShadow (w : Switch) : Switch := { w with pc := w.spc, c := w.sc, tab := 0, rem := 0, phase := .boundary }

/-- A change to every switch of a berth. -/
def mapSwitches (s : State) (b : Berth) (f : Switch → Switch) : State :=
  b.rect.positions.foldl (fun s p => setSwitch s p (f (switchAt s p))) s

/-- The collective of a COLLECTIVE step has ended at a berth: the step is complete; after a negative status, or where a switch of the span has faulted, it does
not complete (12 R281; 13 R294). -/
def collStepDone (desc : Word) (s : State) (id : Nat) (status : Int) (cause : Option (Nat × Word)) : State :=
  match berthOf s id with
  | none => s
  | some b =>
    if status < 0 then raiseEvent (updBerth s { b with seq := .stuck }) b.part (stepCause status cause) desc
    else if b.rect.positions.any (fun p => (switchAt s p).flt) then updBerth s { b with seq := .stuck }
    else updBerth (mapSwitches s b leaveShadow) { b with seq := .fetch, stepIdx := b.stepIdx + 1, held := none }

/-- The collective of a COLLECTIVE step is an operation as if slot 0 of the origin tile had issued it, with its lock-table entries but without a token (02 R33). -/
def startBerthOp (s : State) (b : Berth) (d : CollDesc) (kind : OpKind) : State :=
  let pos := gridPos b.tx b.ty
  let t := tileAt s pos
  let id := t.nextOp
  let o : AsyncOp :=
    { id := id, slot := 0, tok := 0, kind := kind, cls := BitVec.ofNat 3 d.ctl, scope := 5, record := none, owed := 0, landed := 0, progress := 0
      discarded := false, skipped := 0, told := false, clean := [], started := true, finished := false, asid := b.asid, root := b.root, sup := false
      held := none, before := (vget Slot.reset t.slots 0).nextId, ret := (t.reta, t.retb) }
  setTile s pos
    { t with
      ops := t.ops ++ [o]
      nextOp := id + 1
      lock := t.lock ++ kind.ranges.map (fun r => { start := r.start, len := r.len, dest := r.dest, slot := 0, tok := 0, op := id }) }

/-- WID of slot 0 of every tile is set to the bases, as at the start of every step whose WRST bit is 1 (02 R41). -/
def resetWids (s : State) (b : Berth) : State :=
  b.rect.tiles.foldl (fun s p =>
    let t := tileAt s p
    setTile s p { t with slots := vset t.slots 0 { vget Slot.reset t.slots 0 with wid := recBases b.lrec } }) s

/-- The collective of a berth begins once its descriptor has been read and passes its tests, and the lock table of the origin tile has room; on a broken group it
ends at once with −5. The identifiers are set to the bases where the entry's WRST says so. -/
def enterColl (s : State) (b : Berth) (wrst : Bool) (addr : Nat) (x : Nat) : State :=
  let pos := gridPos b.tx b.ty
  match collTests s pos (BitVec.ofNat 64 addr) x with
  | .error _ => endMalformed s b cACCESS
  | .ok (d, p, g, rank) =>
    let kind : OpKind := .coll d addr (nextSeq g rank) rank g.members.length
    if !g.broken && !lockRoom (tileAt s pos) kind then updBerth s b
    else
      let s0 := forget s (.berth b.id)
      let s1 := updBerth (mapSwitches (if wrst then resetWids s0 b else s0) b enterShadow) { b with seq := .collective, desc := addr }
      if g.broken then collStepDone (BitVec.ofNat 64 addr) s1 b.id (-5) none
      else
        joinColl (startBerthOp (takeSeq s1 p d.group rank) b d kind)
          { part := p, group := d.group, seq := nextSeq g rank, rank := rank, desc := d, agent := .berth b.id, res := none }

/-- The descriptor of a COLLECTIVE step lies in global memory or in the scratch of the origin tile. -/
def descBytes (s : State) (b : Berth) (addr : Nat) : SeqAns (List Byte) :=
  let w := berthWho s b
  if isGlobal (BitVec.ofNat 64 addr) then seqBytes s w addr 64
  else
    match rangeKindAt s w.pos (BitVec.ofNat 64 addr) 64, accessOnce s w addr 64 .load readOnly with
    | .own, .ok s1 v p => if p then .bad s1 cPOISON addr else .ok s1 (bytesLE 64 v)
    | .own, .wait s1 => .wait s1
    | _, _ => .bad s cACCESS addr

/-- STEP_COLLECTIVE: the collective begins, or goes on at the berth for a cycle that is charged (02 R33, R36; 19 Table 19-2, R350). -/
def execStepCollective (s : State) : Out := with1 s fun id =>
  match berthOf s id with
  | none => .next s
  | some b =>
    if b.seq = .collective then
      match s.colls.find? (fun m => m.agent == .berth id), charge s (some b.part) 4 b.budget.toNat 1 with
      | some m, some s1 => .next (runColl s1 m (collStepDone (imgAddr b)))
      | _, _ => .next s
    else
      .next (withEntry s id 3 fun s1 b e =>
        if e.addr % 64 ≠ 0 then endMalformed s1 b cACCESS
        else
          seqStop (descBytes s1 b e.addr) (berthWho s1 b) b malformed fun s2 b1 bs => enterColl s2 b1 e.wrst e.addr (ofBytesLE bs))
where imgAddr (b : Berth) : Word := BitVec.ofNat 64 b.desc

/-- STEP_END: the arrive on DONE, then the berth is freed (02 R37). -/
def execStepEnd (s : State) : Out := with1 s fun id =>
  .next (withEntry s id 15 fun s1 b _ =>
    seqStop (arriveDone s1 (berthWho s1 b) b.part (doneOf b.lrec)) (berthWho s1 b) b malformed fun s2 b1 _ => freeBerth s2 b1)

/-- Every condition of 02 R35. -/
def stepDone (s : State) (b : Berth) : Bool :=
  let r := b.rect
  r.tiles.all (fun p =>
      let t := tileAt s p
      let x := vget Slot.reset t.slots 0
      x.phase == .boundary && decide (b.count ≤ t.coit) && x.outs.isEmpty && !t.ops.any (fun o => o.slot == 0 && !o.finished)) &&
    r.positions.all (fun p =>
      let w := switchAt s p
      w.phase == .boundary && decide (b.count ≤ w.iter.toNat) && w.bufs.toList.all (·.isEmpty)) &&
    r.quays.all (fun p => (quayAt s p).gens.toList.all (·.ended))

/-- STEP_COMPLETE: the sequencer goes on to the next entry (02 R33, R35). -/
def execStepComplete (s : State) : Out := with1 s fun id =>
  match berthOf s id with
  | none => .next s
  | some b =>
    if b.seq = .step ∧ b.saveT.isNone = true ∧ b.evict = false ∧ stepDone s b = true then
      .next (updBerth s { b with seq := .fetch, stepIdx := b.stepIdx + 1, still := 0 })
    else .next s

/-! ### Generators (03 R67 to R70; 20 R370) -/

/-- Words of a generator's stream. -/
def GenDesc.total (d : GenDesc) : Nat := d.c0 * d.c1 * d.c2 * d.c3

/-- The address of word `k`. -/
def GenDesc.addr (d : GenDesc) (k : Nat) : Nat :=
  let i0 := k % max 1 d.c0
  let k1 := k / max 1 d.c0
  let i1 := k1 % max 1 d.c1
  let k2 := k1 / max 1 d.c1
  let i2 := k2 % max 1 d.c2
  let i3 := k2 / max 1 d.c2
  ((Int.ofNat (d.base + 64 * i0) + d.s1 * i1 + d.s2 * i2 + d.s3 * i3) % 2 ^ 56).toNat

/-- The range entry that translates a word: the first valid one from RNG on that holds it whole. -/
def rangeFor (es : List RangeEnt) (rng va : Nat) : Option RangeEnt :=
  ((List.range 16).map (fun i => es[(rng + i) % 16]?)).findSome? (fun e =>
    e.bind (fun e => if e.v && decide (e.vbase ≤ va ∧ va + 64 ≤ e.vbase + e.len) then some e else none))

/-- Replace a generator of a quay. -/
def setGen (s : State) (pos i : Nat) (g : Gen) : State :=
  let q := quayAt s pos
  setQuay s pos { q with gens := vset q.gens i g }

/-- The agent of a generator. -/
def genWho (b : Berth) (pos i : Nat) (g : Gen) : Who :=
  { pos := pos, slot := none, quay := pos, asid := g.asid, root := g.root, sup := false, part := some b.part, cls := b.budget.toNat
    ag := .gen pos i, oc := g.desc.oc.toNat }

/-- The read of one word: through a range entry, or through the TLB. -/
def genRead (s : State) (b : Berth) (pos i : Nat) (g : Gen) (va : Nat) : EAns :=
  let w := genWho b pos i g
  if !isGlobal (BitVec.ofNat 64 va) then .fail s
  else
    match rangeFor (vget Conf.reset (switchAt s pos).confs b.conf).ranges g.desc.rng va with
    | none => engineRead s w va 64
    | some e =>
      if !e.r then .fail s
      else
        let pa := e.pbase + (va - e.vbase)
        match physAccess s w pa 64 e.key.toNat .load readOnly with
        | .ok s1 v p => .ok s1 v p
        | .wait s1 => .wait s1
        | .held s1 m => .held s1 va m false
        | .bad s1 .access => .fail s1
        | .bad s1 why =>
          let s2 := match why with
            | .failed => sealOnce s1 w (lineOf pa)
            | .broken => nextFresh (lostOnce s1 w (lineOf pa) (Config.freeWord s1.fresh))
            | _ => s1
          .ok (nextFresh s2) (Config.freeVec s2.fresh).toNat true

/-- Reads that a generator may have outstanding. -/
def genDepth : Nat := 16

/-- GENERATOR_READ_ISSUE: the next word of the stream is read (03 R69, R70). The rule lets the outstanding reads be performed in any order; the model performs
them one at a time in stream order (log entry 100). -/
def execGeneratorReadIssue (s : State) : Out := with2 s fun pos i =>
  let g := vget Gen.reset (quayAt s pos).gens i
  match berthOfPos s pos with
  | none => .next s
  | some b =>
    if g.ended || g.blocked || withheld g.held || decide (g.desc.total ≤ g.issued) || decide (g.pushed + genDepth ≤ g.issued) then .next s
    else
      let va := g.desc.addr g.issued
      let w := genWho b pos i g
      let free := fun s => if g.held.isSome then leaveReplay s w.quay w.ag else s
      match genRead s b pos i g va with
      | .ok s1 v p =>
        .next (setGen (free s1) pos i
          { g with issued := g.issued + 1, arrived := g.arrived ++ [(g.issued, { data := BitVec.ofNat 512 v, poison := p })], held := none })
      | .wait s1 => .next s1
      | .held s1 va m wr => let x := withhold s1 w va m wr g.held; .next (setGen x.1 pos i { g with held := some x.2 })
      | .fail s1 => .next (raiseEvent (setGen (free s1) pos i { g with blocked := true, held := none }) b.part cACCESS (BitVec.ofNat 64 va))
      | .discard s1 => .next s1

/-- Words that a generator's buffer holds (03 R67). -/
def genBufSize : Nat := 4

/-- GENERATOR_PUSH: the next word in stream order enters the buffer: input 14 of generator 0, input 13 of generator 1 (03 R67, R69; 19 Table 19-2). -/
def execGeneratorPush (s : State) : Out := with2 s fun pos i =>
  let g := vget Gen.reset (quayAt s pos).gens i
  match berthOfPos s pos, g.arrived.find? (fun e => e.1 == g.pushed) with
  | some b, some e =>
    if g.blocked || decide (genBufSize ≤ (bufOf (switchAt s pos) (14 - i)).length) then .next s
    else
      match charge s (some b.part) 1 b.budget.toNat 1 with
      | none => .next s
      | some s1 =>
        let g1 := { g with pushed := g.pushed + 1, arrived := g.arrived.erase e, ended := decide (g.desc.total ≤ g.pushed + 1) }
        .next (pushBuf (setGen s1 pos i g1) pos (14 - i) e.2)
  | _, _ => .next s

/-! ### The quiescence detector (02 R53 to R55) -/

/-- A reply is outstanding to slot 0 of a tile. -/
def tileAwaits (t : Tile) : Bool :=
  let x := vget Slot.reset t.slots 0
  !x.outs.isEmpty || !x.replies.isEmpty || x.blocked.isSome || x.busy.any (·.asking) || x.fence.isSome ||
    t.ops.any (fun o => o.slot == 0 && !o.finished) || (match x.phase with | .barw .. => true | _ => false)

/-- A generator's next push waits for its budget (19 R350). -/
def pushWaits (s : State) (b : Berth) (pos i : Nat) (g : Gen) : Bool :=
  g.arrived.any (fun e => e.1 == g.pushed) && !g.blocked && decide ((bufOf (switchAt s pos) (14 - i)).length < genBufSize) &&
    (charge s (some b.part) 1 b.budget.toNat 1).isNone

/-- A reply is outstanding to a generator: a read that has been asked for, withheld or not, or an activity that waits for its budget. -/
def genAwaits (s : State) (b : Berth) (pos i : Nat) : Bool :=
  let g := vget Gen.reset (quayAt s pos).gens i
  g.held.isSome || (!g.ended && !g.blocked && decide (g.issued < g.desc.total) && decide (g.issued < g.pushed + genDepth)) || pushWaits s b pos i g

/-- Nothing has moved in a berth in this cycle and nothing is outstanding to it (02 R53). An activity whose event waits for the full queue counts as outstanding
to every berth of the partition, whatever raised it: 18 R318 does not say to which berth it counts, and this is the model's choice (log entry 111). -/
def quietNow (s : State) (b : Berth) : Bool :=
  b.seq == .step && (partAt s b.part).evWait.isEmpty && !(partAt s b.part).evHeld && !b.rect.positions.any (fun p => (switchAt s p).moved) && !b.rect.tiles.any (fun p => tileAwaits (tileAt s p)) &&
    !b.rect.quays.any (fun p => genAwaits s b p 0 || genAwaits s b p 1) && !stepDone s b

/-- The lowest empty input, else the lowest full output of a setting, as SWST. -/
def blockedRoute (s : State) (pos : Nat) (rs : List Route) : Nat :=
  match (List.range 15).find? (fun i => rs.any (fun r => r.inp == i) && (inputHead s pos i).isNone) with
  | some i => 1 + 256 * i
  | none =>
    match (List.range 31).find? (fun o => rs.any (fun r => r.out == o) && !outputRoom s pos o) with
    | some o => 2 + 256 * o
    | none => 0

/-- SWST of a switch (02 Table 2-10; 13 R294). -/
def swstOf (s : State) (pos : Nat) : Nat :=
  let w := switchAt s pos
  let needs := fun (i : BitVec 5) => if (inputHead s pos i.toNat).isNone then 1 + 256 * i.toNat else 0
  if w.flt then 0
  else if w.phase ≠ .running then 3
  else
    match decodeSwitch (memRead w.rmem (2 * w.pc.toNat) 2) with
    | .ok (.route e _) => blockedRoute s pos (routesOf (w.entry e.toNat))
    | .ok (.hold e _) => blockedRoute s pos (routesOf (w.entry e.toNat))
    | .ok (.routec e c) => if w.rem = 0 ∧ w.ctr c = 0 then 0 else blockedRoute s pos (routesOf (w.entry e.toNat))
    | .ok (.ldc _ i) => needs i
    | .ok (.bcz i _) => needs i
    | .ok (.bcnz i _) => needs i
    | .ok (.wait i) => needs i
    | .ok (.drop i _) => needs i
    | _ => 0

/-- GEN of a generator. -/
def genState (g : Gen) : Nat := if g.ended then 0 else if g.blocked || g.held.isSome then 2 else 1

/-- Write 64-byte units by an agent of the hardware, each once and none onto a Poisoned line. -/
def writeUnits (w : Who) : List Nat → State → Nat → SeqAns Unit
  | [], s, _ => .ok s ()
  | x :: xs, s, va =>
    match accessOnce s w va 64 .store (fun _ p => if p then .refuse cPOISON else .put x (fullMask 64) false) with
    | .ok s1 _ _ => writeUnits w xs s1 (va + 64)
    | .wait s1 => .wait s1
    | .held s1 m => .held s1 va m true
    | .bad s1 why => .bad s1 why.cause va

/-- QUIESCENT: once an interval has passed the snapshot taken then is written and the cause raised, once for the interval (02 R53 to R55). -/
def execQuiescent (s : State) : Out := with1 s fun id =>
  match berthOf s id with
  | none => .next s
  | some b =>
    let qtime := (partAt s b.part).qtime.toNat
    if b.told || withheld b.held || (decide (b.still < qtime) && b.snap.isEmpty) || b.seq != .step then .next s
    else
      let a := sblkRead s b.part 0x000 8
      let w := schedWho a.1 b.part (gridPos b.tx b.ty) b.budget.toNat true (.berth b.id)
      let tell := fun (s : State) (b : Berth) (v : Word) => raiseEvent (updBerth s { b with told := true, snap := [] }) b.part cQUIESCENT v
      if a.2 = 0 ∨ a.2 % 64 ≠ 0 ∨ isGlobal (BitVec.ofNat 64 a.2) = false then .next (tell w.1 b 0)
      else if b.snap.isEmpty then .next s
      else
        .next (seqStop (writeUnits w.2 b.snap w.1 a.2) w.2 b (fun s1 b1 _ _ => tell (forget s1 (.berth b1.id)) b1 0)
          fun s1 b1 _ => tell (forget s1 (.berth b1.id)) b1 (BitVec.ofNat 64 a.2))

end Sys2Proof.Machine
end

