-- ==== Sys2Proof/Machine/Launch.lean ====
section
/-!
DEFINITION. Launch records, their checks and queues: LAUNCH and the host's launch window (12 R282 to R284; 19 R341, R342; 22 R405, R406).
-/
namespace Sys2Proof.Machine

open Sys2Proof

/-! ### Checks of a launch record (12 R284) -/

/-- Bytes of a launch record. -/
def recSize : Nat := 384

/-- Sizes of the launch queues and of the record in 64-byte units. -/
def queueSize : Nat := 32

/-- Check 0: KIND, and every reserved field and bit of Table 12-13. -/
def recReserved (r : List Byte) : Bool :=
  let kind := le r 0 1
  (kind == 1 || kind == 2) && decide (le r 1 1 < 4) && decide (le r 2 1 < 16) &&
    (if kind = 1 then le r 8 8 == 0 else (BitVec.ofNat 64 (le r 8 8)) &&& ~~~0x3F007F#64 == 0 && le r 0x10 8 == 0) &&
    zeros r 0x026 2 && zeros r 0x03E 2 && zeros r 0x0A3 1 && zeros r 0x0AC 4 && zeros r 0x0BC 4 && zeros r 0x0CC 4 && zeros r 0x0D8 40 &&
    (List.range 64).all (fun i => le r (0x100 + 2 * i) 2 / 2 ^ 13 % 4 == 0)

/-- Check 1: the shape, and for a grid the tile set. -/
def recShape (r : List Byte) : Bool :=
  let w := le r 4 2
  let h := le r 6 2
  let o := le r 8 8
  decide (1 ≤ w ∧ w ≤ 128 ∧ 1 ≤ h ∧ h ≤ 64) &&
    (le r 0 1 == 1 || decide (o % 128 + w ≤ 128 ∧ o / 2 ^ 16 % 64 + h ≤ 64))

/-- Check 6: widths, bases and extents are as 02 R38 asks. -/
def recFields (r : List Byte) : Bool :=
  let wd := fun f => le r (0x038 + f) 1 % 64
  decide (((List.range 6).map wd).foldl (· + ·) 0 ≤ 64) &&
    (List.range 6).all (fun f =>
      let b := le r (0x040 + 8 * f) 8
      let e := le r (0x070 + 8 * f) 8
      decide (1 ≤ e ∧ b + e ≤ 2 ^ wd f))

/-- Check 8: valid handlers lie in the task code, and entry 0 of a grid is valid. -/
def recHandlers (r : List Byte) : Bool :=
  let lo := le r 0x020 2
  let n := le r 0x022 2
  (List.range 64).all (fun i =>
    let e := le r (0x100 + 2 * i) 2
    decide (e < 2 ^ 15) || decide (lo ≤ e % 2 ^ 13 ∧ e % 2 ^ 13 < lo + n)) &&
    (le r 0 1 != 2 || decide (2 ^ 15 ≤ le r 0x100 2))

/-- The checks of 12 R284 in order. -/
def recChecks (r : List Byte) : List Bool :=
  let tcode := le r 0x018 8
  let tlen := le r 0x022 2
  let stk := le r 0x024 2
  let nfc := le r 0x028 8
  let fx := le r 0x0A0 1 % 8
  let fy := le r 0x0A1 1 % 8
  let nwait := le r 3 1
  [ recReserved r
  , recShape r
  , le r 0 1 != 1 || (le r 0x010 8 != 0 && le r 0x010 8 % 32 == 0)
  , decide (le r 0x020 2 + tlen ≤ 8192) && tcode % 64 == 0 && (tcode != 0 || tlen == 0)
  , stk % 64 == 0 && decide (stk ≤ 0xF000)
  , (BitVec.ofNat 64 nfc) &&& ~~~0xFFB7#64 == 0 && decide (nfc % 8 ≤ 4)
  , recFields r
  , fx != 6 && fy != 6 && decide (nwait ≤ 2)
  , recHandlers r
  , (List.range (min nwait 2)).all (fun i => le r (0x0B0 + 16 * i) 8 % 16 == 0) && le r 0x0D0 8 % 16 == 0 ]

/-- The number of the first check that fails. -/
def recFault (r : List Byte) : Option Nat := (recChecks r).findIdx? (fun b => !b)

/-! ### Queues (19 R342) -/

/-- A new record enters the queue of its priority; the status of 12 R282. -/
def enqueue (s : State) (p : Nat) (r : List Byte) : State × Int :=
  match recFault r with
  | some k => (s, -2 - k)
  | none =>
    let x := partAt s p
    let q := le r 1 1 % 4
    let l := vget [] x.queues q
    if queueSize ≤ l.length then (s, -1)
    else
      let e : Launch := { lrec := cellsFrom 0 r, saved := none, boot := false, held := none }
      (setPart s p { x with queues := vset x.queues q (l ++ [e]) }, 0)

/-- A resume record enters at the oldest position of its queue, full or not. -/
def enqueueResume (s : State) (p : Nat) (lrec : Mem) (saved : Nat) : State :=
  let x := partAt s p
  let q := memRead lrec 1 1 % 4
  let e : Launch := { lrec := lrec, saved := some saved, boot := false, held := none }
  setPart s p { x with queues := vset x.queues q (e :: vget [] x.queues q) }

/-- LAUNCH: the record is read at issue, checked and queued; rd receives the status (12 R282). -/
def execLaunch (g : BitVec 3) (d a : BitVec 5) (c : BitVec 3) (s : State) : Out :=
  runCore (.launch g d a c) s (fun o s =>
    let va := o.word 0
    needClean o 0 <|
    demand (decide (va.toNat % 64 = 0)) 8 cMISALIGN va <|
    demand (isGlobal va && decide (va56 va.toNat + recSize ≤ Config.localBase)) 9 cACCESS va <|
      withUnits s va.toNat 6 c fun s1 l =>
        match l.findIdx? (·.2) with
        | some i => .trapWith s1 { row := 15, cause := cPOISON, tval := BitVec.ofNat 64 (va56 va.toNat + 64 * i) }
        | none =>
          let q := match partOf s1 s1.cur.pos with
            | some p => enqueue s1 p (unitBytes l)
            | none => (s1, -1)
          .done (setS q.1 d (ofInt 64 q.2) false))

/-! ### The launch window (19 R341; 22 R406) -/

/-- A virtual function is enabled (22 R406). -/
def vfEnabled (s : State) (vf : Nat) : Bool :=
  let x := partAt s (vf / 4)
  decide (vf < 96) && x.st != .none && decide (vf % 4 < x.nvf)

/-- The virtual function. -/
def vfAt (s : State) (vf : Nat) : Vf := tblGet Vf.reset s.vfs vf

/-- Replace a virtual function. -/
def setVf (s : State) (vf : Nat) (x : Vf) : State := { s with vfs := tblSet s.vfs vf x }

/-- A tile of a partition from which its scheduler and the host's accesses start: the first it owns. -/
def schedPos (s : State) (p : Nat) : Nat := ((List.range 9472).find? (fun q => isTilePos q && partOf s q == some p)).getD 128

/-- The window has served a write with a status. -/
def windowDone (s : State) (vf : Nat) (status : Int) : State :=
  let x := vfAt s vf
  setVf s vf { x with served := x.served + 1, status := (ofInt 64 status).setWidth 32 }

/-- The agent of a virtual function's accesses: the user view under DASID and DPTBASE (22 R406, R408). -/
def hostWho (s : State) (vf : Nat) : State × Who := schedWho s (vf / 4) (schedPos s (vf / 4)) 0 false (.host vf)

/-- An access of a function is put off with those behind it, so that they keep their order. -/
def putOff (s : State) (i : Instr) (mine : Activity → Bool) : State :=
  { s with agenda := s.agenda.filter (fun x => !mine x), deferred := s.deferred ++ .event i s.arg :: s.agenda.filter mine }

/-- A launch-window write of a function. -/
def isWindow (vf : Nat) : Activity → Bool
  | .event .launchWindowWrite (.two v _) => v == vf
  | _ => false

/-- A launch-window write is held until its withheld read is released (20 R374). -/
def holdWindow (s : State) (vf va : Nat) : State :=
  let x := vfAt s vf
  setVf s vf { x with heldWrites := x.heldWrites ++ [BitVec.ofNat 64 va] }

/-- LAUNCH_WINDOW_WRITE: as LAUNCH of class 0 under DASID and DPTBASE in the user view; a failure of the reads returns −64, and a withheld read holds
the write; it waits while a checkpoint is saved (12 R282; 19 R341; 20 R374; 22 R406; 23 R420). -/
def execLaunchWindowWrite (s : State) : Out := with2 s fun vf va =>
  let p := vf / 4
  if s.viral then .next s
  else if s.ctl.ck = 1 then .next (nextCycle s .launchWindowWrite (.two vf va))
  else if !vfEnabled s vf then .next { s with hostOut := s.hostOut ++ [.unsupported] }
  else if va % 64 ≠ 0 ∨ !isGlobal (BitVec.ofNat 64 va) ∨ Config.localBase < va56 va + recSize then .next (windowDone s vf (-64))
  else
    match sblkTurn s p false with
    | some s1 => .next (putOff s1 .launchWindowWrite (isWindow vf))
    | none =>
    let w := hostWho s vf
    let freed := fun (s : State) => forget (if (vfAt s vf).heldWrites.isEmpty then leaveReplay s w.2.quay w.2.ag else s) w.2.ag
    match seqBytes w.1 w.2 va recSize with
    | .ok s1 r => let q := enqueue (freed s1) p r; .next (windowDone q.1 vf q.2)
    | .wait s1 => .next (putOff s1 .launchWindowWrite (isWindow vf))
    | .held s1 x m wr =>
      let y := withhold (forget s1 w.2.ag) w.2 x m wr none
      .next (if y.2.retry then putOff y.1 .launchWindowWrite (isWindow vf) else holdWindow y.1 vf va)
    | .bad s1 _ _ => .next (windowDone (freed s1) vf (-64))

end Sys2Proof.Machine
end

