-- ==== Sys2Proof/Machine/Sched.lean ====
section
/-!
DEFINITION. The scheduler of a partition: selection, placement, dispatch, the start of work, the end of task grids and task overrun
(02 R29, R41, R47, R50; 19 R343 to R351, R425).
-/
namespace Sys2Proof.Machine

open Sys2Proof

/-! ### Waits (19 R344) -/

/-- The answer of the wait conditions of a record. -/
inductive WaitAns where
  | met (s : State)
  /-- not met; the physical address of the record at whose home quay the wait is registered, where it is known -/
  | notMet (s : State) (pa : Option Nat)
  /-- a read is under way -/
  | wait (s : State)
  /-- withheld on an address -/
  | held (s : State) (va : Nat) (migrating : Bool)
  | failed (s : State) (va : Word)

/-- Conditions from number `i` on, `n` of them. -/
def waitsFrom (w : Who) (r : Mem) : Nat → Nat → State → WaitAns
  | 0, _, s => .met s
  | n + 1, i, s =>
    let va := memRead r (0x0B0 + 16 * i) 8
    if !isGlobal (BitVec.ofNat 64 va) then .failed s (BitVec.ofNat 64 va)
    else
      match memAccess s w va 16 .load readOnly with
      | .ok s1 v p =>
        if p then .failed s1 (BitVec.ofNat 64 va)
        else if v % 2 ^ 32 = memRead r (0x0B8 + 16 * i) 4 then .notMet s1 (paAt s1 w va)
        else waitsFrom w r n (i + 1) s1
      | .wait s1 => .wait s1
      | .held s1 m => .held s1 va m
      | .bad s1 _ => .failed s1 (BitVec.ofNat 64 va)

/-- A slot of the partition is its event slot (18 R317). -/
def hasEventSlot (s : State) (p : Nat) : Bool :=
  s.tiles.any (fun e => partOf s e.1 == some p && e.2.slots.toList.any (fun x => x.sstatus.getLsbD 4))

/-- The agent that reads the wait records of a launch. -/
def waitWho (s : State) (p : Nat) (l : Launch) : State × Who := schedWho s p (schedPos s p) (memRead l.lrec 2 1 % 16) true (.sched p)

/-- Whether a record of a queue is eligible now: a resume record's waits have been met, and without an event slot only the boot record is. -/
def waitsMet (s : State) (p : Nat) (l : Launch) : WaitAns :=
  if withheld l.held || l.wait.isSome || (!l.boot && !hasEventSlot s p) then .notMet s l.wait
  else if l.saved.isSome then .met s
  else waitsFrom (waitWho s p l).2 l.lrec (min (memRead l.lrec 3 1) 2) 0 (waitWho s p l).1

/-! ### Placement (19 R345, R346) -/

/-- A tile is free for a partition: no berth and no task domain holds it, one that only drains among them; none of a gated die is (23 R419). -/
def tileFree (s : State) (p pos : Nat) : Bool :=
  let t := tileAt s pos
  partOf s pos == some p && !(dieAt s (dieOf pos)).gated && t.berth.isNone &&
    (match t.dom with
     | some d => !s.berths.any (fun b => b.id == d) && !s.domains.any (fun x => x.id == d)
     | none => true)

/-- A rectangle qualifies for a chart. -/
def rectFree (s : State) (p : Nat) (r : Rect) : Bool :=
  decide (r.tx + r.w ≤ 128 ∧ r.ty + r.h ≤ 64) && r.tiles.all (tileFree s p) &&
    r.quays.all (fun q => partOf s q == some p && !s.berths.any (fun b => b.rect.spans q))

/-- The lowest-numbered rectangle of a shape that qualifies. -/
def findRect (s : State) (p w h : Nat) : Option Rect :=
  ((List.range 8192).find? (fun n => rectFree s p ⟨n % 128, n / 128, w, h⟩)).map (fun n => ⟨n % 128, n / 128, w, h⟩)

/-- The tile set of a grid record. -/
def gridRect (l : Mem) : Rect := ⟨memRead l 8 1 % 128, memRead l 0x0A 1 % 64, memRead l 4 2, memRead l 6 2⟩

/-- The tiles of a rectangle become part of a domain, and of a berth where `berth` says so. -/
def assignTiles (s : State) (r : Rect) (id : Nat) (berth : Bool) : State :=
  r.tiles.foldl (fun s p => setTile s p { tileAt s p with dom := some id, berth := if berth then some id else none }) s

/-- A new berth; its work is dispatched next. A boot record that is a chart gives V and EV to the first task of its domain: slot 0 is no task (log entry 118). -/
def newBerth (s : State) (p : Nat) (l : Launch) (r : Rect) : State :=
  let id := s.nextWork
  let b : Berth :=
    { id := id, part := p, tx := r.tx, ty := r.ty, w := r.w, h := r.h, prio := memRead l.lrec 1 1 % 4, budget := BitVec.ofNat 4 (memRead l.lrec 2 1)
      lrec := l.lrec, seq := .starting, dispatched := false, stepIdx := 0, conf := 0, count := 0, imgs := Vector.replicate 4 0
      installed := Vector.replicate 4 false, asid := 0, root := 0, still := 0, told := false, saveT := none, evict := false, resume := l.saved
      held := none, desc := 0, pool := [], cap := 0, boot := l.boot }
  let s1 := assignTiles { s with berths := s.berths ++ [b], nextWork := id + 1 } r id true
  let x := partAt s1 p
  setPart s1 p { x with pendDispatch := x.pendDispatch ++ [id] }

/-- A new task domain of a grid. -/
def newDomain (s : State) (p : Nat) (l : Launch) (r : Rect) : State :=
  let id := s.nextWork
  let n := ((List.range 6).map (recExt l.lrec)).foldl (· * ·) 1
  let d : Domain :=
    { id := id, part := p, tx := r.tx, ty := r.ty, w := r.w, h := r.h, budget := BitVec.ofNat 4 (memRead l.lrec 2 1), lrec := l.lrec
      boot := l.boot, dispatched := false, held := none, dead := false, cut := false, left := n, wid := recBases l.lrec }
  let s1 := assignTiles { s with domains := s.domains ++ [d], nextWork := id + 1 } r id false
  let x := partAt s1 p
  setPart s1 p { x with pendDispatch := x.pendDispatch ++ [id] }

/-- Place: the new state where it succeeds. -/
def place (s : State) (p : Nat) (l : Launch) : Option State :=
  if memRead l.lrec 0 1 = 1 then (findRect s p (memRead l.lrec 4 2) (memRead l.lrec 6 2)).map (newBerth s p l)
  else
    let r := gridRect l.lrec
    if r.tiles.all (tileFree s p) then some (newDomain s p l r) else none

/-! ### Pre-emption saves (19 R352, R353, R355) -/

/-- A chart is being saved. -/
def Berth.saving (b : Berth) : Bool := b.saveT.isSome || b.evict

/-- Bytes that a save of a rectangle reserves in the pool of a die; the header stands first on the origin's die. -/
def poolNeed (r : Rect) (d : Nat) : Nat :=
  (if dieOf (gridPos r.tx r.ty) = d then headSize else 0) +
    ((r.positions.filter (fun q => dieOf q == d)).map (fun q => if isQuay q then quayRecSize else tileRecSize)).foldl (· + ·) 0

/-- The pool space that saves of a partition hold on a die: address and bytes. -/
def poolUsed (s : State) (p d : Nat) : List (Nat × Nat) :=
  (((partAt s p).saved.flatMap (·.pool)) ++ ((s.berths.filter (fun b => b.part == p)).flatMap (·.pool))).filterMap
    (fun x => if x.1 = d then some x.2 else none)

/-- The lowest free space of a size in a pool (log entry 19). -/
def fitIn (base len size : Nat) (used : List (Nat × Nat)) : Option Nat :=
  let starts := base :: used.map (fun u => u.1 + u.2)
  let ok := starts.filter (fun a => decide (base ≤ a ∧ a + size ≤ base + len) && used.all (fun u => decide (a + size ≤ u.1) || decide (u.1 + u.2 ≤ a)))
  match ok with
  | [] => none
  | a :: as => some (as.foldl min a)

/-- Pool space for the save of a rectangle on every die it needs; none where a pool cannot hold its part. -/
def reservePool (s : State) (p : Nat) (r : Rect) : State × Option (List (Nat × Nat × Nat)) :=
  (List.range 8).foldl (fun (acc : State × Option (List (Nat × Nat × Nat))) d =>
    let n := poolNeed r d
    if n = 0 then acc
    else
      let base := sblkRead acc.1 p (0x040 + 8 * d) 8
      let len := sblkRead base.1 p (0x080 + 8 * d) 8
      (len.1, acc.2.bind (fun l => (fitIn base.2 len.2 n (poolUsed s p d)).map (fun a => l ++ [(d, a, n)])))) (s, some [])

/-- The largest iteration count of a slot 0 or switch of a berth. -/
def topCount (s : State) (b : Berth) : Nat :=
  ((b.rect.tiles.map (fun p => (tileAt s p).coit)) ++ (b.rect.positions.map (fun p => (switchAt s p).iter.toNat))).foldl max 0

/-- A save of a running chart begins, for a pre-emption or an eviction, if the pools hold its record. The answer tells whether it has begun. -/
def requestSave (s : State) (b : Berth) (evict : Bool) : State × Bool :=
  let r := reservePool s b.part b.rect
  match r.2 with
  | some pool =>
    (updBerth r.1 { b with pool := pool, cap := 0, evict := evict, saveT := if evict then none else some (min (topCount r.1 b + 1) b.count) }, true)
  | none => (r.1, false)

/-- Saves of several charts; whether each has begun. -/
def requestSaves (s : State) : List Berth → State × Bool
  | [] => (s, true)
  | b :: bs =>
    let r := requestSave s b false
    let q := requestSaves r.1 bs
    (q.1, r.2 && q.2)

/-- A chart that may be a victim of a record of priority `q`. -/
def mayYield (p q : Nat) (b : Berth) : Bool :=
  b.part == p && decide (b.prio < q) && !b.saving && b.dispatched && b.resume.isNone && b.seq != .ended

/-- The package without the charts that may yield to a record of priority `q`. -/
def bareOf (s : State) (p q : Nat) : State :=
  let vs := s.berths.filter (mayYield p q)
  { s with
    berths := s.berths.filter (fun b => !mayYield p q b)
    tiles := s.tiles.map (fun e => if vs.any (fun b => e.2.berth == some b.id) then (e.1, { e.2 with berth := none, dom := none }) else e) }

/-- Victims: the charts of lower priority that overlap the lowest rectangle their removal would free (19 R346). -/
def victims (s : State) (p q w h : Nat) : List Berth :=
  match findRect (bareOf s p q) p w h with
  | none => []
  | some r => (s.berths.filter (mayYield p q)).filter (fun b => b.rect.tiles.any (fun t => r.has (posX t) (gridY t)))

/-! ### One pass (19 R343) -/

/-- Remove a record of a queue. -/
def dropRecord (s : State) (p q i : Nat) : State :=
  let x := partAt s p
  setPart s p { x with queues := vset x.queues q ((vget [] x.queues q).eraseIdx i) }

/-- Replace a record of a queue. -/
def setRecord (s : State) (p q i : Nat) (l : Launch) : State :=
  let x := partAt s p
  setPart s p { x with queues := vset x.queues q ((vget [] x.queues q).set i l) }

/-- What a pass looks at. -/
def passView (s : State) (p : Nat) : PassView :=
  let x := partAt s p
  { queues := x.queues
    saves := x.saved.map (·.id)
    berths := s.berths.map (fun b => (b.id, b.saving, b.dispatched && b.resume.isNone && b.seq != .ended))
    domains := s.domains.map (·.id)
    gated := s.dies.toList.map (·.gated)
    events := hasEventSlot s p }

/-- A pass has ended without a placement: the next one is made when something has changed. -/
def passEnds (s : State) (p : Nat) : State := setPart s p { partAt s p with passed := some (passView s p) }

/-- The dies that a placement would need if no die were gated: a pass wakes them (23 R419). A chart that could be placed nowhere even so, and that no pre-emption
makes room for while they are gated, needs those of the rectangle that it would take from charts that yield. -/
def neededDies (s : State) (p q : Nat) (l : Launch) : List Nat :=
  let s1 := { s with dies := s.dies.map (fun d => { d with gated := false }) }
  let w := memRead l.lrec 4 2
  let h := memRead l.lrec 6 2
  let r :=
    if memRead l.lrec 0 1 = 1 then
      (match findRect s1 p w h with
       | some r => some r
       | none => if (victims s p q w h).isEmpty then findRect (bareOf s1 p q) p w h else none)
    else if (gridRect l.lrec).tiles.all (tileFree s1 p) then some (gridRect l.lrec)
    else none
  match r with
  | none => []
  | some r => ((r.tiles.map dieOf).eraseDups).filter (fun d => (dieAt s d).gated)

/-- Dies begin to wake. -/
def wakeDies (s : State) (ds : List Nat) : State := ds.foldl (fun s d => setDie s d { dieAt s d with waking := true }) s

/-- A record that is eligible but does not fit asks that the dies it needs wake, and for the saves of its victims, the gated tiles not being free; where the pools cannot hold a save, PREEMPT with 0 is
raised once for the record (19 R343, R353; 23 R419). -/
def passStops (s : State) (p q i : Nat) (l : Launch) : State :=
  let s0 := wakeDies s (neededDies s p q l)
  if memRead l.lrec 0 1 = 1 then
    let r := requestSaves s0 (victims s0 p q (memRead l.lrec 4 2) (memRead l.lrec 6 2))
    if r.2 || l.noPool then r.1 else raiseEvent (setRecord r.1 p q i { l with noPool := true }) p cPREEMPT 0
  else s0

/-- A pass over records (queue, index, record): the first eligible one is placed, or stops the pass; a record whose wait is still being read stops it too, so
that none passes it. -/
def passOver (p : Nat) : List (Nat × Nat × Launch) → State → State
  | [], s => passEnds s p
  | (q, i, l) :: rest, s =>
    let free := fun (s : State) => if l.held.isSome then leaveReplay s (waitWho s p l).2.quay (.sched p) else s
    match waitsMet s p l with
    | .notMet s1 pa =>
      if withheld l.held || l.wait.isSome then passOver p rest s1 else passOver p rest (setRecord (free s1) p q i { l with wait := pa, held := none })
    | .wait s1 => s1
    | .held s1 va m =>
      let x := withhold s1 (waitWho s1 p l).2 va m false l.held
      passOver p rest (setRecord x.1 p q i { l with held := some x.2 })
    | .failed s1 va => raiseEvent (dropRecord (free s1) p q i) p cACCESS va
    | .met s1 =>
      let l1 := { l with held := none }
      match place (free s1) p l with
      | some s2 => setRecord s2 p q i { l1 with placed := some s1.nextWork }
      | none => passEnds (passStops (setRecord (free s1) p q i l1) p q i l1) p

/-- The records of a partition in the order of a pass, without those that have been placed and wait for their dispatch. -/
def passOrder (x : Part) : List (Nat × Nat × Launch) :=
  [3, 2, 1, 0].flatMap (fun q => ((vget [] x.queues q).mapIdx (fun i l => (q, i, l))).filter (fun y => y.2.2.placed.isNone))

/-- A pass is due: a record waits, and what a pass looks at has changed since the last, or a read that was answered with a retry is re-sent. -/
def passDue (s : State) (p : Nat) : Bool :=
  !(passOrder (partAt s p)).isEmpty &&
    ((partAt s p).passed != some (passView s p) || (passOrder (partAt s p)).any (fun y => y.2.2.held.any (·.retry)))

/-- SCHEDULING_PASS: not while a save of the partition is under way (19 R354); a placement ends the pass, and the next one starts anew. -/
def execSchedulingPass (s : State) : Out := with1 s fun p =>
  let x := partAt s p
  if x.st ≠ .running ∨ (s.berths.any (fun b => b.part == p && b.saving)) = true ∨ passDue s p = false then .next s
  else .next (passOver p (passOrder x) s)

/-! ### Dispatch (19 R347, R425; 02 R42) -/

/-- Task code and handler table of a launch record go into a tile. -/
def loadTile (l : Mem) (code : List Byte) (t : Tile) : Tile :=
  { t with
    imem := memSplice t.imem (4 * memRead l 0x020 2) code
    htab := cellsFrom 0 (memRun l 0x100 128)
    stk := BitVec.ofNat 16 (memRead l 0x024 2)
    hNfc := BitVec.ofNat 64 (memRead l 0x028 8)
    hSeed := BitVec.ofNat 64 (memRead l 0x030 8)
    fBase := Vector.ofFn (fun i => BitVec.ofNat 64 (recBase l i.val))
    fExt := Vector.ofFn (fun i => BitVec.ofNat 64 (recExt l i.val)) }

/-- The rectangle and record of work that waits for its dispatch, and has not been ended. -/
def workOf (s : State) (id : Nat) : Option (Rect × Mem) :=
  match berthOf s id, s.domains.find? (fun d => d.id == id) with
  | some b, _ => if b.seq = .ended then none else some (b.rect, b.lrec)
  | none, some d => if d.dead then none else some (⟨d.tx, d.ty, d.w, d.h⟩, d.lrec)
  | none, none => none

/-- What is withheld of some work's hardware: the read of its task code, or a grid's arrive. -/
def workHeld (s : State) (id : Nat) : Option Blocked :=
  match berthOf s id, s.domains.find? (fun d => d.id == id) with
  | some b, _ => b.held
  | none, some d => d.held
  | none, none => none

/-- Replace it. -/
def holdWork (s : State) (id : Nat) (h : Option Blocked) : State :=
  { s with
    berths := s.berths.map (fun b => if b.id = id then { b with held := h } else b)
    domains := s.domains.map (fun d => if d.id = id then { d with held := h } else d) }

/-- The agent of some work's hardware: a berth's, or a grid's. -/
def workAgent (s : State) (id : Nat) : Agent := if (berthOf s id).isSome then .berth id else .domain id

/-- What an access of some work's hardware leads to: it goes on, waits, is withheld, or meets a cause. -/
def workStop {α : Type} (a : SeqAns α) (w : Who) (id : Nat) (old : Option Blocked) (bad : State → Nat → Nat → State) (f : State → α → State) : State :=
  let free := fun (s : State) => if old.isSome then holdWork (leaveReplay s w.quay w.ag) id none else s
  match a with
  | .ok s x => f (free s) x
  | .wait s => s
  | .held s va m wr => let y := withhold s w va m wr old; holdWork y.1 id (some y.2)
  | .bad s c va => bad (free s) c va

/-- Work is released: its tiles are free again. -/
def releaseWork (s : State) (id : Nat) (r : Rect) : State :=
  let s1 := r.tiles.foldl (fun s p =>
    let t := tileAt s p
    setTile s p { t with berth := if t.berth = some id then none else t.berth, dom := if t.dom = some id then none else t.dom }) s
  { s1 with berths := s1.berths.filter (fun b => b.id != id), domains := s1.domains.filter (fun d => d.id != id) }

/-- The work has its code: a chart may start, a grid creates its tasks. -/
def dispatched (s : State) (id : Nat) (c : DispatchCsrs) : State :=
  { s with
    berths := s.berths.map (fun b => if b.id = id then { b with dispatched := true, asid := c.asid.setWidth 9, root := c.ptbase } else b)
    domains := s.domains.map (fun d => if d.id = id then { d with dispatched := true } else d) }

/-- The oldest dispatch of a partition is done with: its record leaves its queue (19 R342). -/
def popDispatch (s : State) (p : Nat) : State :=
  let x := partAt s p
  match x.pendDispatch with
  | [] => s
  | id :: ids =>
    forget (setPart s p { x with pendDispatch := ids, queues := x.queues.map (fun q => q.filter (fun l => l.placed != some id)), passed := none })
      (workAgent s id)

/-- DISPATCH: the task code is read and written to every tile; a read that fails releases the work; work that has been ended is not dispatched (19 R359, R425). -/
def execDispatch (s : State) : Out := with1 s fun p =>
  match (partAt s p).pendDispatch with
  | [] => .next s
  | id :: _ =>
    match workOf s id with
    | none => .next (popDispatch s p)
    | some (r, l) =>
      if withheld (workHeld s id) then .next s
      else
        let c := dispatchCsrs s p
        let w := schedWho c.1 p (gridPos r.tx r.ty) (memRead l 2 1 % 16) false (workAgent s id)
        let va := memRead l 0x018 8
        let len := 4 * memRead l 0x022 2
        .next (workStop (seqBytes w.1 w.2 va len) w.2 id (workHeld s id)
          (fun s1 cause x => raiseEvent (releaseWork (popDispatch s1 p) id r) p cause (BitVec.ofNat 64 x))
          fun s1 code => popDispatch (dispatched (r.tiles.foldl (fun s q => setTile s q (loadTile l code (tileAt s q))) s1) id c.2) p)

/-! ### The start of a chart (02 R29, R50) -/

/-- Slot 0 of every tile of a berth is IDLE. -/
def slotsIdle (s : State) (b : Berth) : Bool := b.rect.tiles.all (fun p => (slotAt s p 0).phase == .idle)

/-- Slot 0 of a tile at the start of a chart. -/
def chartSlot0 (s : State) (b : Berth) (c : DispatchCsrs) (pos : Nat) : State :=
  let t := tileAt s pos
  let x := freshSlot t 0 pos c b.budget 0 (vget Slot.reset t.slots 0).nextId
  setTile s pos
    { t with
      coit := 0
      rnsMode := 0
      acc := Vector.replicate 4 Acc.reset
      stage := t.stage.map (fun x => { x with fp := 0 })
      slots := vset t.slots 0 { x with phase := .boundary, isChart := true, wid := recBases b.lrec, widf := recWidf b.lrec } }

/-- Free values of one shadow configuration: place and entry of its program, its table, its program's words. -/
def freesPerShadow : Nat := 20 + 8192

/-- A switch receives the shadow configuration that Llynco installs with a chart: which, the specification leaves to the chart's groups; every table
entry and the place of the program pass the loader checks (03 R66; 08 R188, R190; log entry 17). -/
def giveShadow (r : Rect) (s : State) (pos : Nat) : State :=
  let n := s.fresh
  let w := switchAt s pos
  let load := (Config.freeWord (n + 1)).toNat % 8192
  let len := 1 + (Config.freeWord (n + 2)).toNat % (8192 - load)
  let entry := load + (Config.freeWord (n + 3)).toNat % len
  let word := fun (i : Nat) => bytesLE 2 (Config.freeWord (n + 20 + i)).toNat
  { setSwitch s pos
      { w with
        shEntry := BitVec.ofNat 13 entry
        shTab := Vector.ofFn (fun i =>
          let e : BitVec 32 := (Config.freeWord (n + 4 + i.val)).setWidth 32
          if entryOk r pos e then e else 0xFFFFFFFF)
        rmem := memSplice w.rmem (2 * load) ((List.range len).flatMap word) }
    with fresh := n + freesPerShadow }

/-- A chart that has been dispatched starts once its slots are IDLE: every slot 0 in its initial state, every switch and generator at rest. -/
def startChart (s : State) (b : Berth) : State :=
  if b.seq = .starting ∧ b.dispatched = true ∧ b.resume.isNone = true ∧ slotsIdle s b = true then
    match sblkTurn s b.part false with
    | some s1 => s1
    | none =>
    let c := dispatchCsrs s b.part
    let s1 := b.rect.tiles.foldl (fun s p => chartSlot0 s b c.2 p) c.1
    let s2 := b.rect.positions.foldl (fun s p => setSwitch s p { vacateSwitch (switchAt s p) with phase := .boundary, iter := 0 }) s1
    let s3 := b.rect.quays.foldl (fun s p => setQuay s p (vacateQuay p (quayAt s p))) s2
    updBerth (b.rect.positions.foldl (giveShadow b.rect) s3) { b with seq := .fetch }
  else s

/-! ### The tasks of a grid (02 R41, R47) -/

/-- The hint of a grid task. -/
def gridHint (d : Domain) : Nat × Nat :=
  let l := d.lrec
  let fx := memRead l 0x0A0 1 % 8
  let fy := memRead l 0x0A1 1 % 8
  let f := fun k => if k = 7 then 0 else widField (recWidf l) d.wid k - recBase l k
  (d.tx + (memRead l 0x0A8 2 + memRead l 0x0A4 2 * f fx) % max 1 d.w, d.ty + (memRead l 0x0AA 2 + memRead l 0x0A6 2 * f fy) % max 1 d.h)

/-- The next task of a grid enters the task network at the north-west tile, once its predecessor has left it. -/
def createTask (s : State) (d : Domain) : State :=
  let start := gridPos d.tx d.ty
  if !d.dispatched || d.dead || d.left == 0 || s.net.any (fun n => n.msg.dom == d.id && n.pos == start && !n.arrived) then s
  else
    let h := gridHint d
    let m : Msg :=
      { hnd := 0, payload := [], sender := 0, wid := d.wid, widf := recWidf d.lrec, budget := d.budget, dom := d.id, hinted := true, tx := h.1
        ty := h.2, rad := memRead d.lrec 0x0A2 1 % 16 }
    let d1 := { d with left := d.left - 1, wid := widAdvance (recWidf d.lrec) (recBase d.lrec) (recExt d.lrec) d.wid }
    { s with
      net := s.net ++ [{ msg := m, pos := start, arrived := false }]
      domains := s.domains.map (fun x => if x.id = d.id then d1 else x) }

/-- Nothing of a domain runs, waits or travels (19 R348). -/
def domainDone (s : State) (d : Domain) : Bool :=
  d.left == 0 && !s.net.any (fun n => n.msg.dom == d.id) &&
    (Rect.tiles ⟨d.tx, d.ty, d.w, d.h⟩).all (fun p => (tileAt s p).dom != some d.id || !tileBusy (tileAt s p))

/-- TASK_GRID_END: the arrive on DONE, then the domain dissolves; work that was ended, or a chart's leftover domain, only dissolves (19 R348, R359). -/
def execTaskGridEnd (s : State) : Out := with1 s fun id =>
  match s.domains.find? (fun d => d.id == id) with
  | none => .next s
  | some d =>
    let r : Rect := ⟨d.tx, d.ty, d.w, d.h⟩
    if !d.dispatched || withheld d.held || !domainDone s d then .next s
    else if d.dead then .next (releaseWork s id r)
    else
      let w := schedWho s d.part (gridPos d.tx d.ty) d.budget.toNat true (.domain id)
      .next (workStop (arriveDone w.1 w.2 d.part (doneOf d.lrec)) w.2 id d.held (fun s1 _ _ => releaseWork s1 id r) fun s1 _ => releaseWork s1 id r)

/-! ### Task overrun (19 R351) -/

/-- The run limit of a budget class; class 15 has none. -/
def runLimit (c : BitVec 4) : Option Nat := if c = 15 then none else some (2 ^ (c.toNat + 6) * Config.budgetPeriod)

/-- A task has run longer than its limit. -/
def overrun (t : Slot) : Bool :=
  t.isTask && t.phase != .idle && !t.phase.isDraining && !t.sstatus.getLsbD 0 &&
    (match runLimit t.budget with | some n => decide (n < t.runCount) | none => false)

/-- A slot leaves BARW or WFI; its program counter names BARW itself, or the word after WFI. -/
def leaveWait (t : Slot) : Slot :=
  match t.phase with
  | .barw .. => { t with phase := .running, barPa := none }
  | .wfi => { t with phase := .running }
  | _ => t

/-- TASK_OVERRUN at an instruction boundary: taken in the supervisor, with the count as STVAL (19 R351). -/
def execTaskOverrun (s : State) : Out := with2 s fun pos k =>
  let t := slotAt s pos k
  if overrun t then
    .next (takeTrap (setSlot s pos k (leaveWait t)) pos k false cOVERRUN 0 (BitVec.ofNat 64 t.runCount) (boundaryEpc (leaveWait t)))
  else .next s

/-- Waiting events enter a queue, in order, while it has room; one equal to an entry still in the queue is merged into it (18 R318). -/
def admitEvents (q : List Event) : List Event → List Event × List Event
  | [] => (q, [])
  | e :: w => if q.contains e then admitEvents q w else if q.length < eventQueueSize then admitEvents (q ++ [e]) w else (q, e :: w)

/-- EVENT_TAKE: the event slot takes the oldest event of its partition at an instruction boundary (18 R318, R326, R328); a waiting event then enters
the queue. -/
def execEventTake (s : State) : Out := with2 s fun pos k =>
  let t := slotAt s pos k
  match partOf s pos with
  | none => .next s
  | some p =>
    let x := partAt s p
    match x.evq with
    | [] => .next s
    | e :: es =>
      if !(t.sstatus.getLsbD 4 && t.sstatus.getLsbD 3) || t.phase == .idle || t.phase.isDraining then .next s
      else
        let a := admitEvents es x.evWait
        .next (takeTrap (setSlot (setPart s p { x with evq := a.1, evWait := a.2 }) pos k (leaveWait t)) pos k true e.cause 0 e.tval
          (boundaryEpc (leaveWait t)))

end Sys2Proof.Machine
end

