-- ==== Sys2Proof/Machine/Save.lean ====
section
/-!
DEFINITION. Saves of charts, their resumption, and the commands of a partition's supervisor to its scheduler (19 R352 to R359).
-/
namespace Sys2Proof.Machine

open Sys2Proof

/-! ### When a capture begins (19 R353, R354) -/

/-- Operations of the copy engine; a save does not wait for those that are withheld. -/
def OpKind.copies : OpKind → Bool
  | .copy .. => true
  | .gather .. => true
  | .scatter .. => true
  | .nxch .. => true
  | .obcp .. => true
  | _ => false

/-- An access is withheld for a TLBINV, in a replay queue or answered with a retry. -/
def stuck (h : Option Blocked) : Bool := h.any (fun b => !b.released)

/-- A tile of a berth is ready for capture. -/
def tileStopped (b : Berth) (t : Tile) : Bool :=
  (b.evict || (vget Slot.reset t.slots 0).phase == .boundary) &&
    t.ops.all (fun o => o.finished || (o.kind.copies && stuck o.held)) &&
    [1, 2, 3].all (fun k => !(vget Slot.reset t.slots k).isTask) && t.msgOut.isEmpty && t.heldMsg.isNone

/-- Every condition under which capture begins. -/
def captureReady (s : State) (b : Berth) : Bool :=
  (b.seq == .step || b.seq == .fetch || b.seq == .stuck) && b.rect.tiles.all (fun p => tileStopped b (tileAt s p)) &&
    (b.evict || b.rect.positions.all (fun p => (switchAt s p).phase == .boundary)) && !s.net.any (fun n => n.msg.dom == b.id)

/-! ### The save record (19 R355, R356, Tables 19-3 to 19-5) -/

/-- The header as bytes. -/
def headBytes (b : Berth) : List Byte :=
  let ps := placeRecords b.rect b.pool
  let o := gridPos b.tx b.ty
  bytesLE 2 1 ++ bytesLE 1 (if b.evict then 2 else 1) ++ bytesLE 1 b.conf ++ bytesLE 4 (b.w + 2 ^ 16 * b.h) ++
    bytesLE 8 (posX o + 2 ^ 16 * gridY o) ++ bytesLE 8 b.stepIdx ++ bytesLE 4 (b.saveT.getD 0) ++ bytesLE 4 ps.length ++
    b.imgs.toList.flatMap (fun a => bytesLE 8 a.toNat) ++
    (List.range 8).flatMap (fun d => bytesLE 8 (match ps.find? (fun x => dieOf x.pos == d) with | some x => x.addr | none => 0)) ++
    memRun b.lrec 0 recSize ++ bytesLE 512 0

/-- One 64-byte unit of a memory. -/
def unitAt (m : Mem) (off : Nat) : Nat := ofBytesLE (memRun m off 64)

/-- A unit of the route and buffer part of a record, by its offset from the switch state. -/
def switchUnit (w : Switch) (off free : Nat) : Nat :=
  if off = 0x40 then ofBytesLE (w.shTab.toList.flatMap (fun e => bytesLE 4 e.toNat))
  else if off < 0x200 then free
  else
    match (bufOf w ((off - 0x200) / 0x200))[(off - 0x200) % 0x200 / 64]? with
    | some x => x.data.toNat
    | none => free

/-- An accumulator as the image of 11 R238 that leaves its tile (05 R111). -/
def accImage (t : Tile) (a : Acc) : Mem := cellsFrom 0 (bytesLE 64 (headerOf t.rnsMode a.beta.toNat) ++ leavingCells t a)

/-- A unit of a tile record; what the layout of Table 19-4 does not fix is free (log entry 64). -/
def tileUnit (s : State) (pos off free : Nat) : Nat :=
  let t := tileAt s pos
  let w := switchAt s pos
  let x := vget Slot.reset t.slots 0
  if off < 0x400 then free
  else if off < 0xE00 then
    let s1 := { s with cur := { pos := pos, slot := 0, pc := x.pc, pass := false, stalled := false } }
    (saveUnits x (pmapOf x) (pmapxOf s1) true).getD ((off - 0x400) / 64) 0
  else if off < 0x1000 then free
  else if off < 0x5000 then switchUnit w (off - 0x1000) free
  else if off < 0x6000 then unitAt (vget DTable.reset t.dtab ((off - 0x5000) / 0x400)).data ((off - 0x5000) % 0x400)
  else if off < 0xE000 then unitAt (accImage t (vget Acc.reset t.acc ((off - 0x6000) / 0x2000))) ((off - 0x6000) % 0x2000)
  else if off < 0xF000 then
    let o := (off - 0xE000) % 0x800
    if o < aSize then unitAt (vget AStage.reset t.stage ((off - 0xE000) / 0x800)).data o else 0
  else if off < 0x10000 then (if (off - 0xF000) / 64 < t.runq.length then free else 0)
  else if off < 0x50000 then unitAt t.scratch (off - 0x10000)
  else if off < 0x50200 then packFrom 1 (fun i => (memGet t.scratchP (8 * (off - 0x50000) + i)).toNat % 2) 512 0
  else if off < 0x51000 then 0
  else unitAt w.rmem (off - 0x51000)

/-- A unit of a quay record. -/
def quayUnit (s : State) (pos off free : Nat) : Nat :=
  if off < 0x200 then free
  else if off < 0x1000 then 0
  else if off < 0x5000 then switchUnit (switchAt s pos) (off - 0x1000) free
  else unitAt (switchAt s pos).rmem (off - 0x5000)

/-- Units written of a header, a tile record, a quay record. -/
def headUnits : Nat := 16
def tileUnits : Nat := 5440
def quayUnits : Nat := 576

/-- The address and the contents of the unit that is number `n` after the header's; none past the last. -/
def recordUnit (s : State) : List Placed → Nat → Nat → Option (Nat × Nat)
  | [], _, _ => none
  | x :: xs, n, free =>
    let k := if isQuay x.pos then quayUnits else tileUnits
    if n < k then some (x.addr + 64 * n, if isQuay x.pos then quayUnit s x.pos (64 * n) free else tileUnit s x.pos (64 * n) free)
    else recordUnit s xs (n - k) free

/-- Unit `n` of a save. -/
def saveUnit (s : State) (b : Berth) (n free : Nat) : Option (Nat × Nat) :=
  if n < headUnits then some (headAddr b.rect b.pool + 64 * n, ofBytesLE (((headBytes b).drop (64 * n)).take 64))
  else recordUnit s (placeRecords b.rect b.pool) (n - headUnits) free

/-! ### The end of a capture (19 R353, R357; 20 R372) -/

/-- A slot whose withheld accesses count as not performed: they are issued again when it goes on (07 R163). -/
def unperformed (x : Slot) : Slot :=
  { x with
    outs := x.outs.map (fun a => { a with stage := .issued, since := 0 })
    blocked := none
    busy := x.busy.map (fun y => { y with asking := false })
    barPa := none }

/-- A tile as its record keeps it; its operand bank stays where it is. -/
def keptTile (t : Tile) : Tile :=
  { t with
    slots := vset t.slots 0 (unperformed (vget Slot.reset t.slots 0))
    ops := t.ops.map (fun o => { o with held := none })
    bank := []
    bankP := [] }

/-- A quay as its record keeps it. -/
def keptQuay (q : Quay) : Quay := { Quay.reset with gens := q.gens.map (fun g => { g with held := none }) }

/-- The number of a position in its span: tiles row by row, then from 8192 on the quays line by line. -/
def relOf (r : Rect) (p : Nat) : Nat :=
  if isQuay p then 8192 + r.w * (quayRows r).idxOf (posY p) + (posX p - r.tx) else r.w * (gridY p - r.ty) + (posX p - r.tx)

/-- The accesses of a slot of a tile, and of what it has begun. -/
def slotAgents (p k : Nat) : Agent → Bool
  | .access q j _ => q == p && j == k
  | .inline q j => q == p && j == k
  | _ => false

/-- The accesses of an operation of some tiles. -/
def opAgents (ps : List Nat) : Agent → Bool
  | .op q _ => ps.contains q
  | _ => false

/-- The saved chart of a berth. -/
def savedOf (s : State) (b : Berth) : Saved :=
  { id := b.id, kind := if b.evict then 2 else 1, header := BitVec.ofNat 64 (headAddr b.rect b.pool), lrec := b.lrec, w := b.w, h := b.h
    tx := b.tx, ty := b.ty, step := b.stepIdx, seq := b.seq, conf := b.conf, t := b.saveT.getD 0, imgs := b.imgs, count := b.count
    tiles := b.rect.tiles.map (fun p => (relOf b.rect p, keptTile (tileAt s p)))
    switches := (b.rect.tiles ++ b.rect.quays).map (fun p => (relOf b.rect p, switchAt s p))
    quays := b.rect.quays.map (fun p => (relOf b.rect p, keptQuay (quayAt s p)))
    banks := b.rect.tiles.map (fun p => (p, relOf b.rect p))
    pool := b.pool
    fetched := b.rect.tiles.flatMap (fun p => (s.fetched.filter (fun f => f.agent == .inline p 0)).map (fun f => (relOf b.rect p, f)))
    banked := [] }

/-- A tile that a save leaves: nothing of the chart stays but its operand bank. -/
def leaveTile (t : Tile) : Tile := { t with ops := [], lock := [], runq := [], spill := [], slots := vset t.slots 0 (vget Slot.reset t.slots 0).ended }

/-- The record is whole: the berth is free, the resume record queued, and PREEMPT raised with the header's address. -/
def captureDone (s : State) (b : Berth) : State :=
  let x := savedOf s b
  let ps := b.rect.tiles
  let s1 := ps.foldl (fun s p => setTile s p (leaveTile (tileAt s p)))
    (ps.foldl (fun s p => dropMarkers s p 0 none) (giveUp s (fun a => ps.any (fun p => slotAgents p 0 a) || opAgents ps a)))
  let s2 := freeBerth s1 b
  let y := partAt s2 b.part
  raiseEvent (enqueueResume (setPart s2 b.part { y with saved := y.saved ++ [x] }) b.part b.lrec b.id) b.part cPREEMPT x.header

/-- CAPTURE: one unit of the record of a berth that is being saved; once begun it cannot be aborted (19 R353 to R356). -/
def execCapture (s : State) : Out := with1 s fun id =>
  match berthOf s id with
  | none => .next s
  | some b =>
    if !b.saving || withheld b.held || (b.cap == 0 && !captureReady s b) then .next s
    else
      match saveUnit s b b.cap (Config.freeVec s.fresh).toNat with
      | none => .next (captureDone s b)
      | some (va, v) =>
        let w := schedWho (nextFresh s) b.part (gridPos b.tx b.ty) b.budget.toNat true (.berth b.id)
        .next (seqStop (written (storeUnit w.1 w.2 va v) va) w.2 b (fun s1 b1 _ _ => updBerth s1 b1)
          fun s1 b1 _ => updBerth s1 { b1 with cap := b1.cap + 1 })

/-! ### The drain limit (07 R162; 19 R354) -/

/-- A cycle stamp is at least `n` cycles old; 0 is no stamp. -/
def agedBy (s : State) (since n : Nat) : Bool := since != 0 && decide (since + n ≤ s.cycle.toNat + 1)

/-- An outstanding access that has translated ABSENT is held for that, or is answered with a retry and re-sent; a migration-held one is not counted (20 R375). -/
def Access.faultHeld (a : Access) : Bool :=
  match a.stage with
  | .faultHeld => true
  | .retry m => !m
  | .migHeld => false
  | _ => a.since != 0

/-- A withheld access has been held for a page fault for `n` cycles. -/
def agedHold (s : State) (n : Nat) (h : Option Blocked) : Bool := h.any (fun b => !b.migrating && !b.released && agedBy s b.since n)

/-- An access of slot 0, of one of its operations, or of a generator of a berth has been withheld for a page fault for DRAINLIM cycles; a DRAINLIM of 0 sets no
limit (18 R324; 20 R375). -/
def drainExpired (s : State) (b : Berth) : Bool :=
  let n := (partAt s b.part).drainlim.toNat
  n != 0 &&
    (b.rect.tiles.any (fun p =>
        let x := slotAt s p 0
        x.outs.any (fun a => a.faultHeld && agedBy s a.since n) || agedHold s n x.blocked ||
          (tileAt s p).ops.any (fun o => o.slot == 0 && agedHold s n o.held)) ||
      b.rect.quays.any (fun p => (quayAt s p).gens.toList.any (fun g => agedHold s n g.held)))

/-- DRAIN_LIMIT_EXPIRY: the eviction of a berth begins; it waits while another save of the partition is under way; where the pools cannot hold it, PREEMPT with 0
is raised once. -/
def execDrainLimitExpiry (s : State) : Out := with1 s fun id =>
  match berthOf s id with
  | none => .next s
  | some b =>
    if b.seq ≠ .step ∨ (s.berths.any (fun x => x.part == b.part && x.saving)) = true ∨ drainExpired s b = false then .next s
    else
      let r := requestSave s b true
      if r.2 || b.noPool then .next r.1 else .next (raiseEvent (updBerth r.1 { b with noPool := true }) b.part cPREEMPT 0)

/-! ### A record is read back (19 R355, R358) -/

/-- Bytes of a record from an offset as a memory. -/
def sliceCells (bs : List Byte) (off n : Nat) : Mem := cellsFrom 0 ((bs.drop off).take n)

/-- The bits of some bytes, one cell for each. -/
def bitCells (bs : List Byte) (n : Nat) : Mem :=
  cellsFrom 0 (((bs.take n).flatMap (fun x => (List.range 8).map (fun i => if x.getLsbD i then (1 : Byte) else 0))))

/-- Word `i` of a save area without its reserved bits. -/
def keptWord (us : List Nat) (i : Nat) : Word := areaWord us i &&& areaMasks.getD i (if 56 ≤ i ∧ i < 64 then scaleMask else 0xFFFFFFFFFFFFFFFF)

/-- Slot 0 with the context that its record holds (18 Table 18-19). -/
def contextOf (x : Slot) (us : List Nat) : Slot :=
  let ws := (List.range 64).map (keptWord us)
  let y := restoreSlot x (((List.range 8).map (fun i => (packWords ((ws.drop (8 * i)).take 8), false))) ++ (us.drop 8).map (fun u => (u, false))) true
  { y with
    sstatus := ws.getD 3 0
    nfc := if bitsOf (ws.getD 9 0) 2 0 ≤ 4 then ws.getD 9 0 else x.nfc
    rep := { y.rep with susp := y.rep.active && x.rep.susp }
    tokErr := x.tokErr }

/-- A switch with 4 KiB of the route and buffer part of its record, from offset `o`: the shadow route table and the words its buffers hold. -/
def switchOf (w : Switch) (o : Nat) (bs : List Byte) : Switch :=
  { w with
    shTab := if o = 0 then Vector.ofFn (fun i => BitVec.ofNat 32 (le bs (0x40 + 4 * i.val) 4)) else w.shTab
    bufs := Vector.ofFn (fun i =>
      let at_ := 0x200 + 0x200 * i.val
      if o ≤ at_ ∧ at_ < o + 0x1000 then (bufOf w i.val).mapIdx (fun j x => { x with data := BitVec.ofNat 512 (le bs (at_ - o + 64 * j) 64) })
      else bufOf w i.val) }

/-- A tile with 4 KiB of its record, the part `c`: what the layout of Table 19-4 fixes. -/
def tileOf (t : Tile) (c : Nat) (bs : List Byte) : Tile :=
  if c = 0 then
    { t with slots := vset t.slots 0 (contextOf (vget Slot.reset t.slots 0) ((List.range 40).map (fun i => le bs (0x400 + 64 * i) 64))) }
  else if c < 5 then t
  else if c = 5 then { t with dtab := Vector.ofFn (fun i => { vget DTable.reset t.dtab i.val with data := tableCells ((bs.drop (0x400 * i.val)).take 0x400) }) }
  else if c < 14 then
    let n := (c - 6) / 2
    let a := vget Acc.reset t.acc n
    let a1 :=
      if c % 2 = 0 then { a with beta := BitVec.ofNat 7 (le bs 0 1), cells := memSplice a.cells 0 (bs.drop 64) }
      else { a with cells := memSplice a.cells 4032 (bs.take 3648) }
    { t with acc := vset t.acc n a1 }
  else if c = 14 then { t with stage := Vector.ofFn (fun i => { vget AStage.reset t.stage i.val with data := sliceCells bs (0x800 * i.val) aSize }) }
  else if c = 15 then t
  else if c < 80 then { t with scratch := memSplice t.scratch (0x1000 * (c - 16)) bs }
  else if c = 80 then { t with scratchP := bitCells bs 0x200 }
  else t

/-- A tile with 4 KiB of its operand bank, or with its poison. -/
def bankWith (t : Tile) (k : Nat) (bs : List Byte) : Tile :=
  if k < 256 then { t with bank := memSplice t.bank (0x1000 * k) bs } else { t with bankP := bitCells bs 0x800 }

/-- Replace an entry of a table where it has one. -/
def tblMap {α : Type} (t : Tbl α) (k : Nat) (f : α → α) : Tbl α := t.map (fun e => if e.1 = k then (e.1, f e.2) else e)

/-- A saved chart with the part `c` of the record of a position. -/
def chunkOf (x : Saved) (pos c : Nat) (bs : List Byte) : Saved :=
  let k := relOf x.rect pos
  let route := if isQuay pos then 5 else 81
  { x with
    tiles := if isQuay pos then x.tiles else tblMap x.tiles k (fun t => tileOf t c bs)
    switches := tblMap x.switches k (fun w =>
      if 1 ≤ c ∧ c < 5 then switchOf w (0x1000 * (c - 1)) bs
      else if route ≤ c ∧ c < route + 4 then { w with rmem := memSplice w.rmem (0x1000 * (c - route)) bs }
      else w) }

/-- A saved chart with its header: resident configuration, step and images. -/
def headOfRecord (x : Saved) (bs : List Byte) : Saved :=
  { x with conf := le bs 3 1 % 4, step := le bs 0x10 8, imgs := Vector.ofFn (fun i => BitVec.ofNat 64 (le bs (0x20 + 8 * i.val) 8)) }

/-- Parts of a tile record, a quay record and an operand bank, 4 KiB each but for the bank's last. -/
def tileChunks : Nat := 85
def quayChunks : Nat := 9
def bankChunks : Nat := 257

/-- Part `n` of the position records, with its record; none past the last. -/
def recordChunk : List Placed → Nat → Option (Placed × Nat)
  | [], _ => none
  | x :: xs, n =>
    let k := if isQuay x.pos then quayChunks else tileChunks
    if n < k then some (x, n) else recordChunk xs (n - k)

/-- Parts of all position records. -/
def chunkCount (ps : List Placed) : Nat := (ps.map (fun x => if isQuay x.pos then quayChunks else tileChunks)).foldl (· + ·) 0

/-- A tile of a resumed chart holds its bank: the chart has kept it there. -/
def bankKept (x : Saved) (r : Rect) (p : Nat) : Bool := x.banks.contains (p, relOf r p)

/-- The first tile of a resumed chart whose released bank has not been read back. -/
def bankMissing (x : Saved) (r : Rect) : Option Nat := (r.tiles.map (relOf r)).find? (fun k => !x.banks.any (fun q => q.2 == k) && !x.banked.contains k)

/-- The next part of a record to be read: its address and length, what it makes of the saved chart, and the count of parts after it. -/
structure ReadPart where
  va : Nat
  len : Nat
  apply : List Byte → Saved
  cap : Nat

/-- The header first, then the position records, then the banks that have been released. -/
def nextPart (x : Saved) (r : Rect) (cap : Nat) : Option ReadPart :=
  let ps := placeRecords x.rect x.pool
  let total := chunkCount ps + 1
  if cap = 0 then some { va := headAddr x.rect x.pool, len := headSize, apply := headOfRecord x, cap := 1 }
  else
    match recordChunk ps (cap - 1) with
    | some (y, c) => some { va := y.addr + 0x1000 * c, len := 0x1000, apply := chunkOf x y.pos c, cap := cap + 1 }
    | none =>
      match bankMissing x r with
      | none => none
      | some k =>
        let n := cap - total
        let base := ((ps.find? (fun y => relOf x.rect y.pos == k)).map (·.addr)).getD 0
        some
          { va := base + 0x58000 + 0x1000 * n
            len := if n + 1 < bankChunks then 0x1000 else 0x800
            apply := fun bs =>
              { x with tiles := tblMap x.tiles k (fun t => bankWith t n bs), banked := if n + 1 < bankChunks then x.banked else k :: x.banked }
            cap := if n + 1 < bankChunks then cap + 1 else total }

/-- Replace a saved chart. -/
def setSaved (s : State) (p : Nat) (x : Saved) : State :=
  let y := partAt s p
  setPart s p { y with saved := y.saved.map (fun z => if z.id = x.id then x else z) }

/-! ### Resumption (19 R357, R358) -/

/-- The images of the resident configurations of a saved chart, read one after another. -/
def readImages (b : Berth) (w : Who) (imgs : Vector Word 4) : List Nat → State → List (Nat × List ImgRec) → SeqAns (List (Nat × List ImgRec))
  | [], s, acc => .ok s acc
  | i :: is, s, acc =>
    if vget 0 imgs i = 0 then readImages b w imgs is s acc
    else (readImage s b w (vget 0 imgs i).toNat).bind fun s1 xs => readImages b w imgs is s1 (acc ++ [(i, xs)])

/-- A message of the saved domain, now of the new one. -/
def rehome (id : Nat) (m : Msg) : Msg := { m with dom := id }

/-- Slot 0 of a resumed tile: one that a pre-emption stopped within its step goes on. -/
def resumeSlot (count coit : Nat) (torn : List Torn) (x : Slot) : Slot :=
  { x with phase := if x.phase = .boundary ∧ coit < count then .running else x.phase, torn := torn ++ x.torn }

/-- The code that a resume supplies to a tile: word index and bytes of each run, TCODE's first. -/
def codeSupply (r : Rect) (lrec : Mem) (p : Nat) (imem : Mem) (xs : List ImgRec) : List (Nat × List Byte) :=
  (memRead lrec 0x020 2, memRun imem (4 * memRead lrec 0x020 2) (4 * memRead lrec 0x022 2)) ::
    xs.filterMap (fun x => if !x.quay && x.pos? r == some p then some (x.cload, x.code) else none)

/-- Some supplied run holds a word at an index. -/
def suppliesWord (ss : List (Nat × List Byte)) (i w : Nat) : Bool :=
  ss.any (fun x => decide (x.1 ≤ i ∧ 4 * (i - x.1) + 4 ≤ x.2.length) && le x.2 (4 * (i - x.1)) 4 == w)

/-- Instruction memory after a resume: in the runs that are supplied, as it was at the save. -/
def keptCode (old new : Mem) (ss : List (Nat × List Byte)) : Mem := ss.foldl (fun m x => memSplice m (4 * x.1) (memRun old (4 * x.1) x.2.length)) new

/-- The words that a changed image supplies, and no run as they were: they are undefined (19 R355). -/
def changedCode (old : Mem) (ss : List (Nat × List Byte)) (seed : Nat) : List Torn :=
  ((ss.flatMap (fun x => (List.range (x.2.length / 4)).map (x.1 + ·))).eraseDups).filterMap (fun i =>
    if suppliesWord ss i (memRead old (4 * i) 4) then none else some ⟨i, 1, seed + i⟩)

/-- A tile of a resumed chart: saved contents, RNSCFG among them, but that a channel that its tile has retired is not returned to use (11 R260; 21 R385; log
entry 72); the slots 1 to 3 and what else is the tile's own stay. -/
def resumeTile (id count seed : Nat) (kept : Bool) (ss : List (Nat × List Byte)) (old new : Tile) : Tile :=
  { old with
    slots := vset new.slots 0 (resumeSlot count old.coit (changedCode old.imem ss seed) (vget Slot.reset old.slots 0))
    last := new.last
    imem := keptCode old.imem new.imem ss
    bank := if kept then new.bank else old.bank
    bankP := if kept then new.bankP else old.bankP
    reta := if new.reta = 0xF then old.reta else new.reta
    retb := if new.retb = 0xF then old.retb else new.retb
    lock := new.lock ++ old.lock.map (fun e => { e with op := e.op + new.nextOp })
    ops := new.ops ++ old.ops.map (fun o => { o with id := o.id + new.nextOp })
    nextOp := old.nextOp + new.nextOp
    msgOut := new.msgOut
    runq := old.runq.map (rehome id) ++ new.runq
    spill := old.spill.map (rehome id) ++ new.spill
    heldMsg := new.heldMsg
    dom := some id
    berth := some id
    faultinj := new.faultinj
    synq := new.synq }

/-- A switch of a resumed chart; its route table is that of the configuration installed anew, which is not saved. -/
def resumeSwitch (step : Bool) (conf count : Nat) (old new : Switch) : Switch :=
  let c := vget Conf.reset new.confs conf
  { old with
    confs := new.confs
    rentry := if c.installed then c.rentry else old.rentry
    rtab := if c.installed then c.rtab else old.rtab
    moved := false
    phase := if step && old.phase == .boundary && decide (old.iter.toNat < count) then .running else old.phase }

/-- What slot 0 of a resumed tile waits for goes on: a BARW looks at its record again, and the markers of a FENCE enter the hawsers (07 R151, R158). -/
def resumeWait (s : State) (p : Nat) : State :=
  let x := slotAt s p 0
  let s1 := match x.phase with
    | .barw .. => later s .barrierWake (.two p 0)
    | _ => s
  match x.fence with
  | some f => placeMarkers s1 (dieOf p) p 0 f.dies (maskHawsers f.mask)
  | none => s1

/-- Tile `p` of a resumed chart. -/
def restoreTile (b : Berth) (x : Saved) (xs : List ImgRec) (before : State) (s : State) (p : Nat) : State :=
  match tblGet? x.tiles (relOf b.rect p) with
  | none => s
  | some t =>
    let ss := codeSupply b.rect b.lrec p (tileAt before p).imem xs
    resumeWait { setTile s p (resumeTile b.id x.count s.fresh (bankKept x b.rect p) ss t (tileAt s p)) with fresh := s.fresh + 8192 } p

/-- Everything of a saved chart goes back into a berth of its shape; `before` is the state before the images were installed. -/
def restoreChart (before s : State) (b : Berth) (x : Saved) (xs : List ImgRec) : State :=
  let r := b.rect
  let s1 := r.tiles.foldl (restoreTile b x xs before) s
  let s2 := r.positions.foldl (fun s p =>
    match tblGet? x.switches (relOf r p) with
    | some w => setSwitch s p (resumeSwitch (x.seq == .step) x.conf x.count w (switchAt s p))
    | none => s) s1
  let s3 := r.quays.foldl (fun s p =>
    match tblGet? x.quays (relOf r p) with
    | some q => setQuay s p { quayAt s p with gens := q.gens.map (fun g => { g with asid := b.asid, root := b.root }) }
    | none => s) s2
  let mine := x.fetched.filterMap (fun f =>
    (r.tiles.find? (fun p => relOf r p == f.1)).map (fun p => { f.2 with agent := .inline p 0 }))
  updBerth { s3 with fetched := s3.fetched ++ mine }
    { b with
      seq := x.seq, stepIdx := x.step, conf := x.conf, count := x.count, imgs := x.imgs, installed := x.imgs.map (fun a => a != 0)
      resume := none, still := 0, told := false, cap := 0 }

/-- A partition without one saved chart. -/
def dropSaved (s : State) (p id : Nat) : State :=
  let y := partAt s p
  setPart s p { y with saved := y.saved.filter (fun z => z.id != id) }

/-- The saved chart that a berth resumes. -/
def resumedOf (s : State) (b : Berth) : Option Saved := b.resume.bind (fun id => (partAt s b.part).saved.find? (fun x => x.id == id))

/-- A bank that stands in the way of a resume: another chart's, held at one of its tiles, or its own, held at a place that is not its tile's any more. -/
def bankInWay (s : State) (b : Berth) (x : Saved) : Option HeldBank :=
  (heldBanks s (fun _ => true)).find? (fun h =>
    if h.chart = x.id ∧ h.part = b.part then !b.rect.tiles.any (fun p => p == h.pos && bankKept x b.rect p) else b.rect.tiles.contains h.pos)

/-- A read of a resume that fails: the berth is released, the save record kept, and the cause raised with the unit's address (19 R425). -/
def resumeFails (x : Saved) (s : State) (b : Berth) (cause va : Nat) : State :=
  raiseEvent (releaseWork (setSaved (forget s (.berth b.id)) b.part { x with banked := [] }) b.id b.rect) b.part cause (BitVec.ofNat 64 va)

/-- RESUME: a resume record that has been placed and dispatched goes on in its berth. Banks that are in the way are copied into their records, the save record is
read back part by part, the images are installed, and the chart restarts (19 R357, R358, R425). -/
def execResume (s : State) : Out := with1 s fun id =>
  match berthOf s id with
  | none => .next s
  | some b =>
    match resumedOf s b with
    | none => .next s
    | some x =>
      if b.seq ≠ .starting ∨ b.dispatched = false ∨ withheld b.held = true ∨ slotsIdle s b = false then .next s
      else
        match bankInWay s b x with
        | some h => .next (copyBank s b h)
        | none =>
          let w := schedWho s b.part (gridPos b.tx b.ty) b.budget.toNat true (.berth id)
          match nextPart x b.rect b.cap with
          | some y =>
            .next (seqStop (seqBytes w.1 w.2 y.va y.len) w.2 b (resumeFails x) fun s1 b1 bs =>
              updBerth (setSaved (forget s1 (.berth id)) b1.part (y.apply bs)) { b1 with cap := y.cap })
          | none =>
            .next (seqStop (readImages b (berthWho s b) x.imgs [0, 1, 2, 3] s []) (berthWho s b) b (resumeFails x) fun s1 b1 xs =>
              let s2 := dropSaved (forget s1 (.berth id)) b1.part x.id
              restoreChart s2 (xs.foldl (fun s e => installImage s b1 e.1 e.2) s2) b1 x (xs.flatMap (·.2)))

/-! ### Ending work (02 R51; 19 R359) -/

/-- The access is withheld. -/
def Access.withheld (a : Access) : Bool :=
  match a.stage with
  | .faultHeld => true
  | .migHeld => true
  | .retry _ => true
  | _ => false

/-- An operation that has a withheld access ends: with −1 where its token is not written yet, its remaining beats still to be subtracted, and else without them. -/
def cutOp (s : State) (pos : Nat) (o : AsyncOp) : State :=
  let s1 := giveUp (leaveColl s (.op pos o.id)) (· == .op pos o.id)
  if o.finished then (let t := tileAt s1 pos; setTile s1 pos { t with ops := t.ops.filter (fun q => q.id != o.id) })
  else endOp s1 pos { o with held := none } (-1) none

/-- The withheld accesses of a slot are abandoned, and operations with one end. -/
def cutOff (s : State) (pos k : Nat) : State :=
  let x := slotAt s pos k
  let gone : Agent → Bool := fun a =>
    match a with
    | .access p j id => p == pos && j == k && x.outs.any (fun a => a.id == id && a.withheld)
    | _ => false
  let s1 := abandon (giveUp (setSlot s pos k { x with outs := x.outs.filter (fun a => !a.withheld) }) gone) pos k
  ((tileAt s1 pos).ops.filter (fun o => o.slot == k && stuck o.held)).foldl (fun s o => cutOp s pos o) s1

/-- A slot that OP 2 ends begins to drain. -/
def cutSlot (s : State) (pos k : Nat) : State :=
  cutOff (setSlot s pos k { slotAt s pos k with phase := .draining false, rep := Rep.reset, barPa := none }) pos k

/-- A chart that OP 2 ends: slot 0 of every tile drains, its switches and generators stop, and their buffers are empty; of one that is being resumed the record is
freed. -/
def cutChart (s : State) (b : Berth) : State :=
  let s1 := b.rect.tiles.foldl (fun s p => if (slotAt s p 0).isChart then cutSlot s p 0 else s) s
  let s2 := b.rect.positions.foldl (fun s p => setSwitch s p (vacateSwitch (switchAt s p))) s1
  let s3 := b.rect.quays.foldl (fun s p => setQuay s p (vacateQuay p (quayAt s p))) s2
  let s4 := match resumedOf s b with | some x => dropSaved s3 b.part x.id | none => s3
  updBerth (stopSequencer s4 b) { b with seq := .ended, held := none, resume := none, snap := [] }

/-- A grid that OP 2 ends: its running tasks drain and its messages are discarded. -/
def cutGrid (s : State) (d : Domain) : State :=
  let r : Rect := ⟨d.tx, d.ty, d.w, d.h⟩
  let s1 := r.tiles.foldl (fun s p =>
    let s1 := [0, 1, 2, 3].foldl (fun s k => if (slotAt s p k).isTask then cutSlot s p k else s) s
    setTile s1 p { tileAt s1 p with msgOut := [], runq := [], spill := [], heldMsg := none }) (giveUp s (· == .domain d.id))
  { s1 with
    net := s1.net.filter (fun n => n.msg.dom != d.id)
    domains := s1.domains.map (fun x => if x.id = d.id then { x with dead := true, cut := true, left := 0, held := none, dispatched := true } else x) }

/-- What an ended chart or grid still does: later accesses that are withheld are abandoned too, and the berth is freed when it is IDLE. -/
def endUpkeep (s : State) : State :=
  let s1 := s.berths.foldl (fun s b =>
    if b.seq ≠ .ended then s
    else
      let s1 := b.rect.tiles.foldl (fun s p => if (slotAt s p 0).isChart then cutOff s p 0 else s) s
      if b.rect.tiles.all (fun p => !(slotAt s1 p 0).isChart) then freeBerth s1 b else s1) s
  s1.domains.foldl (fun s d =>
    if !d.cut then s
    else
      (Rect.tiles ⟨d.tx, d.ty, d.w, d.h⟩).foldl (fun s p =>
        [0, 1, 2, 3].foldl (fun s k => if (slotAt s p k).isTask then cutOff s p k else s) s) s) s1

/-! ### Commands (19 R359, Table 19-6) -/

/-- A command that has not been acted on: its SEQ, OP and origin. -/
structure Cmd where
  seq : Nat
  op : Nat
  tx : Nat
  ty : Nat

/-- The command that stands unacknowledged in a partition's scheduler block, if it can be read. -/
def heldCmd (s : State) (p : Nat) : Option Cmd :=
  let x := partAt s p
  match peek s (x.sblk.toNat + 0xC0) 8 x.tkey.toNat with
  | none => none
  | some v =>
    if v / 2 ^ 32 = x.cmdSeq.toNat then none else some { seq := v / 2 ^ 32, op := v % 256, tx := v / 2 ^ 8 % 128, ty := v / 2 ^ 16 % 64 }

/-- The scheduler of a RUNNING partition looks for a command: where the line of CMD belongs to another package, it is recalled. -/
def watchCmd (s : State) (p : Nat) : State :=
  let x := partAt s p
  let l := lineOf (x.sblk.toNat + 0xC0)
  let m := metaOf s l
  if x.st = .running ∧ homedHere s l = true ∧ needsTrans m.st false = true ∧ m.opkg ≠ s.pkg then waitLine s l x.tkey.toNat false else s

/-- The command that the scheduler acts on: that of a RUNNING partition. -/
def newCmd (s : State) (p : Nat) : Option Cmd := if (partAt s p).st = .running then heldCmd s p else none

/-- The command has been acted on: ACK holds its SEQ and status. -/
def ackCmd (s : State) (p : Nat) (c : Cmd) (status : Nat) : State :=
  let x := partAt s p
  sblkWrite (setPart s p { x with cmdSeq := BitVec.ofNat 32 c.seq }) p 0xC8 8 (c.seq * 2 ^ 32 + status % 256)

/-- A command row: it acts where the new command has the OP it stands for. -/
def withCmd (s : State) (ops : Nat → Bool) (f : State → Nat → Cmd → State) : Out := with1 s fun p =>
  match newCmd s p with
  | none => .next s
  | some c => .next (if ops c.op then f s p c else s)

/-- The chart at an origin. -/
def chartAt (s : State) (p : Nat) (c : Cmd) : Option Berth := s.berths.find? (fun b => b.part == p && b.tx == c.tx && b.ty == c.ty && b.seq != .ended)

/-- OP 1: a save of the chart; while another chart of the partition is being saved the command waits (19 R354). -/
def execCmdPreemptionSave (s : State) : Out := withCmd s (· == 1) fun s p c =>
  match chartAt s p c with
  | none => ackCmd s p c 1
  | some b =>
    if b.saving then ackCmd s p c 2
    else if !b.dispatched || b.seq == .starting then ackCmd s p c 1
    else if s.berths.any (fun x => x.part == p && x.saving) then s
    else
      let r := requestSave s b false
      if r.2 then ackCmd r.1 p c 0 else ackCmd (nextFresh (raiseEvent r.1 p cPREEMPT 0)) p c (Config.freeWord r.1.fresh).toNat

/-- OP 2: the chart or grid ends; a save in progress completes first. ACK is written when the command is acted on, before the draining that it begins has freed
anything: 19 R359 does not say which comes first, and this is the model's choice (log entry 119). -/
def execCmdEndWork (s : State) : Out := withCmd s (· == 2) fun s p c =>
  match chartAt s p c, s.domains.find? (fun d => d.part == p && d.tx == c.tx && d.ty == c.ty && !d.dead) with
  | some b, _ => if b.saving then s else ackCmd (cutChart s b) p c 0
  | none, some d => ackCmd (cutGrid s d) p c 0
  | none, none => ackCmd s p c 1

/-- A save whose record will stand at an address is in progress. -/
def savingAt (s : State) (p va : Nat) : Bool := s.berths.any (fun b => b.part == p && b.saving && headAddr b.rect b.pool == va)

/-- OP 3: the saved chart whose header is at ARG is discarded, with its resume record; a save in progress completes first. -/
def execCmdDiscardSave (s : State) : Out := withCmd s (· == 3) fun s p c =>
  let a := sblkRead s p 0xD0 8
  let x := partAt a.1 p
  if savingAt a.1 p a.2 then a.1
  else
  match x.saved.find? (fun y => y.header.toNat == a.2) with
  | none => ackCmd a.1 p c 1
  | some y =>
    if a.1.berths.any (fun b => b.part == p && b.resume == some y.id) then a.1
    else
      ackCmd
        (dropSaved (setPart a.1 p { x with queues := x.queues.map (fun q => q.filter (fun l => l.saved != some y.id)) }) p y.id) p c 0

/-- Any other OP: nothing but its ACK. -/
def execCmdUnknownOp (s : State) : Out := withCmd s (fun op => op == 0 || decide (3 < op)) fun s p c => ackCmd s p c 3

/-- The row that a new command asks for. -/
def cmdRow (s : State) (p : Nat) : Option Instr :=
  (newCmd s p).map (fun c =>
    match c.op with
    | 1 => .cmdPreemptionSave
    | 2 => .cmdEndWork
    | 3 => .cmdDiscardSave
    | _ => .cmdUnknownOp)

end Sys2Proof.Machine
end

