-- ==== Sys2Proof/Machine/Errors.lean ====
section
/-!
DEFINITION. Errors of links, ports, packages and DRAM banks, and the viral state (21 R388 to R394; 22 R410, R411).
-/
namespace Sys2Proof.Machine

open Sys2Proof

/-- A free place for a record that names no tile or quay. -/
def freePlace (s : State) : Word := Config.freeWord s.fresh &&& 0xFFFFFFFFFFFF

/-! ### The viral state (21 R392, R393) -/

/-- The source of the first FATAL record stands on every die (21 Table 21-4). -/
def fatalDie (src : Nat) (d : Die) : Die :=
  { d with
    viralBit := true, fsrc := if d.fsrc = 0 then src else d.fsrc
    sc := [], l2 := [], rdc := [], wbuf := [], sent := [], cmp := [], trans := [] }

/-- A tile on which every context has ended; an operation under way is left partly done, its token unwritten. -/
def deadTile (t : Tile) : Tile :=
  { t with slots := t.slots.map Slot.ended, ops := [], lock := [], msgOut := [], runq := [], spill := [], heldMsg := none, dom := none, berth := none }

/-- A partition whose queued work, saved charts and pending groups are gone. -/
def deadPart (x : Part) : Part :=
  { x with
    queues := x.queues.map (fun _ => []), saved := [], pendDispatch := [], passed := none
    grps := x.grps.filter (fun g => g.2.formed || g.2.broken) }

/-- What a viral package still answers, and what ends its state: accesses of the host, management commands and resets (21 R393; 22 R395; 23 R416). -/
def Activity.outlives : Activity → Bool
  | .tile _ => false
  | .switch _ => false
  | .event i a =>
    (match a with | .host .. => true | .region .. => true | .mgmt _ => true | _ => false) ||
      decide (i ∈ [Instr.perstAssert, .hotReset, .pf0FunctionLevelReset, .packageResetRequest, .vfFunctionLevelReset, .logClear, .checkpointSave,
        .checkpointRestore])

/-- A block of a die that is dirty in the seal cache may have been being re-sealed: DRAM then keeps the lines written so far, and the block's next opening fails;
which blocks, is free (21 R393; log entry 105). -/
def cutSeals (fresh : Nat) (d : Die) : Die :=
  { d with
    sealMeta := (d.sc.zipIdx.filter (fun e => e.1.2.dirty != 0 && !e.1.2.failed && !e.1.2.frozen && Config.freeBool (fresh + e.2))).foldl
      (fun t e => tblSet t e.1.1 { tblGet SealMeta.reset t e.1.1 with cut := true }) d.sealMeta }

/-- Free values that `cutSeals` takes for a die: one for each block that its seal cache may hold. -/
def freesPerDie : Nat := 2 * sealCacheSize

/-- A management command that has begun ends with 6 (22 R395). -/
def endBegun (m : Mgmt) : Mgmt := if m.seq = m.mstatSeq then m else { m with mstatSeq := m.seq, mstat := 6 }

/-- The package acts on the viral state: contexts end, switches, generators and engines stop, dirty lines are lost, ports that are up have sent their
notice, held launch-window writes are discarded, a save or restore of a checkpoint ends, and nothing more is written (21 R393; 23 Table 23-2). -/
def stopAll (src : Nat) (s : State) : State :=
  { s with
    viral := true
    agenda := s.agenda.filter Activity.outlives
    deferred := s.deferred.filter Activity.outlives
    mgmt := endBegun s.mgmt
    ctl := if s.ctl.ck = 1 ∨ s.ctl.ck = 2 then { s.ctl with ck := 4, ckerr := 5 } else s.ctl
    fresh := s.fresh + 8 * freesPerDie
    tiles := s.tiles.map (fun e => (e.1, deadTile e.2))
    switches := s.switches.map (fun e => (e.1, { e.2 with phase := .idle }))
    quays := s.quays.map (fun e => (e.1, vacateQuay e.1 { e.2 with replay := [], walks := [] }))
    dies := Vector.ofFn (fun i => fatalDie src (cutSeals (s.fresh + i.val * freesPerDie) (vget Die.reset s.dies i.val)))
    parts := s.parts.map (fun e => (e.1, deadPart e.2))
    ports := s.ports.map (fun p => if p.st = .up then { p with st := .notice } else p)
    vfs := s.vfs.map (fun e => (e.1, { e.2 with heldWrites := [] }))
    berths := [], domains := [], net := [], colls := [], recs := [], hawsers := [], bills := [], fetched := [] }

/-- The package enters the viral state on a source that a die detects; it enters only once. -/
def enterViral (s : State) (die src : Nat) : State :=
  if s.viral then s
  else
    stopAll src (nextFresh (logRec s die { recordNow s 0x0C (freePlace s) 0 (BitVec.ofNat 64 src) with fl := 2 }))

/-- WATCHDOG_EXPIRY; no rule names the die whose log the record enters. -/
def execWatchdogExpiry (s : State) : Out := .next (enterViral (nextFresh s) ((Config.freeWord s.fresh).toNat % 8) 5)

/-- POWER_OR_CLOCK_FAULT. -/
def execPowerOrClockFault (s : State) : Out := with1 s fun die => .next (enterViral s die 4)

/-- BASE_DIE_UNCORRECTABLE. -/
def execBaseDieUncorrectable (s : State) : Out := with1 s fun die => .next (enterViral s die 2)

/-- HAWSER_RETRAIN_FAILURE. -/
def execHawserRetrainFailure (s : State) : Out := with1 s fun die => .next (enterViral s die 3)

/-! ### Flits (21 R388, Table 21-6) -/

/-- LINK_FLIT_REPLAY: a replay adds to the path's record: kind of path, index of the path. -/
def execLinkFlitReplay (s : State) : Out := with3 s fun die kind index =>
  let lo : Word := BitVec.ofNat 64 (kind % 16 + index % 2 ^ 16 * 2 ^ 8)
  .next (nextFresh (mergeRec s die (fun r => r.kind == 0x08 && r.lo == lo) (recordNow s 0x08 (freePlace s) 0 lo)))

/-- Lost static words enter the receiving buffer in their order, each poisoned, with data that no rule states: the last `n` of the buffer. Ordinary links
lose no flit (03 Table 3-2). -/
def loseWords (s : State) (pos code n : Nat) : State :=
  if code < 12 ∧ boundarySide pos (code / 3) = true then
    let w := switchAt s pos
    let ws := bufOf w code
    let k := ws.length - n
    { setSwitch s pos (setBuf w code (ws.mapIdx (fun i x => if i < k then x else { data := Config.freeVec (s.fresh + i), poison := true }))) with
      fresh := s.fresh + ws.length }
  else s

/-- The message at an index of the task network has its payload poisoned. -/
def poisonMsg (s : State) (i : Nat) : State :=
  { s with net := s.net.mapIdx (fun j n =>
      if j = i then { n with msg := { n.msg with payload := n.msg.payload.map (fun w => (w.1, true)) } } else n) }

/-- What an atomic carries, poisoned. -/
def AccKind.poisoned : AccKind → AccKind
  | .atom rd op _ v _ => .atom rd op true v true
  | .cas rd o n _ => .cas rd o n true
  | .bari n _ => .bari n true
  | k => k

/-- A control word of a launch arrives poisoned: its record is dropped, and POISON raised to the supervisor of its partition; Table 21-6 names no more than the
poison, and this is the model's choice (log entry 88). -/
def poisonLaunch (s : State) (p q i : Nat) : State :=
  let x := partAt s p
  let l := vget [] x.queues q
  if (l[i]?).any (fun r => r.placed.isNone) then
    nextFresh (raiseEvent (setPart s p { x with queues := vset x.queues q (l.eraseIdx i) }) p cPOISON (Config.freeWord s.fresh))
  else s

/-- A lost flit whose header is recovered (21 Table 21-6). The home of a line of another package acts there (log entry 5). -/
def recoveredLoss (s : State) : LostFlit → State
  | .staticWords pos code n => loseWords s pos code n
  | .lineData l => if homedHere s l then markPoisoned s l 3 else s
  | .lineReply d l => (match tblGet? (dieAt s d).rdc l with | some x => setRdc s d l { x with poison := true } | none => s)
  | .coherence l code => if homedHere s l then breakLine s l code else dropCopies s l
  | .taskMessage i => poisonMsg s i
  | .reply pos k n =>
    let x := slotAt s pos k
    setSlot s pos k { x with replies := x.replies.mapIdx (fun j r => if j = n then { r with poison := true } else r) }
  | .scratchBeat pos u => let t := tileAt s pos; setTile s pos { t with scratchP := memSet t.scratchP u 1 }
  | .atomicOperand pos k id =>
    match accessOf s pos k id with
    | some a => updAccess s pos k { a with kind := a.kind.poisoned }
    | none => s
  | .collective p g r =>
    { s with colls := s.colls.map (fun m => if m.part = p ∧ m.group = g ∧ m.rank = r then { m with poison := true } else m) }
  | .launch p q i => poisonLaunch s p q i

/-- LINK_FLIT_LOST: with no recovered header the package is viral. -/
def execLinkFlitLost (s : State) : Out :=
  match s.arg with
  | .flit die ok f => .next (if s.viral then s else if ok then recoveredLoss s f else enterViral s die 1)
  | _ => .next s

/-! ### Ports (22 R410, R411) and packages that are lost (21 R394) -/

/-- Replace a port. -/
def setPort (s : State) (j : Nat) (p : Port) : State := { s with ports := vset s.ports j p }

/-- The port has learnt that its peer is a package. -/
def Port.meets (p : Port) (pkg : Nat) : Bool := p.known && p.peerPkg.toNat == pkg

/-- A port whose peer is a package can still carry traffic to it: it is UP, or retrains (log entry 74). -/
def reaches (s : State) (pkg : Nat) : Bool := s.ports.toList.any (fun p => (p.st == .up || p.st == .training) && p.meets pkg)

/-- Once no path reaches a package that a port has met, it is lost (21 R394). -/
def checkReach (s : State) (p : Port) : State :=
  if p.known && !reaches s p.peerPkg.toNat then later s .packageLost (.one p.peerPkg.toNat) else s

/-- PORT_TRAINING_START: the peer has still to be learnt. -/
def execPortTrainingStart (s : State) : Out := with1 s fun j =>
  .next (if (portAt s j).st = .down ∧ s.viral = false then setPort s j { portAt s j with st := .training, known := false } else s)

/-- PORT_TRAINING_COMPLETE: the port has learnt its peer and is UP; one that retrained towards another package may have been the last path to it. In the viral state
nothing comes up. -/
def execPortTrainingComplete (s : State) : Out := with3 s fun j pkg port =>
  .next (if (portAt s j).st = .training ∧ s.viral = false then
      checkReach (setPort s j { st := .up, peerPkg := BitVec.ofNat 8 pkg, peerPort := BitVec.ofNat 4 port, known := true }) (portAt s j)
    else s)

/-- PORT_RETRAIN: the port leaves UP; while it trains, routes use the other ports that their entries name. -/
def execPortRetrain (s : State) : Out := with1 s fun j =>
  .next (if (portAt s j).st = .up then setPort s j { portAt s j with st := .training } else s)

/-- PORT_DOWN: once no path reaches the peer that the port had met, that package is lost. -/
def execPortDown (s : State) : Out := with1 s fun j =>
  let p := portAt s j
  .next (if p.st = .up ∨ p.st = .training then checkReach (setPort s j { p with st := .down, known := false }) p else s)

/-- A record of a line whose dirty copy is discarded: to the die log, and to the partitions of the key slot under which it was last written. -/
def discardRec (s : State) (d l : Nat) (o : Origin) : State :=
  let r := recordNow s 0x09 (freePlace s) (BitVec.ofNat 64 (l * 128)) (Config.freeWord s.fresh &&& 0xF)
  nextFresh (match o.key with | some k => keyRec s d k r | none => logRec s d r)

/-- A die's copies of lines homed on a lost package are discarded; each dirty one leaves a record. -/
def discardFrom (pkg : Nat) (s : State) (d : Nat) : State :=
  let y := dieAt s d
  let dirty := ((y.rdc.filter (fun x => pkgOfLine x.1 == pkg && (x.2.st == .M || x.2.st == .O))).map (fun x => (x.1, x.2.orig))) ++
    ((y.wbuf.filter (fun x => pkgOfLine x.1 == pkg && x.2.dirty)).map (fun x => (x.1, x.2.orig)))
  let s1 := setDie s d { y with rdc := y.rdc.filter (fun x => pkgOfLine x.1 != pkg), wbuf := y.wbuf.filter (fun x => pkgOfLine x.1 != pkg) }
  dirty.foldl (fun s x => discardRec s d x.1 x.2) s1

/-- An outstanding access to a line homed on a lost package: a load completes poisoned; anything else raises when it is next tried. -/
def loseLoad (pkg : Nat) (s : State) (pos k : Nat) (a : Access) : State :=
  let w := accessWho s pos k a
  match a.kind.isLoad, isGlobal a.va, lineAt s w a.va.toNat with
  | true, true, some l =>
    if a.stage = .issued ∧ a.kind.isStore = false ∧ inOrder (tileAt s pos) k a = true ∧ pkgOfLine l = pkg then
      lostOnce (performed (nextFresh s) pos k a ((Config.freeVec s.fresh).toNat % 2 ^ (8 * a.size)) true) w l a.va
    else s
  | _, _, _ => s

/-- Every outstanding load of the package to lines homed on a lost package. -/
def loseLoads (pkg : Nat) (s : State) : State :=
  s.tiles.foldl (fun s e => [0, 1, 2, 3].foldl (fun s k => (slotAt s e.1 k).outs.foldl (fun s a => loseLoad pkg s e.1 k a) s) s) s

/-- The members of a lost package are lost to the collectives that run here. -/
def loseMembers (pkg : Nat) (s : State) : State :=
  s.parts.foldl (fun s e =>
    e.2.grps.foldl (fun s g =>
      match g.2.members.findIdx? (fun m => m.pkg == pkg) with
      | some r => later s .memberLoss (.three e.1 g.1 r)
      | none => s) s) s

/-- PACKAGE_LOST. -/
def execPackageLost (s : State) : Out := with1 s fun pkg =>
  .next (if s.lostPkgs.contains pkg || pkg == s.pkg.toNat || s.viral then s
    else
      loseMembers pkg (loseLoads pkg ((List.range 8).foldl (discardFrom pkg) { s with lostPkgs := pkg :: s.lostPkgs })))

/-! ### Refresh back-off (21 R391) -/

/-- A bank that is not blocked. -/
def Bank.reset : Bank := { owed := 0, until_ := 0, queued := 0 }

/-- A back-off adds to the record of its bank: how long it blocks the bank and how many refreshes are owed; no rule says where the bank's cycles are counted from
(21 R391, Table 21-2). -/
def backoffRec (s : State) (d b took owed : Nat) : State :=
  let lo : Word := BitVec.ofNat 64 (b % 2 ^ 8 + took % 2 ^ 11 * 2 ^ 8 + owed % 2 ^ 4 * 2 ^ 20)
  nextFresh (mergeRec s d (fun r => r.kind == 0x0A && bitsOf r.lo 7 0 == b % 2 ^ 8) (recordNow s 0x0A (freePlace s) 0 lo))

/-- A back-off of a bank begins, and owes some refreshes: with 8 it issues them and the mitigation, else the mitigation alone. How long it blocks within its limit is
free. -/
def beginBackoff (s : State) (d b owed : Nat) (x : Bank) : State :=
  let most := if owed = 8 then 8 * 180 + 480 else 480
  let n := (Config.freeWord s.fresh).toNat % (most + 1)
  let y := dieAt s d
  backoffRec (nextFresh (setDie s d { y with banks := tblSet y.banks b { x with until_ := s.cycle.toNat + n } })) d b n owed

/-- Back-offs that a blocked bank queues. -/
def backoffQueue : Nat := 4

/-- One more in the count of a bank's record, for a back-off that merges into the last one queued. -/
def backoffMerged (s : State) (d b : Nat) : State :=
  let y := dieAt s d
  match bumpFirst (fun r => r.kind == 0x0A && bitsOf r.lo 7 0 == b % 2 ^ 8) y.log with
  | some l => setDie s d { y with log := l }
  | none => s

/-- Requests wait still for a bank: they have been asked for in this cycle or the last. -/
def Bank.awaited (s : State) (x : Bank) : Bool := x.waiting.any (fun e => decide (s.cycle.toNat ≤ e.2 + 1))

/-- ROW_ACTIVATION_BACKOFF: it begins, with as many refreshes owed as the controller has postponed, a free number up to 8 (log entry 121); a bank that is blocked, or has still
to serve what waited through a block, queues it, and a fifth merges into the last. Each adds to the bank's record, a queued one when it begins. -/
def execRowActivationBackoff (s : State) : Out := with2 s fun d b =>
  let x := tblGet Bank.reset (dieAt s d).banks b
  let y := dieAt s d
  if s.cycle.toNat < x.until_ ∨ 0 < x.queued ∨ x.awaited s = true then
    .next (if backoffQueue ≤ x.queued then backoffMerged s d b else setDie s d { y with banks := tblSet y.banks b { x with queued := x.queued + 1 } })
  else
    let owed := (Config.freeWord s.fresh).toNat % 9
    .next (beginBackoff (nextFresh s) d b owed { x with owed := if owed = 8 then 0 else owed })

/-- Queued back-offs whose bank is free again, and has served what waited, begin: they owe no refresh. -/
def nextBackoffs (s : State) : State :=
  (List.range 8).foldl (fun s d =>
    (dieAt s d).banks.foldl (fun s e =>
      if 0 < e.2.queued ∧ e.2.until_ ≤ s.cycle.toNat ∧ e.2.awaited s = false then beginBackoff s d e.1 0 { e.2 with queued := e.2.queued - 1 } else s) s) s

end Sys2Proof.Machine
end

