-- ==== Sys2Proof/Machine/Mgmt.lean ====
section
/-!
DEFINITION. The management function: commands, key slots, partitions, modes, link routing, collective groups, attestation (22 R395 to R405, R411 to
R414).
-/
namespace Sys2Proof.Machine

open Sys2Proof

/-! ### Commands (22 R395, R396) -/

/-- Operand Qi of a command, as a number. -/
def qOf (c : MgmtCmd) (i : Nat) : Nat := (c.q.getD i 0).toNat

/-- The PART byte of a command. -/
def partNo (c : MgmtCmd) : Nat := c.part.toNat

/-- A refusal that holds, with its status: the lowest status number is reported (22 R396). -/
def refusal (l : List (Bool × Nat)) : Option Nat :=
  match (l.filter (·.1)).map (·.2) with
  | [] => none
  | x :: xs => some (xs.foldl min x)

/-- The command has ended with a status. -/
def endCmd (s : State) (c : MgmtCmd) (status : Nat) : State :=
  { s with mgmt := { s.mgmt with seq := c.seq, mstatSeq := c.seq, mstat := BitVec.ofNat 8 status }, ctl := { s.ctl with fresh := false } }

/-- A command of a SEQ still waits to begin. -/
def cmdWaits (s : State) (n : BitVec 32) : Bool :=
  (s.agenda ++ s.deferred).any (fun x => match x with | .event _ (.mgmt c) => c.seq == n | _ => false)

/-- What a command does once it begins: it ends with a status, goes on, or waits. -/
inductive CmdEnd where
  | ends (s : State) (status : Nat)
  | goesOn (s : State)
  | waits (s : State)

/-- A command row. A doorbell write with a SEQ that is not the next is ignored; a command waits behind one that has not ended and while a checkpoint
holds it; in the viral state only ATTEST is served (22 R395, R413; 23 R416, R420). -/
def withMgmt (i : Instr) (attest : Bool) (s : State) (ok : MgmtCmd → Bool) (f : State → MgmtCmd → CmdEnd) : Out :=
  match s.arg with
  | .mgmt c =>
    if s.ctl.boot ≠ 3 ∨ ok c = false then .next s
    else if c.seq ≠ s.mgmt.seq + 1 then .next (if cmdWaits s (c.seq - 1) then nextCycle s i s.arg else s)
    else if s.mgmt.seq ≠ s.mgmt.mstatSeq ∨ s.ctl.ck = 1 ∨ s.ctl.ck = 2 then .next (nextCycle s i s.arg)
    else if s.viral ∧ attest = false then .next (endCmd s c 6)
    else
      match f s c with
      | .ends s1 n => .next (endCmd s1 c n)
      | .goesOn s1 => .next { s1 with mgmt := { s1.mgmt with seq := c.seq }, ctl := { s1.ctl with fresh := false } }
      | .waits s1 => .next (nextCycle s1 i s.arg)
  | _ => .next s

/-- A command that either is refused or takes effect as a whole. -/
def whole (s : State) (l : List (Bool × Nat)) (f : State → State) : CmdEnd :=
  match refusal l with
  | some n => .ends s n
  | none => .ends (f s) 0

/-! ### Key slots (22 R397 to R400) -/

/-- A key slot. -/
def keyAt (s : State) (k : Nat) : KeySlot := tblGet KeySlot.reset s.keys k

/-- Replace a key slot. -/
def setKey (s : State) (k : Nat) (x : KeySlot) : State := { s with keys := tblSet s.keys k x }

/-- A generation of a key slot. -/
def KeySlot.inst (x : KeySlot) (g : Nat) : Option (BitVec 256 × BitVec 256) := if g = 0 then x.inst0 else x.inst1

/-- Set or clear a generation. -/
def KeySlot.setInst (x : KeySlot) (g : Nat) (v : Option (BitVec 256 × BitVec 256)) : KeySlot :=
  if g = 0 then { x with inst0 := v } else { x with inst1 := v }

/-- The slot and generation that a command names. -/
def keyOf (c : MgmtCmd) : Nat × Nat := (qOf c 0 % 128, qOf c 0 / 256 % 2)

/-- A partition that is not in NONE. -/
def partExists (s : State) (p : Nat) : Bool := decide (p < 24) && (partAt s p).st != .none

/-- The frozen blocks of a key slot are frozen no longer (06 R138). -/
def unfreeze (s : State) (k : Nat) : State :=
  { s with dies := s.dies.map (fun d => { d with sc := d.sc.map (fun e => (e.1, if e.2.key.toNat = k then { e.2 with frozen := false } else e.2)) }) }

/-- KEY_INSTALL (22 R398). -/
def execKeyInstall (s : State) : Out := withMgmt .keyInstall false s (fun c => c.op == 0x01) fun s c =>
  let p := partNo c
  let (k, g) := keyOf c
  let x := keyAt s k
  whole s
    [(!partExists s p, 4), ((x.inst g).isSome, 3), (x.owner.any (fun o => o != p), 2)]
    fun s =>
      let y := { x.setInst g (some (Config.drawKey s.fresh, Config.drawKey (s.fresh + 1))) with owner := some p }
      let sealIt := qOf c 0 / 512 % 2 == 1 || (x.inst (1 - g)).isNone
      unfreeze (setKey { s with fresh := s.fresh + 2 } k { y with cg := if sealIt then BitVec.ofNat 1 g else x.cg }) k

/-- The generation a block is held or sealed under. -/
def blockGen (s : State) (b : Nat) : Nat :=
  let d := dieAt s (dieOfBlock b)
  match tblGet? d.sc b with
  | some e => e.gen.toNat
  | none => (tblGet SealMeta.reset d.sealMeta b).key.toNat / 128

/-- A line that some cache holds has no holder any more. -/
def vacateLine (s : State) (l : Nat) : State :=
  let m := (metaOf s l).st
  if m = .poisoned ∨ m = .broken ∨ m = .I then s else setMeta (dropCopies s l) l LineMeta.idle

/-- The blocks that a cache of this package holds under a generation of a key slot. -/
def genBlocks (s : State) (k g : Nat) : List Nat := (heldBlocks s (· == k)).filter (fun b => blockGen s b == g)

/-- A block whose generation is dropped has been written back or, failed or frozen, is discarded; what is still sealed under the generation leaves every cache. -/
def closeBlock (g : Nat) (s : State) (b : Nat) : State :=
  let s2 :=
    if (entOf s b).any (fun e => e.failed || e.frozen) then
      (let s2 := eraseEnt s b
       let y := dieAt s2 (dieOfBlock b)
       setDie s2 (dieOfBlock b) { y with l2 := y.l2.filter (fun x => x.1 / 16 != b) })
    else s
  if blockGen s2 b = g then eraseEnt ((blockLines b).foldl vacateLine s2) b else s2

/-- A generation of a key slot, whose blocks have been written back, is dropped (22 R399). -/
def dropGen (s : State) (k g : Nat) : State :=
  let s1 := (genBlocks s k g).foldl (closeBlock g) s
  let x := (keyAt s1 k).setInst g none
  setKey s1 k (if x.inst0.isNone && x.inst1.isNone then { x with owner := none, users := [] } else x)

/-- KEY_DROP. -/
def execKeyDrop (s : State) : Out := withMgmt .keyDrop false s (fun c => c.op == 0x02) fun s c =>
  let (k, g) := keyOf c
  let x := keyAt s k
  match refusal [((x.inst g).isNone, 4), (x.cg.toNat == g && (x.inst (1 - g)).isSome && (x.inst g).isSome, 2)] with
  | some n => .ends s n
  | none => let r := writeBackAll s (genBlocks s k g); if r.2 then .ends (dropGen r.1 k g) 0 else .waits r.1

/-- KEY_SEAL (22 Table 22-2). -/
def execKeySeal (s : State) : Out := withMgmt .keySeal false s (fun c => c.op == 0x03) fun s c =>
  let (k, g) := keyOf c
  whole s [(((keyAt s k).inst g).isNone, 4)] fun s => setKey s k { keyAt s k with cg := BitVec.ofNat 1 g }

/-! ### Running contexts (22 R404) -/

/-- Work of a partition stands on a tile. -/
def tileRuns (t : Tile) : Bool := tileBusy t || t.slots.toList.any (fun x => x.isChart)

/-- A domain or berth is of a partition. -/
def workPart (s : State) (d : Nat) : Option Nat :=
  match berthOf s d, s.domains.find? (fun x => x.id == d) with
  | some b, _ => some b.part
  | none, some x => some x.part
  | none, none => none

/-- The partition has running contexts. -/
def runningContexts (s : State) (p : Nat) : Bool :=
  let x := partAt s p
  s.tiles.any (fun e => tileRuns e.2 && partOf s e.1 == some p) || s.berths.any (fun b => b.part == p) ||
    s.domains.any (fun d => d.part == p && (!d.dead || d.cut)) || !x.saved.isEmpty || x.queues.toList.any (fun q => !q.isEmpty) ||
    s.net.any (fun n => workPart s n.msg.dom == some p) || s.colls.any (fun m => m.part == p) || (x.st != .none && (heldCmd s p).isSome)

/-! ### KEY_SHARE (22 R400) -/

/-- KEY_SHARE, grant. -/
def execKeyShareGrant (s : State) : Out := withMgmt .keyShareGrant false s (fun c => c.op == 0x0D && qOf c 0 / 256 % 2 == 0) fun s c =>
  let p := partNo c
  let k := (keyOf c).1
  let x := keyAt s k
  whole s [(!partExists s p || x.owner.isNone, 4), (x.owner == some p, 2), (x.users.contains p, 3)]
    fun s => setKey s k { x with users := x.users ++ [p] }

/-- KEY_SHARE, revoke. -/
def execKeyShareRevoke (s : State) : Out := withMgmt .keyShareRevoke false s (fun c => c.op == 0x0D && qOf c 0 / 256 % 2 == 1) fun s c =>
  let p := partNo c
  let k := (keyOf c).1
  let x := keyAt s k
  whole s [(!partExists s p || x.owner.isNone || !x.users.contains p, 4), (x.owner == some p, 2), (partExists s p && runningContexts s p, 1)]
    fun s => setKey s k { x with users := x.users.filter (· != p) }

/-! ### Partitions (22 R402, R403, R405) -/

/-- The key slot is owned by a partition other than `p`. -/
def ownedElsewhere (s : State) (k p : Nat) : Bool := (keyAt s k).owner.any (fun o => o != p)

/-- The key slot becomes a partition's. -/
def takeKey (p : Nat) (s : State) (k : Nat) : State := setKey s k { keyAt s k with owner := some p }

/-- PART_CREATE. -/
def execPartCreate (s : State) : Out := withMgmt .partCreate false s (fun c => c.op == 0x04) fun s c =>
  let p := partNo c
  let mask := qOf c 0 % 2 ^ 32
  let nvf := qOf c 1 % 8
  let tk := qOf c 3 % 128
  let ek := qOf c 5 % 128
  whole s
    [(decide (24 ≤ p), 2), ((partAt s p).st != .none, 3), ((List.range 32).any (fun g => mask / 2 ^ g % 2 == 1 && (groupOwner s g).isSome), 2),
      (decide (2 ^ 2 ^ s.pmode ≤ mask) || mask == 0, 2), (nvf == 0 || decide (4 < nvf), 2), (ownedElsewhere s tk p || ownedElsewhere s ek p, 2)]
    fun s =>
      let x : Part :=
        { Part.reset with
          st := .created, groups := BitVec.ofNat 32 mask, nvf := nvf, sblk := BitVec.ofNat 64 (qOf c 2), tkey := BitVec.ofNat 7 tk
          errq := BitVec.ofNat 64 (qOf c 4), errKey := BitVec.ofNat 7 ek }
      setPart (takeKey p (takeKey p s tk) ek) p x

/-- A sealing generation of a key slot is installed. -/
def sealing (s : State) (k : Nat) : Bool := let x := keyAt s k; (x.inst x.cg.toNat).isSome

/-- The boot record enters its queue, marked. -/
def queueBoot (s : State) (p : Nat) (r : List Byte) : Option State :=
  let q := enqueue s p r
  if q.2 ≠ 0 then none
  else
    let x := partAt q.1 p
    let i := le r 1 1 % 4
    let l := vget [] x.queues i
    some (setPart q.1 p { x with st := .running, queues := vset x.queues i (l.mapIdx (fun j e => if j + 1 = l.length then { e with boot := true } else e)) })

/-- PART_START: the boot record is read as a launch window reads one, and the command waits while a read is withheld; a record that cannot be read or queued
refuses the command (log entry 76). -/
def execPartStart (s : State) : Out := withMgmt .partStart false s (fun c => c.op == 0x05) fun s c =>
  let p := partNo c
  let x := partAt s p
  match refusal
      [(!partExists s p, 4), (partExists s p && x.st != .created, 2), (partExists s p && !(sealing s x.tkey.toNat && sealing s x.errKey.toNat), 2)] with
  | some n => .ends s n
  | none =>
    let va := qOf c 0
    if va % 64 ≠ 0 ∨ !isGlobal (BitVec.ofNat 64 va) ∨ Config.localBase < va56 va + recSize then .ends s 2
    else
      let w := schedWho s p (schedPos s p) 0 false .hw
      match seqBytes w.1 w.2 va recSize with
      | .ok s1 r => (match queueBoot (forget s1 .hw) p r with | some s2 => .ends s2 0 | none => .ends (forget s1 .hw) 2)
      | .wait s1 => .waits s1
      | .held s1 x m wr => .waits (notHeld s1 w.2 x m wr)
      | .bad s1 .. => .ends (forget s1 .hw) 2

/-- A key slot that a destroyed partition owned, or was granted. -/
def releaseKey (p : Nat) (s : State) (k : Nat) : State :=
  let x := keyAt s k
  if x.owner = some p then
    let s1 := if x.inst0.isSome then dropGen s k 0 else s
    let s2 := if x.inst1.isSome then dropGen s1 k 1 else s1
    setKey s2 k { keyAt s2 k with owner := none, users := [] }
  else setKey s k { x with users := x.users.filter (· != p) }

/-- PART_DESTROY. -/
def execPartDestroy (s : State) : Out := withMgmt .partDestroy false s (fun c => c.op == 0x06) fun s c =>
  let p := partNo c
  match refusal [(!partExists s p, 4), (partExists s p && runningContexts s p, 1)] with
  | some n => .ends s n
  | none =>
    let r := writeBackAll s (heldBlocks s (fun k => (keyAt s k).owner == some p))
    if r.2 then
      (let s1 := (r.1.keys.map (·.1)).foldl (releaseKey p) r.1
       .ends { s1 with parts := tblErase s1.parts p } 0)
    else .waits r.1

/-- The owner of a group in the map of a MODE_SET. -/
def mapOwner (c : MgmtCmd) (i : Nat) : Nat := qOf c (1 + i / 8) / 2 ^ (8 * (i % 8)) % 256

/-- The groups that a map gives a partition in a mode of `n` groups. -/
def mapGroups (c : MgmtCmd) (n p : Nat) : BitVec 32 := BitVec.ofNat 32 (packFrom 1 (fun i => if i < n && mapOwner c i == p then 1 else 0) 32 0)

/-- MODE_SET. -/
def execModeSet (s : State) : Out := withMgmt .modeSet false s (fun c => c.op == 0x07) fun s c =>
  let mode := qOf c 0 % 8
  let n := 2 ^ mode
  let live := (List.range 24).filter (partExists s)
  let affected := live.filter (fun p => mode != s.pmode || mapGroups c n p != (partAt s p).groups)
  whole s
    [(decide (5 < mode), 2), ((List.range n).any (fun i => mapOwner c i != 0xFF && !partExists s (mapOwner c i)), 2),
      (live.any (fun p => mapGroups c n p == 0), 2), (affected.any (runningContexts s), 1)]
    fun s => live.foldl (fun s p => setPart s p { partAt s p with groups := mapGroups c n p }) { s with pmode := mode }

/-! ### Link routing (22 R411) -/

/-- The port that a ROUTE_SET names for `h`; none for 0xFF. -/
def routePort (c : MgmtCmd) (h : Nat) : Option Nat :=
  let b := qOf c 0 / 2 ^ (8 * (h + 1)) % 256
  if b = 0xFF then none else some b

/-- A port whose peer has been learnt and is a package. -/
def peerIs (s : State) (j pkg : Nat) : Bool := decide (j < 12) && (portAt s j).meets pkg

/-- The ports that beats take to a package, without those of the values of h whose port an entry changes: these move to the next (22 R411). -/
def keptVia (x : Part) (dest : Nat) (ports : List (Option Nat)) : Tbl Nat :=
  x.via.filter (fun e => e.1 / 4 != dest || ((tblGet? x.routes dest).getD []).getD (e.1 % 4) none == ports.getD (e.1 % 4) none)

/-- ROUTE_SET. -/
def execRouteSet (s : State) : Out := withMgmt .routeSet false s (fun c => c.op == 0x08) fun s c =>
  let p := partNo c
  let dest := qOf c 0 % 256
  let ports := (List.range 4).map (routePort c)
  whole s [(!partExists s p, 4), (ports.any (fun j => j.any (fun j => !peerIs s j dest)), 2), (dest == s.pkg.toNat, 2)]
    fun s => let x := partAt s p; setPart s p { x with routes := tblSet x.routes dest ports, via := keptVia x dest ports }

/-! ### Collective groups (22 R412, R413) -/

/-- Bytes that hardware reads at physical addresses, in pieces that lie within a line. -/
def hwBytes : Nat → State → Nat → Nat → Nat → List Byte → Option (State × List Byte)
  | 0, s, _, _, _, acc => some (s, acc)
  | k + 1, s, pa, n, key, acc =>
    let m := min n (128 - pa % 128)
    if n = 0 then some (s, acc)
    else
      match hwRead? s pa m key with
      | none => none
      | some (s1, v) => hwBytes k s1 (pa + m) (n - m) key (acc ++ bytesLE m v)

/-- Rank `r` of a group entry. -/
def memberOf (b : List Byte) (r : Nat) : Member :=
  { mkey := BitVec.ofNat 64 (le b (0x40 + 16 * r) 8), parent := le b (0x48 + 16 * r) 2, pkg := le b (0x4A + 16 * r) 1, port := le b (0x4B + 16 * r) 1 }

/-- A rank is as Table 22-9 asks. -/
def memberOk (s : State) (ms : List Member) (r : Nat) (m : Member) : Bool :=
  m.mkey != 0 && m.mkey.toNat % 16 == 0 && (if r = 0 then m.parent == 0xFFFF else decide (m.parent < r)) &&
    (if m.pkg = s.pkg.toNat then m.port == 0xFF else peerIs s m.port m.pkg) && (ms.filter (fun x => x.pkg == m.pkg && x.mkey == m.mkey)).length == 1

/-- A COLL on a group is in flight here. -/
def groupBusy (s : State) (p g : Nat) : Bool := s.colls.any (fun m => m.part == p && m.group == g)

/-- The EPOCH that a new entry of a group must exceed. -/
def epochOf (x : Part) (g : Nat) : Option Nat :=
  match tblGet? x.grps g, tblGet? x.epochs g with
  | some e, _ => some e.epoch.toNat
  | none, some e => some e.toNat
  | none, none => none

/-- Lines of physical memory may be read for a command, or else what is done for that. -/
def bytesTurn (s : State) (pa n key : Nat) : Option State := if n = 0 then none else hwTurn s (linesAt pa n) key false

/-- GROUP_FORM: the entry is installed as pending. -/
def execGroupForm (s : State) : Out := withMgmt .groupForm false s (fun c => c.op == 0x09) fun s c =>
  let p := partNo c
  let g := qOf c 0 % 256
  let x := partAt s p
  if !partExists s p then .ends s 4
  else if groupBusy s p g then .ends s 1
  else
    match bytesTurn s (qOf c 1) 64 x.tkey.toNat, hwBytes 2 s (qOf c 1) 64 x.tkey.toNat [] with
    | some s1, _ => .waits s1
    | none, none => .ends s 2
    | none, some (s1, h) =>
      let n := le h 2 2
      match bytesTurn s1 (qOf c 1 + 64) (16 * min n 1024) x.tkey.toNat with
      | some s2 => .waits s2
      | none =>
      match hwBytes 140 s1 (qOf c 1 + 64) (16 * min n 1024) x.tkey.toNat h with
      | none => .ends s1 2
      | some (s2, b) =>
        let ms := (List.range (min n 1024)).map (memberOf b)
        let epoch := le b 4 4
        if le b 0 1 ≠ g ∨ n < 2 ∨ 1024 < n ∨ (epochOf x g).any (fun e => decide (epoch ≤ e)) ∨
            (ms.zipIdx.all (fun m => memberOk s ms m.2 m.1)) = false then .ends s2 2
        else
          let y := partAt s2 p
          let e : Group :=
            { epoch := BitVec.ofNat 32 epoch, members := ms, formed := false, broken := false, seqs := [], since := s.cycle.toNat, cmdSeq := c.seq }
          .goesOn (setPart s2 p { y with grps := tblSet y.grps g e })

/-- A pending group and the SEQ of its command. -/
def pendingGroup (s : State) (p g : Nat) : Option Group := (tblGet? (partAt s p).grps g).filter (fun e => !e.formed && !e.broken)

/-- GROUP_FORMED: every package holds the same digest. -/
def execGroupFormed (s : State) : Out := with2 s fun p g =>
  match pendingGroup s p g with
  | none => .next s
  | some e =>
    let x := partAt s p
    .next
      { setPart s p { x with grps := tblSet x.grps g { e with formed := true, seqs := [] } } with
        mgmt := { s.mgmt with mstatSeq := e.cmdSeq, mstat := 0 } }

/-- GROUP_FORM_TIMEOUT. -/
def execGroupFormTimeout (s : State) : Out := with2 s fun p g =>
  match pendingGroup s p g with
  | none => .next s
  | some e =>
    if s.cycle.toNat < e.since + Config.groupFormLimit then .next s
    else
      .next (notFormed s p g e)

/-- GROUP_DROP: the EPOCH of the entry is kept. -/
def execGroupDrop (s : State) : Out := withMgmt .groupDrop false s (fun c => c.op == 0x0A) fun s c =>
  let p := partNo c
  let g := qOf c 0 % 256
  let x := partAt s p
  match tblGet? x.grps g with
  | none => .ends s 4
  | some e =>
    whole s [(!partExists s p, 4), (groupBusy s p g, 1)] fun s => setPart s p { x with grps := tblErase x.grps g, epochs := tblSet x.epochs g e.epoch }

/-! ### BLOCK_INIT (22 Table 22-2; 18 R335) -/

/-- The units of a held bank from number `n` on are written to its record, `k` of them at most, each once; a refused one is lost (log entry 104). -/
def copyUnits (w : Who) (h : HeldBank) : Nat → State → Nat → SeqAns Unit
  | 0, s, _ => .ok s ()
  | k + 1, s, n =>
    match bankUnit (tileAt s h.pos) n with
    | none => .ok s ()
    | some (off, v) =>
      match accessOnce s w (h.addr + off) 64 .store (fun _ _ => .put v (fullMask 64) false) with
      | .ok s1 _ _ => copyUnits w h k s1 (n + 1)
      | .bad s1 _ => copyUnits w h k s1 (n + 1)
      | .wait s1 => .wait s1
      | .held s1 m => .held s1 (h.addr + off) m true

/-- The banks whose records have blocks of a kind are copied into them, `k` of them at most (19 R357). -/
def copyBanks (mine : Nat → Nat → Bool) : Nat → State → SeqAns Unit
  | 0, s => .ok s ()
  | k + 1, s =>
    match bankOf s 0 .hw mine (heldBanks s (fun _ => true)) with
    | none => .wait s
    | some none => .ok s ()
    | some (some h) =>
      match sblkTurn s h.part false with
      | some s1 => .wait s1
      | none =>
      let w := bankWho s h 0 .hw
      match copyUnits w.2 h 16416 w.1 0 with
      | .ok s1 _ => copyBanks mine k (forget (releaseBank s1 h) .hw)
      | r => r

/-- Blocks from one on are initialised, `n` of them, in ascending order; a frozen one is left as it is. One that its bank, a running transaction or a full seal cache keeps
waiting is answered with the state and what is left. -/
def initBlocks (k : Nat) : Nat → State → Nat → State × Bool
  | 0, s, _ => (s, true)
  | n + 1, s, b =>
    if (entOf s b).any (·.frozen) then initBlocks k n s (b + 1)
    else if !blockIdle s b then (s, false)
    else if bankBlocked s b then (bankWaits s b, false)
    else
      let room := if (entOf s b).isSome then (s, true) else sealRoom s b
      if room.2 then initBlocks k n (initBlock room.1 b k) (b + 1) else (room.1, false)

/-- BLOCK_INIT: every block in ascending address, once the banks whose records lie there have been copied (19 R357); a frozen block is left as it is. -/
def execBlockInit (s : State) : Out := withMgmt .blockInit false s (fun c => c.op == 0x0B) fun s c =>
  let pa := qOf c 0
  let n := qOf c 1
  let k := qOf c 2 % 128
  match refusal
      [(pa % 2048 != 0 || n == 0 || decide (2 ^ 20 < n), 2), (!(populated s none pa && populated s none (pa + 2048 * n - 1)), 2)] with
  | some m => .ends s m
  | none =>
    match copyBanks (fun x _ => decide (pa / 2 ^ 16 ≤ x / 2 ^ 16 ∧ x / 2 ^ 16 ≤ (pa + 2048 * n - 1) / 2 ^ 16)) (heldBanks s (fun _ => true)).length s with
    | .ok s1 _ => let r := initBlocks k n s1 (blockOf pa); if r.2 then .ends r.1 0 else .waits r.1
    | .wait s1 => .waits s1
    | .held s1 .. => .waits s1
    | .bad s1 .. => .waits s1

/-! ### Attestation (22 R414) -/

/-- REPORT with bytes written from its start. -/
def putReport (s : State) (bs : List Byte) : State := { s with mgmt := { s.mgmt with report := bs ++ s.mgmt.report.drop bs.length } }

/-- PART of an ATTEST is none, or a partition number: 24 to 254 are refused with 2, as an operand out of its range, and a partition in NONE is served; no rule says
either, and this is the model's choice (log entry 80). -/
def attestPart (c : MgmtCmd) : Bool := decide (partNo c < 24) || partNo c == 0xFF

/-- ATTEST with IDENT = 1. -/
def execAttestIdentity (s : State) : Out := withMgmt .attestIdentity true s (fun c => c.op == 0x0C && qOf c 4 % 2 == 1) fun s c =>
  whole s [(!attestPart c, 2)] fun s => putReport s Config.identity

/-- The bytes of a group entry. -/
def groupBytes (g : Nat) (e : Group) : List Byte :=
  bytesLE 1 g ++ bytesLE 1 0 ++ bytesLE 2 e.members.length ++ bytesLE 4 e.epoch.toNat ++ bytesLE 56 0 ++
    e.members.flatMap (fun m => bytesLE 8 m.mkey.toNat ++ bytesLE 2 m.parent ++ bytesLE 1 m.pkg ++ bytesLE 1 m.port ++ bytesLE 4 0)

/-- The bytes of a link routing whose digest ROUTES is: of each entry, in the order of destinations, the destination and its four ports, 0xFF for none. No rule gives
them, and this is the model's choice (log entry 80). -/
def routeBytes (x : Part) : List Byte :=
  x.routes.flatMap (fun e => bytesLE 1 e.1 ++ (List.range 4).flatMap (fun h => bytesLE 1 ((e.2.getD h none).getD 0xFF)))

/-- The signed bytes of a report. -/
def reportBody (s : State) (c : MgmtCmd) : List Byte :=
  let p := partNo c
  let x := partAt s p
  let mine := fun (k : Nat) => p != 0xFF && (keyUsers s k).contains p
  bytesLE 4 1 ++ bytesLE 4 s.mgmt.leaf ++ (List.range 4).flatMap (fun i => bytesLE 8 (qOf c i)) ++ bytesLE 32 s.ctl.fwdig.toNat ++
    bytesLE 1 s.pkg.toNat ++ bytesLE 1 s.pmode ++ bytesLE 1 ((if s.viral then 1 else 0) + (if s.testMode then 2 else 0)) ++ bytesLE 1 p ++
    bytesLE 4 (s.mgmt.leavesLeft - 1) ++
    (List.range 32).flatMap (fun g => bytesLE 1 (if 2 ^ s.pmode ≤ g then 0xFF else (groupOwner s g).getD 0xFF)) ++
    bytesLE 16 (packFrom 1 (fun k => if mine k then 1 else 0) 128 0) ++ bytesLE 32 (shake256 (routeBytes x)).toNat ++
    bytesLE 32 (shake256 (x.grps.flatMap (fun e => groupBytes e.1 e.2))).toNat

/-- ATTEST with IDENT = 0: a fresh leaf signs the report. -/
def execAttestReport (s : State) : Out := withMgmt .attestReport true s (fun c => c.op == 0x0C && qOf c 4 % 2 == 0) fun s c =>
  whole s [(!attestPart c, 2), (decide (s.mgmt.leavesLeft = 0), 5)]
    fun s =>
      let body := reportBody s c
      let s1 := putReport s (body ++ (Config.xmssSign s.mgmt.leaf body ++ List.replicate 2820 0).take 2820)
      { s1 with mgmt := { s1.mgmt with leaf := s1.mgmt.leaf + 1, leavesLeft := s1.mgmt.leavesLeft - 1 } }

/-- MGMT_UNKNOWN_OP: an OP that is not in the table. -/
def execMgmtUnknownOp (s : State) : Out :=
  withMgmt .mgmtUnknownOp false s (fun c => c.op == 0 || decide (0x0D < c.op.toNat)) fun s _ => .ends s 2

end Sys2Proof.Machine
end

