-- ==== Sys2Proof/Machine/HostLink.lean ====
section
/-!
DEFINITION. The host's apertures and interrupt vectors (22 R406 to R409; 21 R393).
-/
namespace Sys2Proof.Machine

open Sys2Proof

/-- The host receives an answer. -/
def answer (s : State) (a : HostAnswer) : State := { s with hostOut := s.hostOut ++ [a] }

/-- The size and alignment of an aperture access, within an aperture of a length (22 R408). -/
def hostShape (h : HostAccess) (len : Nat) : Bool :=
  (h.size == 1 || h.size == 2 || h.size == 4 || h.size == 8 || h.size == 16 || h.size == 32 || h.size == 64) && h.off % h.size == 0 &&
    decide (h.off + h.size ≤ len)

/-- A read is aborted; a write is discarded. -/
def hostFails (s : State) (h : HostAccess) : State := answer s (if h.write then .done else .completerAbort)

/-- What a host access does to memory: a write onto a Poisoned line is discarded. -/
def hostUpd (h : HostAccess) (_ : Nat) (p : Bool) : Upd :=
  if h.write then (if p then .refuse cPOISON else .put (ofBytesLE h.data) (fullMask h.size) false) else .keep

/-- The access has been answered. -/
def hostAnswered (h : HostAccess) (s : State) (v : Nat) (poison : Bool) : State :=
  if h.write then answer s .done else if poison then answer s .completerAbort else answer s (.data (bytesLE h.size v))

/-- An access through the virtual aperture of a function. -/
def isVapt (vf : Nat) : Activity → Bool
  | .event .vaptAccess (.host v _) => v == vf
  | _ => false

/-- An access through the physical aperture. -/
def isPapt : Activity → Bool
  | .event .paptAccess _ => true
  | _ => false

/-! ### Regions of registers (22 Tables 22-1, 22-8; 00 R6, R7) -/

/-- The bytes of an access in a region of 64-bit registers. -/
def regionBytes (word : Nat → Word) (h : HostAccess) : List Byte :=
  (List.range h.size).map (fun i => BitVec.ofNat 8 ((word ((h.off + i) / 8)).toNat / 2 ^ (8 * ((h.off + i) % 8))))

/-- What a write brings to register `k`, zero in the bytes that it does not write. -/
def regionData (h : HostAccess) (k : Nat) : Word :=
  BitVec.ofNat 64 (packFrom 8 (fun i => if h.off ≤ 8 * k + i ∧ 8 * k + i < h.off + h.size then (h.data.getD (8 * k + i - h.off) 0).toNat else 0) 8 0)

/-- The bits of register `k` that a write writes. -/
def regionMask (h : HostAccess) (k : Nat) : Word :=
  BitVec.ofNat 64 (packFrom 8 (fun i => if h.off ≤ 8 * k + i ∧ 8 * k + i < h.off + h.size then 255 else 0) 8 0)

/-- A write to each register it covers, in ascending order. -/
def regionWrite (set : State → Nat → Word → Word → State) (h : HostAccess) (s : State) : State :=
  (List.range ((h.size + 7) / 8)).foldl (fun s i => let k := h.off / 8 + i; set s k (regionMask h k) (regionData h k)) s

/-- An access of the host to a region: sizes and alignment as in an aperture (log entry 105). -/
def regionAccess (s : State) (len : Nat) (word : Nat → Word) (set : State → Nat → Word → Word → State) (h : HostAccess) : State :=
  if !hostShape h len then answer s .unsupported
  else if h.write then answer (regionWrite set h s) .done
  else answer s (.data (regionBytes word h))

/-- The writable bits of APBASE. -/
def apbaseMask : Word := 0xFFFFFFFFF00000

/-- The words of the MSI-X table and of the pending-bit array in the region of a function. Table 22-8 gives their place and no layout: the entries are those of PCI
Express, and the array stands in the second half (log entry 122). -/
def msixWord : Nat := 0x10000
def pbaWord : Nat := 0x10200

/-- An entry's address, or its data and vector control. -/
def msixRead (x : Vf) (k : Nat) : Word :=
  let e := vget MsixEnt.reset x.msix (k / 2)
  if k % 2 = 0 then e.addr else BitVec.ofNat 64 (e.data.toNat + e.ctrl.toNat * 2 ^ 32)

/-- The registers of a virtual function: LSTAT, APBASE, WATCH1 to WATCH3, and those of MSI-X; the rest reads zero. -/
def vfWord (x : Vf) (k : Nat) : Word :=
  if msixWord ≤ k ∧ k < msixWord + 8 then msixRead x (k - msixWord)
  else if k = pbaWord then x.pending.setWidth 64
  else
  match k with
  | 1 => BitVec.ofNat 64 (x.served.toNat * 2 ^ 32 + x.status.toNat)
  | 2 => x.apbase
  | 3 => vget 0 x.watch 0
  | 4 => vget 0 x.watch 1
  | 5 => vget 0 x.watch 2
  | _ => 0

/-- A watched record is named anew: nothing of it has been seen. -/
def setWatch (s : State) (vf k : Nat) (m v : Word) : State :=
  let x := vfAt s vf
  setVf s vf { x with watch := vset x.watch k (under m (vget 0 x.watch k) v), seen := vset x.seen k none, reg := vset x.reg k none }

/-- A vector whose bit of the pending-bit array is set fires once nothing masks it any more. -/
def firePending (s : State) (vf k : Nat) : State :=
  let x := vfAt s vf
  if x.pending.getLsbD k && !(vget MsixEnt.reset x.msix k).ctrl.getLsbD 0 then fireVector (setVf s vf { x with pending := bitSet x.pending k false }) vf k
  else s

/-- The bits of an entry that a write writes: a doubleword-aligned address, the data, and the mask bit. -/
def msixMask (k : Nat) : Word := if k % 2 = 0 then 0xFFFFFFFFFFFFFFFC else 0x1FFFFFFFF

/-- A write to a word of the MSI-X table. -/
def setMsix (s : State) (vf k : Nat) (m v : Word) : State :=
  let x := vfAt s vf
  let e := vget MsixEnt.reset x.msix (k / 2)
  let w := under (m &&& msixMask k) (msixRead x k) v
  let e1 := if k % 2 = 0 then { e with addr := w } else { e with data := w.setWidth 32, ctrl := (w >>> 32).setWidth 32 }
  firePending (setVf s vf { x with msix := vset x.msix (k / 2) e1 }) vf (k / 2)

/-- A write to a register of a virtual function; one to the whole of LWIN is a launch-window write. -/
def setVfWord (vf : Nat) (s : State) (k : Nat) (m v : Word) : State :=
  if msixWord ≤ k ∧ k < msixWord + 8 then setMsix s vf (k - msixWord) m v
  else
  match k with
  | 0 => if m = 0xFFFFFFFFFFFFFFFF then later s .launchWindowWrite (.two vf v.toNat) else s
  | 2 => let x := vfAt s vf; setVf s vf { x with apbase := under (m &&& apbaseMask) x.apbase v }
  | 3 => setWatch s vf 0 m v
  | 4 => setWatch s vf 1 m v
  | 5 => setWatch s vf 2 m v
  | _ => s

/-- DSYNSTAT of a die (21 Table 21-4). -/
def dsynstat (d : Die) : Word :=
  BitVec.ofNat 64 ((if d.viralBit then 2 ^ 63 else 0) + d.fsrc % 2 ^ 8 * 2 ^ 40 + min d.logLost 0xFFFF * 2 ^ 24 + d.log.length % 2 ^ 9 * 2 ^ 8)

/-- A write to DSYNSTAT: VIRAL clears by a 1, LOST is replaced (21 Table 21-4; 00 Table 0-4). -/
def setDsynstat (s : State) (i : Nat) (m v : Word) : State :=
  let d := dieAt s i
  let lost := bitsOf (under (m &&& 0xFFFF000000) (BitVec.ofNat 64 (min d.logLost 0xFFFF * 2 ^ 24)) v) 39 24
  setDie s i { d with viralBit := d.viralBit && !(v.getLsbD 63), logLost := lost }

/-- PORTST of a port (22 Tables 22-1, 22-7): the peer is reported from UP onward. -/
def portst (p : Port) : Word :=
  let code := match p.st with | .down => 0 | .training => 1 | .up => 2 | .notice => 3
  BitVec.ofNat 64 ((if code < 2 then 0 else p.peerPort.toNat * 2 ^ 16 + p.peerPkg.toNat * 2 ^ 8) + code)

/-- The writable bits of PAW. -/
def pawMask : Word := 0xFFFFFFFFF7F01

/-- The registers of the management region; it reads zero unless the package is ready (22 Table 22-1; 23 R417). -/
def mgmtWord (s : State) (k : Nat) : Word :=
  let m := s.mgmt
  if s.ctl.boot ≠ 3 then 0
  else if k < 32 then vget 0 m.cmd k
  else if k = 33 then BitVec.ofNat 64 (m.mstatSeq.toNat * 2 ^ 32 + m.mstat.toNat)
  else if k = 34 then m.paw
  else if 64 ≤ k ∧ k < 72 then dsynstat (dieAt s (k - 64))
  else if 72 ≤ k ∧ k < 84 then portst (portAt s (k - 72))
  else if 512 ≤ k ∧ k < 1024 then BitVec.ofNat 64 (ofBytesLE ((m.report.drop (8 * (k - 512))).take 8))
  else 0

/-- The row of a command. -/
def mgmtRow (op q0 q4 : Nat) : Instr :=
  match op with
  | 0x01 => .keyInstall
  | 0x02 => .keyDrop
  | 0x03 => .keySeal
  | 0x04 => .partCreate
  | 0x05 => .partStart
  | 0x06 => .partDestroy
  | 0x07 => .modeSet
  | 0x08 => .routeSet
  | 0x09 => .groupForm
  | 0x0A => .groupDrop
  | 0x0B => .blockInit
  | 0x0C => if q4 % 2 = 1 then .attestIdentity else .attestReport
  | 0x0D => if q0 / 256 % 2 = 1 then .keyShareRevoke else .keyShareGrant
  | _ => .mgmtUnknownOp

/-- DOORBELL: the command block as it stands becomes a command (22 R395). -/
def doorbell (s : State) (seq : BitVec 32) : State :=
  let w := fun i => vget 0 s.mgmt.cmd i
  let c : MgmtCmd :=
    { op := (w 0).setWidth 16, seq := seq, part := BitVec.ofNat 8 (bitsOf (w 0) 23 16), q := (List.range 31).map (fun i => w (i + 1)) }
  later s (mgmtRow c.op.toNat (w 1).toNat (w 5).toNat) (.mgmt c)

/-- A write to a register of the management region. -/
def setMgmtWord (s : State) (k : Nat) (m v : Word) : State :=
  if s.ctl.boot ≠ 3 then s
  else if k < 32 then
    { s with mgmt := { s.mgmt with cmd := vset s.mgmt.cmd k (under (if k = 0 then m &&& 0xFFFFFF else m) (vget 0 s.mgmt.cmd k) v) } }
  else if k = 32 then (if m &&& 0xFFFFFFFF = 0xFFFFFFFF then doorbell s (v.setWidth 32) else s)
  else if k = 34 then { s with mgmt := { s.mgmt with paw := under (m &&& pawMask) s.mgmt.paw v } }
  else if 64 ≤ k ∧ k < 72 then setDsynstat s (k - 64) m v
  else s

/-! ### Apertures (22 R408) -/

/-- VAPT_ACCESS: an access through the virtual aperture of a function is translated as in the user view and never held (22 R408); one to the registers of its
region takes effect under their access codes (22 Table 22-8). -/
def execVaptAccess (s : State) : Out :=
  match s.arg with
  | .host vf h =>
    if s.viral then .next (hostFails s h)
    else if !vfEnabled s vf then .next (answer s .unsupported)
    else if !hostShape h (2 ^ 20) then .next (answer s .unsupported)
    else
      let va := (vfAt s vf).apbase.toNat + h.off
      if !isGlobal (BitVec.ofNat 64 va) then .next (hostFails s h)
      else
        match sblkTurn s (vf / 4) false with
        | some s1 => .next (putOff s1 .vaptAccess (isVapt vf))
        | none =>
        let w := hostWho s vf
        match memAccess w.1 w.2 va h.size (if h.write then .store else .load) (hostUpd h) with
        | .ok s1 v p => .next (hostAnswered h s1 v p)
        | .wait s1 => .next (putOff s1 .vaptAccess (isVapt vf))
        | .held s1 m => .next (hostFails (notHeld s1 w.2 va m h.write) h)
        | .bad s1 _ => .next (hostFails s1 h)
  | .region vf h =>
    .next (if s.viral then hostFails s h
      else if !vfEnabled s vf then answer s .unsupported
      else regionAccess s 0x82000 (vfWord (vfAt s vf)) (setVfWord vf) h)
  | _ => .next s

/-- The agent of the physical aperture. -/
def paptWho (s : State) : Who :=
  { pos := schedPos s 0, slot := none, quay := transQuay (schedPos s 0), asid := 0, root := 0, sup := false, part := none, cls := 0 }

/-- PAPT_ACCESS: an access through the physical aperture is not translated, and is made under the key slot of PAW (22 R408). Of an address that is not populated no rule
speaks: a read ends with Completer Abort and a write is discarded, as where nothing can be reached, which is the model's choice (log entry 105). One to the management region takes
effect under its access codes, in the viral state too (22 Table 22-1; 21 R393). -/
def execPaptAccess (s : State) : Out :=
  match s.arg with
  | .host _ h =>
    let paw := s.mgmt.paw
    if s.viral then .next (hostFails s h)
    else if s.ctl.boot ≠ 3 ∨ paw.getLsbD 0 = false ∨ hostShape h (2 ^ 16) = false then .next (answer s .unsupported)
    else
      let pa := bitsOf paw 51 16 * 2 ^ 16 + h.off
      if !populated s none pa then .next (hostFails s h)
      else
        match physAccess s (paptWho s) pa h.size (bitsOf paw 14 8) (if h.write then .store else .load) (hostUpd h) with
        | .ok s1 v p => .next (hostAnswered h s1 v p)
        | .wait s1 => .next (putOff s1 .paptAccess isPapt)
        | .held s1 _ => .next (hostFails s1 h)
        | .bad s1 _ => .next (hostFails s1 h)
  | .region _ h => .next (regionAccess s 0x10000 (mgmtWord s) setMgmtWord h)
  | _ => .next s

/-! ### Interrupt vectors (22 R409) -/

/-- The function is registered at the home quay of a watched record, or where nothing of it can be read. -/
def watchAt (s : State) (w : Who) (vf k va : Nat) : State :=
  let x := vfAt s vf
  setVf s vf { x with reg := vset x.reg (k - 1) (some ((paAt s w va).getD unreadable)) }

/-- Vector `k` of a function has still to fire, or its record to be read, the function not being registered there. -/
def watchDue (s : State) (vf k : Nat) : Bool :=
  let x := vfAt s vf
  vfEnabled s vf && (vget 0 x.due (k - 1) != 0 || (vget 0 x.watch (k - 1) != 0 && (vget none x.reg (k - 1)).isNone))

/-- A function's watched record is read where it has not registered since; its generation where it has been read (22 R409). -/
def watched (s : State) (vf k : Nat) : State × Option (BitVec 32) :=
  let va := (vget 0 (vfAt s vf).watch (k - 1)).toNat
  if (vget none (vfAt s vf).reg (k - 1)).isSome ∨ va = 0 ∨ va % 16 ≠ 0 ∨ !isGlobal (BitVec.ofNat 64 va) then (s, none)
  else
    let w := hostWho s vf
    match memAccess w.1 w.2 va 16 .load readOnly with
    | .ok s1 v p => (watchAt s1 w.2 vf k va, if p then none else some (BitVec.ofNat 32 v))
    | .wait s1 => (s1, none)
    | .held s1 m => (watchAt (notHeld s1 w.2 va m false) w.2 vf k va, none)
    | .bad s1 _ => (watchAt s1 w.2 vf k va, none)

/-- One of the changes for which vector `k` has still to fire. -/
def fireDue (s : State) (vf k : Nat) : State :=
  let x := vfAt s vf
  match vget 0 x.due (k - 1) with
  | 0 => s
  | n + 1 => fireVector (setVf s vf { x with due := vset x.due (k - 1) n }) vf k

/-- What a read of a watched record has found: the first read after the watch is set only notes the generation, and another than was seen is a change. -/
def noteGen (s : State) (vf k : Nat) (g : BitVec 32) : State :=
  let x := vfAt s vf
  let changed := (vget none x.seen (k - 1)).any (fun old => old != g)
  setVf s vf { x with seen := vset x.seen (k - 1) (some g), due := vset x.due (k - 1) (vget 0 x.due (k - 1) + (if changed then 1 else 0)) }

/-- WATCH_VECTOR: vector `k` fires once for each change of generation (22 R409). -/
def execWatchVector (s : State) : Out := with2 s fun vf k =>
  if !vfEnabled s vf || s.viral || k == 0 || decide (3 < k) then .next s
  else
    match sblkTurn s (vf / 4) false with
    | some s1 => .next s1
    | none =>
      let r := watched s vf k
      .next (fireDue (match r.2 with | none => r.1 | some g => noteGen r.1 vf k g) vf k)

end Sys2Proof.Machine
end

