-- ==== Sys2Proof/Machine/VectorFp.lean ====
section
/-!
DEFINITION. Vector floating-point instructions: major opcodes 0x11 to 0x17 without VTBL and the integer reductions (10 R222 to R233).
-/
namespace Sys2Proof.Machine

open Sys2Proof

/-- Element `k` of source `j` as an operand under FTZ (04 R84). -/
def fel (R : Rnd) (F : Fmt) (o : Ops) (j k : Nat) : FVal := operandF F R.ftz (elem (o.vec j) F.width k)

/-- Source element `k` of source `j` is normal-safe when raised by `e` (10 R219). -/
def felSafe (R : Rnd) (F : Fmt) (o : Ops) (j k e : Nat) : Bool := normalSafe F R.ftz e (elem (o.vec j) F.width k)

/-- A two-operand element. -/
def elem2 (R : Rnd) (F : Fmt) (o : Ops) (k : Nat) (f : FVal → FVal → Exact × BitVec 6) (raise : Nat) : ElemIn :=
  let a := fel R F o 0 k
  let b := fel R F o 1 k
  { exact := f a b, finite := !a.special && !b.special, safe := felSafe R F o 0 k 1 && felSafe R F o 1 k 1, raise := raise }

/-! ### Major opcode 0x11 (10 Table 10-5) -/

/-- VADD: a + b. -/
def execVaddF (g : BitVec 3) (d a b : BitVec 5) (m : BitVec 3) (t : BitVec 2) (s : State) : Out :=
  floatOp (.vaddF g d a b m t) d (fmtOf t.toNat) (fun s => govern s m)
    (fun R o k => elem2 R (fmtOf t.toNat) o k (exactAdd R) 1) s

/-- VSUB: a − b. -/
def execVsubF (g : BitVec 3) (d a b : BitVec 5) (m : BitVec 3) (t : BitVec 2) (s : State) : Out :=
  floatOp (.vsubF g d a b m t) d (fmtOf t.toNat) (fun s => govern s m)
    (fun R o k => elem2 R (fmtOf t.toNat) o k (fun x y => exactAdd R x y.neg) 1) s

/-- VMUL: a × b. -/
def execVmulF (g : BitVec 3) (d a b : BitVec 5) (m : BitVec 3) (t : BitVec 2) (s : State) : Out :=
  floatOp (.vmulF g d a b m t) d (fmtOf t.toNat) (fun s => govern s m)
    (fun R o k => elem2 R (fmtOf t.toNat) o k exactMul 2) s

/-- VDIV: a / b. -/
def execVdiv (g : BitVec 3) (d a b : BitVec 5) (m : BitVec 3) (t : BitVec 2) (s : State) : Out :=
  floatOp (.vdiv g d a b m t) d (fmtOf t.toNat) (fun s => govern s m)
    (fun R o k => elem2 R (fmtOf t.toNat) o k exactDiv 0) s

/-- VSQRT: √a. -/
def execVsqrt (g : BitVec 3) (d a : BitVec 5) (m : BitVec 3) (t : BitVec 2) (s : State) : Out :=
  floatOp (.vsqrt g d a m t) d (fmtOf t.toNat) (fun s => govern s m)
    (fun R o k =>
      let F := fmtOf t.toNat
      let x := fel R F o 0 k
      { exact := exactSqrt x, finite := !x.special, safe := felSafe R F o 0 k 2, raise := 1 }) s

/-- VMIN and VMAX: no RoundTo, no flag, no flush (10 R222). -/
def minMaxOp (i : Instr) (d : BitVec 5) (m : BitVec 3) (F : Fmt) (isMax : Bool) (s : State) : Out :=
  runCore i s (fun o s =>
    let w := F.width
    let act := activeElems (govern s m) w
    let res := fun k => minMaxF F isMax (elem (o.vec 0) w k) (elem (o.vec 1) w k)
    let ok := fun k => normalSafe F false 1 (elem (o.vec 0) w k) && normalSafe F false 1 (elem (o.vec 1) w k) &&
      normalSafe F false 1 (res k)
    shadowed s true (act.any ok) ((act.filter (fun k => !ok k)).length)
      (fun s => setVKeep s d (laneBits (govern s m)) (packVec w (512 / w) res) o.anyPsn))

/-- VMIN. -/
def execVminF (g : BitVec 3) (d a b : BitVec 5) (m : BitVec 3) (t : BitVec 2) (s : State) : Out :=
  minMaxOp (.vminF g d a b m t) d m (fmtOf t.toNat) false s

/-- VMAX. -/
def execVmaxF (g : BitVec 3) (d a b : BitVec 5) (m : BitVec 3) (t : BitVec 2) (s : State) : Out :=
  minMaxOp (.vmaxF g d a b m t) d m (fmtOf t.toNat) true s

/-! ### Major opcode 0x12: no mask (10 R223) -/

/-- ± a × b + c, rounded once. -/
def fmaOp (i : Instr) (d : BitVec 5) (F : Fmt) (negate : Bool) (s : State) : Out :=
  floatOp i d F (fun _ => 0xFFFF)
    (fun R o k =>
      let a := fel R F o 0 k
      let b := fel R F o 1 k
      let c := fel R F o 2 k
      { exact := exactDot R negate [(a, b)] c, finite := !a.special && !b.special && !c.special
        safe := felSafe R F o 0 k 1 && felSafe R F o 1 k 1 && felSafe R F o 2 k 2, raise := 2 }) s

/-- VFMA. -/
def execVfma (g : BitVec 3) (d a b c : BitVec 5) (t : BitVec 2) (s : State) : Out :=
  fmaOp (.vfma g d a b c t) d (fmtOf t.toNat) false s

/-- VFNMA: the product negated. -/
def execVfnma (g : BitVec 3) (d a b c : BitVec 5) (t : BitVec 2) (s : State) : Out :=
  fmaOp (.vfnma g d a b c t) d (fmtOf t.toNat) true s

/-- Two-term dot product of bf16 pairs onto binary32 lanes. -/
def dotOp (i : Instr) (d : BitVec 5) (negate : Bool) (s : State) : Out :=
  floatOp i d f32 (fun _ => 0xFFFF)
    (fun R o k =>
      let h := fun j n => fel R bf16 o j (2 * k + n)
      let c := fel R f32 o 2 k
      let sf := fun j n => felSafe R bf16 o j (2 * k + n) 1
      { exact := exactDot R negate [(h 0 0, h 1 0), (h 0 1, h 1 1)] c
        finite := !(h 0 0).special && !(h 0 1).special && !(h 1 0).special && !(h 1 1).special && !c.special
        safe := sf 0 0 && sf 0 1 && sf 1 0 && sf 1 1 && felSafe R f32 o 2 k 2, raise := 2 }) s

/-- VDOT2. -/
def execVdot2 (g : BitVec 3) (d a b c : BitVec 5) (s : State) : Out := dotOp (.vdot2 g d a b c) d false s

/-- VDOT2N: the sum of products negated. -/
def execVdot2n (g : BitVec 3) (d a b c : BitVec 5) (s : State) : Out := dotOp (.vdot2n g d a b c) d true s

/-! ### Major opcode 0x13 (10 R224) -/

/-- An integer relation of Table 10-5's compare, over the readings of both lanes. -/
def intRel (r : Nat) (x y : Int) : Bool :=
  match r with
  | 0 => decide (x = y)
  | 1 => decide (x ≠ y)
  | 2 => decide (x < y)
  | 3 => decide (x ≤ y)
  | 4 => decide (y < x)
  | _ => decide (y ≤ x)

/-- A float relation: NaN is unordered, −0 equals +0 (04 Table 4-8). -/
def floatRel (r : Nat) (x y : FVal) : Bool :=
  match r with
  | 0 => eqF x y
  | 1 => !eqF x y
  | 2 => ltF x y
  | 3 => ltF x y || eqF x y
  | 4 => ltF y x
  | 5 => ltF y x || eqF x y
  | _ => x == .nan || y == .nan

/-- VCMP: bit i is the relation of lane i. -/
def execVcmp (g : BitVec 3) (d a b : BitVec 5) (m : BitVec 3) (t : BitVec 2) (r : BitVec 3) (s : State) : Out :=
  runCore (.vcmp g d a b m t r) s (fun o s =>
    let mk := govern s m
    let x := fun k => elem (o.vec 0) 32 k
    let y := fun k => elem (o.vec 1) 32 k
    let rel := fun k =>
      match t.toNat with
      | 0 => intRel r.toNat (BitVec.ofNat 32 (x k)).toInt (BitVec.ofNat 32 (y k)).toInt
      | 1 => intRel r.toNat (x k) (y k)
      | _ => floatRel r.toNat (decodeF f32 (x k)) (decodeF f32 (y k))
    let ok := fun k =>
      if t = 2 then normalSafe f32 false 1 (x k) && normalSafe f32 false 1 (y k)
      else topEqual32 (BitVec.ofNat 32 (x k)) && topEqual32 (BitVec.ofNat 32 (y k))
    let act := activeLanes mk
    let res := BitVec.ofNat 16 (packFrom 1 (fun k => if rel k then 1 else 0) 16 0)
    shadowed s true (act.any ok) ((act.filter (fun k => !ok k)).length) (fun s => setMKeep s d mk res o.anyPsn))

/-! ### Major opcode 0x14 (10 R225, R226) -/

/-- An element without a shadow precondition. -/
def plainOut (x : Nat × BitVec 6) : ElemOut := { bits := x.1, flags := x.2, bad := false, ok := true }

/-- An exact number num / den rounded to an integer magnitude under RM (04 Table 4-8). -/
def roundInt (R : Rnd) (neg : Bool) (num den r : Nat) : Nat :=
  let lo := num / den
  if lo * den = num then lo
  else if roundsUp R.rm neg (num - lo * den) den (lo % 2 == 1) r then lo + 1 else lo

/-- A 32-bit lane instruction whose elements are the lanes. -/
def laneElemOp (i : Instr) (d : BitVec 5) (m : BitVec 3) (f : Rnd → Ops → Nat → Nat → ElemOut) (s : State) : Out :=
  elemOp i d (fun s => activeLanes (govern s m)) (fun k => 32 * k) (fun k => k) (fun s => laneBits (govern s m)) f s

/-- Float to integer between `lo` and `hi` (04 Table 4-8); a subnormal operand has been read under FTZ (log entry 37). -/
def toInteger (R : Rnd) (lo hi : Int) (x : FVal) (r : Nat) : Nat × BitVec 6 :=
  match x with
  | .nan => (0, fNV)
  | .inf neg => ((ofInt 32 (if neg then lo else hi)).toNat, fNV)
  | .fin neg mag =>
    let v := sgn neg (roundInt R neg mag (2 ^ opUnit) r)
    if v < lo then ((ofInt 32 lo).toNat, fNV)
    else if hi < v then ((ofInt 32 hi).toNat, fNV)
    else ((ofInt 32 v).toNat, if v.natAbs * 2 ^ opUnit = mag then 0 else fNX)

/-- VCVT.i32.f32. -/
def execVcvtI32F32 (g : BitVec 3) (d a : BitVec 5) (m : BitVec 3) (s : State) : Out :=
  laneElemOp (.vcvtI32F32 g d a m) d m (fun R o k r => plainOut (toInteger R (-(2 ^ 31)) (2 ^ 31 - 1) (fel R f32 o 0 k) r)) s

/-- VCVT.n32.f32. -/
def execVcvtN32F32 (g : BitVec 3) (d a : BitVec 5) (m : BitVec 3) (s : State) : Out :=
  laneElemOp (.vcvtN32F32 g d a m) d m (fun R o k r => plainOut (toInteger R 0 (2 ^ 32 - 1) (fel R f32 o 0 k) r)) s

/-- An integer rounded into binary32; a zero result is +0. -/
def fromInteger (R : Rnd) (x : Int) (r : Nat) : ElemOut :=
  plainOut (roundTo R f32 (.val (decide (x < 0)) x.natAbs 1) r)

/-- VCVT.f32.i32. -/
def execVcvtF32I32 (g : BitVec 3) (d a : BitVec 5) (m : BitVec 3) (s : State) : Out :=
  laneElemOp (.vcvtF32I32 g d a m) d m (fun R o k r => fromInteger R (lane (o.vec 0) k).toInt r) s

/-- VCVT.f32.n32. -/
def execVcvtF32N32 (g : BitVec 3) (d a : BitVec 5) (m : BitVec 3) (s : State) : Out :=
  laneElemOp (.vcvtF32N32 g d a m) d m (fun R o k r => fromInteger R (lane (o.vec 0) k).toNat r) s

/-- The exact value of an operand. -/
def FVal.exact : FVal → Exact
  | .nan => .nan
  | .inf x => .inf x
  | .fin x m => .val x m (2 ^ opUnit)

/-- Narrowing of binary32 into half `h` of each active lane; the other half is kept (10 R225). -/
def narrowOp (i : Instr) (d : BitVec 5) (m : BitVec 3) (F : Fmt) (h : BitVec 1) (s : State) : Out :=
  elemOp i d (fun s => activeLanes (govern s m)) (fun k => 32 * k + 16 * h.toNat) (fun k => k)
    (fun s => laneBits (govern s m) &&& packVec 16 32 (fun k => if k % 2 = h.toNat then 2 ^ 16 - 1 else 0))
    (fun R o k r =>
      let x := fel R f32 o 0 k
      let y := roundTo R F x.exact r
      { bits := y.1, flags := y.2, bad := !x.special && F.nonfinite y.1, ok := true }) s

/-- VCVT.f16.f32. -/
def execVcvtF16F32 (g : BitVec 3) (d a : BitVec 5) (m : BitVec 3) (h : BitVec 1) (s : State) : Out :=
  narrowOp (.vcvtF16F32 g d a m h) d m f16 h s

/-- VCVT.bf16.f32. -/
def execVcvtBf16F32 (g : BitVec 3) (d a : BitVec 5) (m : BitVec 3) (h : BitVec 1) (s : State) : Out :=
  narrowOp (.vcvtBf16F32 g d a m h) d m bf16 h s

/-- The binary32 pattern of a value that binary32 holds exactly. -/
def exact32 (x : FVal) : Nat := (roundTo { rm := 0, sat := false, ftz := false, nft := false } f32 x.exact 0).1

/-- Widening of half `h` of each lane, exactly; no flag, no draw (10 R225). -/
def widenOp (i : Instr) (d : BitVec 5) (m : BitVec 3) (F : Fmt) (h : BitVec 1) (s : State) : Out :=
  runCore i s (fun o s =>
    let mk := govern s m
    shadowed s true (!(activeLanes mk).isEmpty) 0
      (fun s => setVKeep s d (laneBits mk)
        (packVec 32 16 (fun k => exact32 (decodeF F (elem (o.vec 0) 16 (2 * k + h.toNat))))) o.anyPsn))

/-- VCVT.f32.f16. -/
def execVcvtF32F16 (g : BitVec 3) (d a : BitVec 5) (m : BitVec 3) (h : BitVec 1) (s : State) : Out :=
  widenOp (.vcvtF32F16 g d a m h) d m f16 h s

/-- VCVT.f32.bf16. -/
def execVcvtF32Bf16 (g : BitVec 3) (d a : BitVec 5) (m : BitVec 3) (h : BitVec 1) (s : State) : Out :=
  widenOp (.vcvtF32Bf16 g d a m h) d m bf16 h s

/-- VRINT: rounded to an integral binary32 value; NX if it changes, never UF (10 R225). A subnormal operand has been read under FTZ (log entry 37). -/
def rintElem (R : Rnd) (x : FVal) (r : Nat) : Nat × BitVec 6 :=
  match x with
  | .nan => (f32.nan, 0)
  | .inf neg => (f32.signed neg f32.inf, 0)
  | .fin neg mag =>
    let v := roundInt R neg mag (2 ^ opUnit) r
    (exact32 (.fin neg (v * 2 ^ opUnit)), if v * 2 ^ opUnit = mag then 0 else fNX)

/-- VRINT.f32. -/
def execVrint (g : BitVec 3) (d a : BitVec 5) (m : BitVec 3) (s : State) : Out :=
  laneElemOp (.vrint g d a m) d m (fun R o k r => plainOut (rintElem R (fel R f32 o 0 k) r)) s

/-- A packing conversion: no mask, always compared, `keep` the bits of rd replaced (10 R226). -/
def packOp (i : Instr) (d : BitVec 5) (keep : Vec) (f : Vec → Vec) (fl : Vec → BitVec 6) (s : State) : Out :=
  runCore i s (fun o s =>
    shadowed s true true 0 (fun s => setVKeep (orFlags s (fl (o.vec 0))) d keep (f (o.vec 0)) o.anyPsn))

/-- A narrow code of width `w` as a table code (10 R226). -/
def widenCode (w c : Nat) : Nat := c / 2 ^ (w - 1) % 2 * 128 + c % 2 ^ (w - 1)

/-- A table code as a narrow code of width `w`, its magnitude saturated (10 R226). -/
def narrowCode (w c : Nat) : Nat := c / 128 % 2 * 2 ^ (w - 1) + min (c % 128) (2 ^ (w - 1) - 1)

/-- Some byte's magnitude does not fit a code of width `w`. -/
def narrowFlags (w : Nat) (v : Vec) : BitVec 6 :=
  if (List.range 64).any (fun n => decide (2 ^ (w - 1) ≤ elem v 8 n % 128)) then fNV else 0

/-- VUPK4. -/
def execVupk4 (g : BitVec 3) (d a : BitVec 5) (h : BitVec 1) (s : State) : Out :=
  packOp (.vupk4 g d a h) d (BitVec.allOnes 512) (fun v => packVec 8 64 (fun n => widenCode 4 (elem v 4 (64 * h.toNat + n))))
    (fun _ => 0) s

/-- VPK4: half `h` of rd; the other half is kept. -/
def execVpk4 (g : BitVec 3) (d a : BitVec 5) (h : BitVec 1) (s : State) : Out :=
  packOp (.vpk4 g d a h) d (packVec 256 2 (fun k => if k = h.toNat then 2 ^ 256 - 1 else 0))
    (fun v => packVec 256 2 (fun _ => packFrom 4 (fun n => narrowCode 4 (elem v 8 n)) 64 0)) (narrowFlags 4) s

/-- VUPK6: the 64 six-bit codes of lanes 0 to 11. -/
def execVupk6 (g : BitVec 3) (d a : BitVec 5) (s : State) : Out :=
  packOp (.vupk6 g d a) d (BitVec.allOnes 512) (fun v => packVec 8 64 (fun n => widenCode 6 (elem v 6 n))) (fun _ => 0) s

/-- VPK6: lanes 0 to 11 hold the codes and lanes 12 to 15 are zero. -/
def execVpk6 (g : BitVec 3) (d a : BitVec 5) (s : State) : Out :=
  packOp (.vpk6 g d a) d (BitVec.allOnes 512) (fun v => packVec 6 64 (fun n => narrowCode 6 (elem v 8 n))) (narrowFlags 6) s

/-! ### Major opcode 0x15 without VTBL (10 R227, R228) -/

/-- VDEC: byte p of each active lane through the table, as binary32, exactly. -/
def execVdec (g : BitVec 3) (d a : BitVec 5) (t : BitVec 2) (m : BitVec 3) (p : BitVec 2) (s : State) : Out :=
  runCore (.vdec g d a t m p) s (fun o s =>
    needTable s t.toNat <|
      let mk := govern s m
      let T := tableOf s t.toNat
      shadowed s true (!(activeLanes mk).isEmpty) 0
        (fun s => setVKeep s d (laneBits mk)
          (packVec 32 16 (fun k => exact32 (decodeCode T (elem (o.vec 0) 8 (4 * k + p.toNat))))) o.anyPsn))

/-- A decoded element as an input under FTZ (04 R84). -/
def flush32 (ftz : Bool) (x : FVal) : FVal :=
  match x with
  | .fin neg m => if ftz && decide (m < 2 ^ 23) then .fin neg 0 else x
  | _ => x

/-- VDECS: decoded and scaled by code SC[k div B] of g, rounded into binary32. -/
def execVdecs (g : BitVec 3) (d a : BitVec 5) (t : BitVec 2) (sg : BitVec 3) (m : BitVec 3) (p : BitVec 2) (s : State) : Out :=
  runCore (.vdecs g d a t sg m p) s (fun o s =>
    needTable s t.toNat <|
    needScale (o.word 1) sg.toNat false <|
      let R := myRnd s
      let T := tableOf s t.toNat
      let B := if bitsOf (o.word 1) 35 34 = 0 then 16 else 32
      let mk := govern s m
      let f := fun k r =>
        let x := flush32 R.ftz (decodeCode T (elem (o.vec 0) 8 (4 * k + p.toNat)))
        let sc := scaleOf (o.word 1) ((4 * k + p.toNat) / B)
        let e := scaledElement x sc
        let y := roundTo R f32 e.1 r
        { bits := y.1, flags := e.2 ||| y.2, bad := !x.special && sc != .nan && f32.nonfinite y.1, ok := true : ElemOut }
      let acc := (activeLanes mk).foldl (elemStep R (fun k => 32 * k) (fun k => k) f) (RAcc.start (me s).seed)
      roundedEffect R acc s (fun s => setVKeep s d (laneBits mk) (BitVec.ofNat 512 acc.out) o.anyPsn))

/-- VENC: byte p of each active lane receives the code RoundTo selects; the other bytes are kept. -/
def execVenc (g : BitVec 3) (d a : BitVec 5) (t : BitVec 2) (m : BitVec 3) (p : BitVec 2) (s : State) : Out :=
  runCore (.venc g d a t m p) s (fun o s =>
    needTable s t.toNat <|
      let R := myRnd s
      let T := tableOf s t.toNat
      let mk := govern s m
      let f := fun k r =>
        let x := fel R f32 o 0 k
        let y := encodeTable R T x r
        { bits := y.1, flags := y.2, bad := !x.special && (decodeCode T y.1).special, ok := true : ElemOut }
      let acc := (activeLanes mk).foldl (elemStep R (fun k => 32 * k + 8 * p.toNat) (fun k => k) f) (RAcc.start (me s).seed)
      roundedEffect R acc s (fun s =>
        setVKeep s d (laneBits mk &&& packVec 8 64 (fun n => if n % 4 = p.toNat then 255 else 0)) (BitVec.ofNat 512 acc.out) o.anyPsn))

/-! ### Major opcode 0x16 (10 R230 to R232) -/

/-- The E8M0 code of a block of operands for q-bit mantissas (05 R112). -/
def alignCode (q : Nat) (xs : List FVal) : Nat :=
  if xs.any (·.special) then 255
  else
    let mags := xs.map (fun x => match x with | .fin _ m => m | _ => 0)
    let top := mags.foldl max 0
    if top = 0 then 0 else (max ((top.log2 : Int) - 149 - (q - 2)) (-127) + 127).toNat

/-- VBEXP: the code of the active lanes of ra into SC[j] of g; with ACC the larger of the new and the old code. -/
def execVbexp (g : BitVec 3) (d a : BitVec 5) (j : BitVec 2) (m : BitVec 3) (q : BitVec 1) (c : BitVec 1) (s : State) : Out :=
  runCore (.vbexp g d a j m q c) s (fun o s =>
    let R := myRnd s
    let t := me s
    let old := vget 0 t.g d.toNat
    let code := alignCode (if q = 1 then 16 else 8) ((activeLanes (govern s m)).map (fun k => fel R f32 o 0 k))
    let e := shadowed s true (!(activeLanes (govern s m)).isEmpty) 0 (fun s =>
      let oldC := old.toNat / 2 ^ (8 * j.toNat) % 256
      let new := if c = 1 then max code oldC else code
      let v := old.toNat - oldC * 2 ^ (8 * j.toNat) + new * 2 ^ (8 * j.toNat) - bitsOf old 33 32 * 2 ^ 32
      setG s d (BitVec.ofNat 64 v) (o.anyPsn || (c = 1 && t.gP.getLsbD d.toNat)))
    if c = 1 then needScale old d.toNat true e else e)

/-- The mantissa of one lane under scale code `code` (10 R231). -/
def alignMant (R : Rnd) (q code : Nat) (x : FVal) (r : Nat) : Nat × BitVec 6 :=
  if code = 255 then (0, 0)
  else
    match x with
    | .fin neg m =>
      let num := m * 2 ^ 127
      let den := 2 ^ (opUnit + code)
      let v := min (roundInt R neg num den r) (2 ^ (q - 1) - 1)
      ((ofInt 16 (sgn neg v)).toNat % 2 ^ q, if v * den = num then 0 else fNX)
    | _ => (0, fNV)

/-- VALIGN: q-bit mantissas of all 16 lanes at the named half or byte; the rest of rd is kept. -/
def execValign (g : BitVec 3) (d a : BitVec 5) (j : BitVec 2) (sg : BitVec 3) (p : BitVec 3) (s : State) : Out :=
  runCore (.valign g d a j sg p) s (fun o s =>
    needScale (o.word 1) sg.toNat true <|
      let R := myRnd s
      let q := if p.toNat < 4 then 16 else 8
      let at_ := if p.toNat < 4 then 16 * p.toNat else 8 * (p.toNat - 4)
      let code := (o.word 1).toNat / 2 ^ (8 * j.toNat) % 256
      let acc := (List.range 16).foldl
        (elemStep R (fun k => 32 * k + at_) (fun k => k) (fun k r => plainOut (alignMant R q code (fel R f32 o 0 k) r)))
        (RAcc.start (me s).seed)
      roundedEffect R acc s (fun s =>
        setVKeep s d (packVec 32 16 (fun _ => (2 ^ q - 1) * 2 ^ at_)) (BitVec.ofNat 512 acc.out) o.anyPsn))

/-- VSCALE: the 64-bit pairs of ra scaled by two E8M0 codes of rb, rounded into lanes 8h to 8h + 7 (10 R232). -/
def execVscale (g : BitVec 3) (d a b : BitVec 5) (m : BitVec 3) (h : BitVec 1) (s : State) : Out :=
  runCore (.vscale g d a b m h) s (fun o s =>
    let R := myRnd s
    let half := govern s m &&& (if h = 1 then 0xFF00 else 0x00FF)
    let f := fun k r =>
      let x := (BitVec.ofNat 64 (elem (o.vec 0) 64 (k % 8))).toInt
      let ca := elem (o.vec 1) 8 (8 * (k % 8))
      let cb := elem (o.vec 1) 8 (8 * (k % 8) + 1)
      let nanScale := ca == 255 || cb == 255
      let y := roundTo R f32 (if nanScale then .nan else .val (decide (x < 0)) (x.natAbs * 2 ^ (ca + cb)) (2 ^ 254)) r
      { bits := y.1, flags := y.2, bad := !nanScale && f32.nonfinite y.1, ok := true : ElemOut }
    let acc := (activeLanes half).foldl (elemStep R (fun k => 32 * k) (fun k => k) f) (RAcc.start (me s).seed)
    roundedEffect R acc s (fun s => setVKeep s d (laneBits half) (BitVec.ofNat 512 acc.out) o.anyPsn))

/-! ### Floating reductions (04 R94; 10 R233) -/

/-- The operation of a reduction. -/
inductive RedOp where
  | sum | min | max
  deriving DecidableEq, Repr

/-- What a tree has left so far: SEED, FLAGS, the lowest offending lane, whether every node was normal-safe, and whether the shadow of one was another value. -/
structure TreeAcc where
  seed : Word
  flags : BitVec 6
  nf : Option Nat
  safe : Bool
  dis : Bool := false
  deriving DecidableEq, Repr

/-- One node of the tree, over lane `ln`. -/
def treeNode (R : Rnd) (F : Fmt) (op : RedOp) (ln x y : Nat) (acc : TreeAcc) : Nat × TreeAcc :=
  let sf := fun z => normalSafe F (R.ftz && op == .sum) 1 z
  match op with
  | .sum =>
    let a := operandF F R.ftz x
    let b := operandF F R.ftz y
    let d := draw R acc.seed
    let e := exactAdd R a b
    let z := roundTo R F e.1 d.2
    let bad := !a.special && !b.special && F.nonfinite z.1
    (z.1,
     { seed := d.1, flags := acc.flags ||| e.2 ||| z.2
       nf := if bad then some (match acc.nf with | some l => min l ln | none => ln) else acc.nf
       safe := acc.safe && sf x && sf y && normalSafe F false 1 z.1
       dis := acc.dis || shadowDiffers R F e.1 1 z.1 d.2 })
  | .min => let z := minMaxF F false x y; (z, { acc with safe := acc.safe && sf x && sf y && sf z })
  | .max => let z := minMaxF F true x y; (z, { acc with safe := acc.safe && sf x && sf y && sf z })

/-- One level of the tree: nodes 2i and 2i + 1 give node i; `w` lanes lie under each node of the level below. -/
def treeLevel (R : Rnd) (F : Fmt) (op : RedOp) (w : Nat) : Nat → List (Option Nat) → TreeAcc → List (Option Nat) × TreeAcc
  | i, some x :: some y :: rest, acc =>
    let n := treeNode R F op (2 * w * i) x y acc
    let r := treeLevel R F op w (i + 1) rest n.2
    (some n.1 :: r.1, r.2)
  | i, some x :: none :: rest, acc => let r := treeLevel R F op w (i + 1) rest acc; (some x :: r.1, r.2)
  | i, none :: y :: rest, acc => let r := treeLevel R F op w (i + 1) rest acc; (y :: r.1, r.2)
  | _, [x], acc => ([x], acc)
  | _, [], acc => ([], acc)

/-- Lane nodes of a packed format: each active lane's two halves combined, in ascending order. -/
def laneNodes (R : Rnd) (F : Fmt) (op : RedOp) (v : Vec) : Nat → List (Option Nat) → TreeAcc → List (Option Nat) × TreeAcc
  | i, some _ :: rest, acc =>
    let n := treeNode R F op i (elem v 16 (2 * i)) (elem v 16 (2 * i + 1)) acc
    let r := laneNodes R F op v (i + 1) rest n.2
    (some n.1 :: r.1, r.2)
  | i, none :: rest, acc => let r := laneNodes R F op v (i + 1) rest acc; (none :: r.1, r.2)
  | _, [], acc => ([], acc)

/-- A floating reduction into an s register: the tree of R94, compared as one element (10 R219). The only active lane of a binary32 reduction passes unchanged, a NaN
with its payload (04 R94; log entry 40). -/
def floatReduce (i : Instr) (d : BitVec 5) (m : BitVec 3) (F : Fmt) (op : RedOp) (s : State) : Out :=
  runCore i s (fun o s =>
    let R := myRnd s
    let act := activeLanes (govern s m)
    let v := o.vec 0
    let leaves := (List.range 16).map (fun k => if act.contains k then some (elem v 32 k) else none)
    let a0 : TreeAcc := { seed := (me s).seed, flags := 0, nf := none, safe := true }
    let l0 :=
      if F.width = 32 then (leaves, { a0 with safe := act.all (fun k => normalSafe F (R.ftz && op == .sum) 1 (elem v 32 k)) })
      else laneNodes R F op v 0 leaves a0
    let l1 := treeLevel R F op 1 0 l0.1 l0.2
    let l2 := treeLevel R F op 2 0 l1.1 l1.2
    let l3 := treeLevel R F op 4 0 l2.1 l2.2
    let l4 := treeLevel R F op 8 0 l3.1 l3.2
    let res := (l4.1.headD none).getD 0
    let acc := { l4.2 with safe := l4.2.safe && normalSafe F false 1 res }
    match (if R.nft then acc.nf else none) with
    | some l => .trap { row := 18, cause := cNONFINITE, tval := BitVec.ofNat 64 l }
    | none =>
      if acc.safe && acc.dis then mismatched s true
      else
      shadowed s true (!act.isEmpty && acc.safe) (if act.isEmpty || acc.safe then 0 else 1) (fun s =>
        let s1 := orFlags s acc.flags
        setS (setMe s1 { me s1 with seed := acc.seed }) d (BitVec.ofNat 64 res) o.anyPsn))

/-- VSUM. -/
def execVsumF (g : BitVec 3) (d a : BitVec 5) (m : BitVec 3) (t : BitVec 2) (s : State) : Out :=
  floatReduce (.vsumF g d a m t) d m (fmtOf t.toNat) .sum s

/-- VRMIN. -/
def execVrminF (g : BitVec 3) (d a : BitVec 5) (m : BitVec 3) (t : BitVec 2) (s : State) : Out :=
  floatReduce (.vrminF g d a m t) d m (fmtOf t.toNat) .min s

/-- VRMAX. -/
def execVrmaxF (g : BitVec 3) (d a : BitVec 5) (m : BitVec 3) (t : BitVec 2) (s : State) : Out :=
  floatReduce (.vrmaxF g d a m t) d m (fmtOf t.toNat) .max s

end Sys2Proof.Machine
end

