-- ==== Sys2Proof/Machine/VectorInt.lean ====
section
/-!
DEFINITION. Vector integer instructions, permutes, moves, mask logic and integer reductions: major opcodes 0x10, 0x18, 0x19, 0x1A and the
integer part of 0x17 (10 R221, R233 to R236).
-/
namespace Sys2Proof.Machine

open Sys2Proof

/-- Both operand lanes top-equal at 32 bits (10 Table 10-2). -/
def laneTop2 (o : Ops) (k : Nat) : Bool := topEqual32 (lane (o.vec 0) k) && topEqual32 (lane (o.vec 1) k)

/-- The first operand lane top-equal. -/
def laneTop1 (o : Ops) (k : Nat) : Bool := topEqual32 (lane (o.vec 0) k)

/-- Bit 31 of the first operand lane is 0. -/
def lanePos1 (o : Ops) (k : Nat) : Bool := !(lane (o.vec 0) k).getLsbD 31

/-- Bit 31 of both operand lanes is 0. -/
def lanePos2 (o : Ops) (k : Nat) : Bool := !(lane (o.vec 0) k).getLsbD 31 && !(lane (o.vec 1) k).getLsbD 31

/-- Saturation to the signed 32-bit range. -/
def satS (x : Int) : BitVec 32 := ofInt 32 (max (-(2 ^ 31)) (min (2 ^ 31 - 1) x))

/-- Saturation to the unsigned 32-bit range. -/
def satU (x : Int) : BitVec 32 := ofInt 32 (max 0 (min (2 ^ 32 - 1) x))

/-- The value is in the signed range: the first result is unsaturated (10 Table 10-2). -/
def inS (x : Int) : Bool := decide (-(2 ^ 31) ≤ x ∧ x ≤ 2 ^ 31 - 1)

/-- The value is in the unsigned range. -/
def inU (x : Int) : Bool := decide (0 ≤ x ∧ x ≤ 2 ^ 32 - 1)

/-- Lane `k` of source 0 and of source 1. -/
def la (o : Ops) (k : Nat) : BitVec 32 := lane (o.vec 0) k
def lb (o : Ops) (k : Nat) : BitVec 32 := lane (o.vec 1) k

/-! ### Major opcode 0x10 (10 Table 10-4) -/

/-- VADD.i32. -/
def execVaddI32 (g : BitVec 3) (d a b : BitVec 5) (m : BitVec 3) (s : State) : Out :=
  intOp (.vaddI32 g d a b m) d m laneTop2 (fun o k => la o k + lb o k) agreeing s
/-- VSUB.i32. -/
def execVsubI32 (g : BitVec 3) (d a b : BitVec 5) (m : BitVec 3) (s : State) : Out :=
  intOp (.vsubI32 g d a b m) d m laneTop2 (fun o k => la o k - lb o k) agreeing s
/-- VAND.i32. -/
def execVandI32 (g : BitVec 3) (d a b : BitVec 5) (m : BitVec 3) (s : State) : Out :=
  intOp (.vandI32 g d a b m) d m laneTop2 (fun o k => la o k &&& lb o k) agreeing s
/-- VOR.i32. -/
def execVorI32 (g : BitVec 3) (d a b : BitVec 5) (m : BitVec 3) (s : State) : Out :=
  intOp (.vorI32 g d a b m) d m laneTop2 (fun o k => la o k ||| lb o k) agreeing s
/-- VXOR.i32. -/
def execVxorI32 (g : BitVec 3) (d a b : BitVec 5) (m : BitVec 3) (s : State) : Out :=
  intOp (.vxorI32 g d a b m) d m laneTop2 (fun o k => la o k ^^^ lb o k) agreeing s
/-- VANDN.i32. -/
def execVandnI32 (g : BitVec 3) (d a b : BitVec 5) (m : BitVec 3) (s : State) : Out :=
  intOp (.vandnI32 g d a b m) d m laneTop2 (fun o k => la o k &&& ~~~(lb o k)) agreeing s
/-- VSLL.i32 by b[4:0]. -/
def execVsllI32 (g : BitVec 3) (d a b : BitVec 5) (m : BitVec 3) (s : State) : Out :=
  intOp (.vsllI32 g d a b m) d m laneTop1 (fun o k => la o k <<< ((lb o k).toNat % 32)) agreeing s
/-- VSRL.n32 by b[4:0]. -/
def execVsrlN32 (g : BitVec 3) (d a b : BitVec 5) (m : BitVec 3) (s : State) : Out :=
  intOp (.vsrlN32 g d a b m) d m lanePos1 (fun o k => la o k >>> ((lb o k).toNat % 32)) agreeing s
/-- VSRA.i32 by b[4:0]. -/
def execVsraI32 (g : BitVec 3) (d a b : BitVec 5) (m : BitVec 3) (s : State) : Out :=
  intOp (.vsraI32 g d a b m) d m laneTop1 (fun o k => (la o k).sshiftRight ((lb o k).toNat % 32)) agreeing s
/-- VMIN.i32. -/
def execVminI32 (g : BitVec 3) (d a b : BitVec 5) (m : BitVec 3) (s : State) : Out :=
  intOp (.vminI32 g d a b m) d m laneTop2 (fun o k => if (la o k).slt (lb o k) then la o k else lb o k) agreeing s
/-- VMAX.i32. -/
def execVmaxI32 (g : BitVec 3) (d a b : BitVec 5) (m : BitVec 3) (s : State) : Out :=
  intOp (.vmaxI32 g d a b m) d m laneTop2 (fun o k => if (lb o k).slt (la o k) then la o k else lb o k) agreeing s
/-- VMIN.n32. -/
def execVminN32 (g : BitVec 3) (d a b : BitVec 5) (m : BitVec 3) (s : State) : Out :=
  intOp (.vminN32 g d a b m) d m laneTop2 (fun o k => if (la o k).ult (lb o k) then la o k else lb o k) agreeing s
/-- VMAX.n32. -/
def execVmaxN32 (g : BitVec 3) (d a b : BitVec 5) (m : BitVec 3) (s : State) : Out :=
  intOp (.vmaxN32 g d a b m) d m laneTop2 (fun o k => if (lb o k).ult (la o k) then la o k else lb o k) agreeing s
/-- VMUL.i32: low 32 bits of the product. -/
def execVmulI32 (g : BitVec 3) (d a b : BitVec 5) (m : BitVec 3) (s : State) : Out :=
  intOp (.vmulI32 g d a b m) d m (fun _ _ => true) (fun o k => la o k * lb o k) agreeing s
/-- VMULH.i32: bits [63:32] of the signed product. -/
def execVmulhI32 (g : BitVec 3) (d a b : BitVec 5) (m : BitVec 3) (s : State) : Out :=
  intOp (.vmulhI32 g d a b m) d m laneTop2 (fun o k => mulHigh 32 (la o k).toInt (lb o k).toInt) agreeing s
/-- VMULH.n32: bits [63:32] of the unsigned product. -/
def execVmulhN32 (g : BitVec 3) (d a b : BitVec 5) (m : BitVec 3) (s : State) : Out :=
  intOp (.vmulhN32 g d a b m) d m lanePos2 (fun o k => mulHigh 32 (la o k).toNat (lb o k).toNat) agreeing s
/-- VADDS.i32: saturated to the signed range. -/
def execVaddsI32 (g : BitVec 3) (d a b : BitVec 5) (m : BitVec 3) (s : State) : Out :=
  intSum (.vaddsI32 g d a b m) d m (fun o k => laneTop2 o k && inS ((la o k).toInt + (lb o k).toInt))
    (fun o k => satS ((la o k).toInt + (lb o k).toInt)) s
/-- VADDS.n32: saturated to the unsigned range. -/
def execVaddsN32 (g : BitVec 3) (d a b : BitVec 5) (m : BitVec 3) (s : State) : Out :=
  intSum (.vaddsN32 g d a b m) d m (fun o k => laneTop2 o k && inU ((la o k).toNat + (lb o k).toNat))
    (fun o k => satU ((la o k).toNat + (lb o k).toNat)) s
/-- VSUBS.i32. -/
def execVsubsI32 (g : BitVec 3) (d a b : BitVec 5) (m : BitVec 3) (s : State) : Out :=
  intSum (.vsubsI32 g d a b m) d m (fun o k => laneTop2 o k && inS ((la o k).toInt - (lb o k).toInt))
    (fun o k => satS ((la o k).toInt - (lb o k).toInt)) s
/-- VSUBS.n32. -/
def execVsubsN32 (g : BitVec 3) (d a b : BitVec 5) (m : BitVec 3) (s : State) : Out :=
  intSum (.vsubsN32 g d a b m) d m
    (fun o k => laneTop2 o k && inU (((la o k).toNat : Int) - ((lb o k).toNat : Int)))
    (fun o k => satU (((la o k).toNat : Int) - ((lb o k).toNat : Int))) s
/-- VABS.i32: saturated to 2^31 − 1. -/
def execVabsI32 (g : BitVec 3) (d a : BitVec 5) (m : BitVec 3) (s : State) : Out :=
  intSum (.vabsI32 g d a m) d m laneTop1 (fun o k => satS (la o k).toInt.natAbs) s
/-- VCLZ.n32. -/
def execVclzN32 (g : BitVec 3) (d a : BitVec 5) (m : BitVec 3) (s : State) : Out :=
  intOp (.vclzN32 g d a m) d m (fun o k => lanePos1 o k && la o k != 0) (fun o k => BitVec.ofNat 32 (clzN 32 (la o k).toNat)) agreeing s
/-- VPOPC.n32. -/
def execVpopcN32 (g : BitVec 3) (d a : BitVec 5) (m : BitVec 3) (s : State) : Out :=
  intOp (.vpopcN32 g d a m) d m lanePos1 (fun o k => BitVec.ofNat 32 (popcN 32 (la o k).toNat)) agreeing s

/-! ### Major opcode 0x18 (10 Table 10-12) -/

/-- VPERM: lane b_i[3:0] of ra. -/
def execVperm (g : BitVec 3) (d a b : BitVec 5) (m : BitVec 3) (s : State) : Out :=
  moveOp (.vperm g d a b m) d m (fun o k => elem (o.vec 0) 32 (elem (o.vec 1) 32 k % 16)) s
/-- VROT: lane (i + k) mod 16. -/
def execVrot (g : BitVec 3) (d a : BitVec 5) (k : BitVec 5) (m : BitVec 3) (s : State) : Out :=
  moveOp (.vrot g d a k m) d m (fun o i => elem (o.vec 0) 32 ((i + k.toNat) % 16)) s
/-- VSLU: lane i − k, or 0. -/
def execVslu (g : BitVec 3) (d a : BitVec 5) (k : BitVec 5) (m : BitVec 3) (s : State) : Out :=
  moveOp (.vslu g d a k m) d m (fun o i => if k.toNat ≤ i then elem (o.vec 0) 32 (i - k.toNat) else 0) s
/-- VSLD: lane i + k, or 0. -/
def execVsld (g : BitVec 3) (d a : BitVec 5) (k : BitVec 5) (m : BitVec 3) (s : State) : Out :=
  moveOp (.vsld g d a k m) d m (fun o i => if i + k.toNat ≤ 15 then elem (o.vec 0) 32 (i + k.toNat) else 0) s
/-- VREV: lane 15 − i. -/
def execVrev (g : BitVec 3) (d a : BitVec 5) (m : BitVec 3) (s : State) : Out :=
  moveOp (.vrev g d a m) d m (fun o i => elem (o.vec 0) 32 (15 - i)) s
/-- VHSWAP: the halves of each lane exchanged. -/
def execVhswap (g : BitVec 3) (d a : BitVec 5) (m : BitVec 3) (s : State) : Out :=
  moveOp (.vhswap g d a m) d m (fun o i => elem (o.vec 0) 16 (2 * i + 1) + elem (o.vec 0) 16 (2 * i) * 2 ^ 16) s
/-- VPKL: the low halves of a_i and b_i. -/
def execVpkl (g : BitVec 3) (d a b : BitVec 5) (m : BitVec 3) (s : State) : Out :=
  moveOp (.vpkl g d a b m) d m (fun o i => elem (o.vec 0) 16 (2 * i) + elem (o.vec 1) 16 (2 * i) * 2 ^ 16) s
/-- VPKH: the high halves of a_i and b_i. -/
def execVpkh (g : BitVec 3) (d a b : BitVec 5) (m : BitVec 3) (s : State) : Out :=
  moveOp (.vpkh g d a b m) d m (fun o i => elem (o.vec 0) 16 (2 * i + 1) + elem (o.vec 1) 16 (2 * i + 1) * 2 ^ 16) s

/-! ### Major opcode 0x19 (10 Table 10-13) -/

/-- VMOV. -/
def execVmov (g : BitVec 3) (d a : BitVec 5) (m : BitVec 3) (s : State) : Out :=
  moveOp (.vmov g d a m) d m (fun o i => elem (o.vec 0) 32 i) s
/-- VSPLAT.i32. -/
def execVsplatI32 (g : BitVec 3) (d a : BitVec 5) (m : BitVec 3) (s : State) : Out :=
  moveOp (.vsplatI32 g d a m) d m (fun o _ => (o.word 0).toNat % 2 ^ 32) s
/-- VSPLAT.i64: the low word in even lanes, the high word in odd ones. -/
def execVsplatI64 (g : BitVec 3) (d a : BitVec 5) (m : BitVec 3) (s : State) : Out :=
  moveOp (.vsplatI64 g d a m) d m (fun o i => (o.word 0).toNat / 2 ^ (32 * (i % 2)) % 2 ^ 32) s
/-- VINS: lane k := a[31:0]. -/
def execVins (g : BitVec 3) (d a : BitVec 5) (k : BitVec 5) (s : State) : Out :=
  runCore (.vins g d a k) s (fun o s =>
    .done (setVKeep s d (laneBits (BitVec.ofNat 16 (2 ^ k.toNat))) (packVec 32 16 (fun _ => (o.word 0).toNat % 2 ^ 32)) o.anyPsn))
/-- VEXT.n32. -/
def execVextN32 (g : BitVec 3) (d a : BitVec 5) (k : BitVec 5) (s : State) : Out :=
  runCore (.vextN32 g d a k) s (fun o s => .done (setS s d ((lane (o.vec 0) k.toNat).setWidth 64) o.anyPsn))
/-- VEXT.i32. -/
def execVextI32 (g : BitVec 3) (d a : BitVec 5) (k : BitVec 5) (s : State) : Out :=
  runCore (.vextI32 g d a k) s (fun o s => .done (setS s d ((lane (o.vec 0) k.toNat).signExtend 64) o.anyPsn))
/-- VSEL: every lane written, from ra where the mask bit is set and from rb elsewhere. -/
def execVsel (g : BitVec 3) (d a b : BitVec 5) (m : BitVec 3) (s : State) : Out :=
  runCore (.vsel g d a b m) s (fun o s =>
    let e := laneBits (govern s m)
    .done (setV s d ((o.vec 0 &&& e) ||| (o.vec 1 &&& ~~~e)) o.anyPsn))

/-- The sign of an element cleared or inverted, a NaN passing unchanged (10 Table 10-13). -/
def signEdit (F : Fmt) (neg : Bool) (x : Nat) : Nat :=
  if F.inf < x % F.signBit then x
  else if neg then (if F.signBit ≤ x then x - F.signBit else x + F.signBit)
  else x % F.signBit

/-- The same for both elements of a lane. -/
def signEdit2 (F : Fmt) (neg : Bool) (v : Vec) (i : Nat) : Nat :=
  signEdit F neg (elem v 16 (2 * i)) + signEdit F neg (elem v 16 (2 * i + 1)) * 2 ^ 16

/-- VABS.f32. -/
def execVabsF32 (g : BitVec 3) (d a : BitVec 5) (m : BitVec 3) (s : State) : Out :=
  moveOp (.vabsF32 g d a m) d m (fun o i => signEdit f32 false (elem (o.vec 0) 32 i)) s
/-- VNEG.f32. -/
def execVnegF32 (g : BitVec 3) (d a : BitVec 5) (m : BitVec 3) (s : State) : Out :=
  moveOp (.vnegF32 g d a m) d m (fun o i => signEdit f32 true (elem (o.vec 0) 32 i)) s
/-- VABS.f16. -/
def execVabsF16 (g : BitVec 3) (d a : BitVec 5) (m : BitVec 3) (s : State) : Out :=
  moveOp (.vabsF16 g d a m) d m (fun o i => signEdit2 f16 false (o.vec 0) i) s
/-- VNEG.f16. -/
def execVnegF16 (g : BitVec 3) (d a : BitVec 5) (m : BitVec 3) (s : State) : Out :=
  moveOp (.vnegF16 g d a m) d m (fun o i => signEdit2 f16 true (o.vec 0) i) s
/-- VABS.bf16. -/
def execVabsBf16 (g : BitVec 3) (d a : BitVec 5) (m : BitVec 3) (s : State) : Out :=
  moveOp (.vabsBf16 g d a m) d m (fun o i => signEdit2 bf16 false (o.vec 0) i) s
/-- VNEG.bf16. -/
def execVnegBf16 (g : BitVec 3) (d a : BitVec 5) (m : BitVec 3) (s : State) : Out :=
  moveOp (.vnegBf16 g d a m) d m (fun o i => signEdit2 bf16 true (o.vec 0) i) s

/-- GSET: reserved bits of g are written as zero (00 R7). -/
def execGset (g : BitVec 3) (d a : BitVec 5) (s : State) : Out :=
  runCore (.gset g d a) s (fun o s => .done (setG s d (o.word 0 &&& 0xFFFFFFFFF) o.anyPsn))

/-- GGET: it reads a scale register, so a reserved FMT or BSZ raises FMT_TABLE (04 R92). -/
def execGget (g : BitVec 3) (d a : BitVec 5) (s : State) : Out :=
  runCore (.gget g d a) s (fun o s => needScale (o.word 0) a.toNat false <| .done (setS s d (o.word 0) o.anyPsn))

/-! ### Major opcode 0x1A (10 Table 10-14) -/

/-- A mask source. -/
def Ops.mask (o : Ops) (k : Nat) : BitVec 16 := (o.vec k).setWidth 16

/-- MAND. -/
def execMand (g : BitVec 3) (d a b : BitVec 5) (s : State) : Out :=
  runCore (.mand g d a b) s (fun o s => .done (setM s d (o.mask 0 &&& o.mask 1) o.anyPsn))
/-- MOR. -/
def execMor (g : BitVec 3) (d a b : BitVec 5) (s : State) : Out :=
  runCore (.mor g d a b) s (fun o s => .done (setM s d (o.mask 0 ||| o.mask 1) o.anyPsn))
/-- MXOR. -/
def execMxor (g : BitVec 3) (d a b : BitVec 5) (s : State) : Out :=
  runCore (.mxor g d a b) s (fun o s => .done (setM s d (o.mask 0 ^^^ o.mask 1) o.anyPsn))
/-- MANDN. -/
def execMandn (g : BitVec 3) (d a b : BitVec 5) (s : State) : Out :=
  runCore (.mandn g d a b) s (fun o s => .done (setM s d (o.mask 0 &&& ~~~(o.mask 1)) o.anyPsn))
/-- MNOT. -/
def execMnot (g : BitVec 3) (d a : BitVec 5) (s : State) : Out :=
  runCore (.mnot g d a) s (fun o s => .done (setM s d (~~~(o.mask 0)) o.anyPsn))
/-- MSET: a[15:0]. -/
def execMset (g : BitVec 3) (d a : BitVec 5) (s : State) : Out :=
  runCore (.mset g d a) s (fun o s => .done (setM s d ((o.word 0).setWidth 16) o.anyPsn))
/-- MGET. -/
def execMget (g : BitVec 3) (d a : BitVec 5) (s : State) : Out :=
  runCore (.mget g d a) s (fun o s => .done (setS s d ((o.mask 0).setWidth 64) o.anyPsn))
/-- MPOP. -/
def execMpop (g : BitVec 3) (d a : BitVec 5) (s : State) : Out :=
  runCore (.mpop g d a) s (fun o s => .done (setS s d (BitVec.ofNat 64 (popcN 16 (o.mask 0).toNat)) o.anyPsn))
/-- MFIRST: the lowest set bit; 16 if none. -/
def execMfirst (g : BitVec 3) (d a : BitVec 5) (s : State) : Out :=
  runCore (.mfirst g d a) s (fun o s => .done (setS s d (BitVec.ofNat 64 (ctzN 16 (o.mask 0).toNat)) o.anyPsn))
/-- MLOW: bit i set exactly when i < a. -/
def execMlow (g : BitVec 3) (d a : BitVec 5) (s : State) : Out :=
  runCore (.mlow g d a) s (fun o s => .done (setM s d (BitVec.ofNat 16 (2 ^ min 16 (o.word 0).toNat - 1)) o.anyPsn))

/-! ### Integer reductions (10 Table 10-11) -/

/-- An integer reduction of the active lanes; 0 when none is active. One result element: checked when every active lane is top-equal. -/
def intReduce (i : Instr) (d : BitVec 5) (m : BitVec 3) (f : List (BitVec 32) → Word) (s : State) : Out :=
  runCore i s (fun o s =>
    let act := activeLanes (govern s m)
    let ok := act.all (laneTop1 o)
    shadowed s true (!act.isEmpty && ok) (if ok then 0 else 1) (fun s => setS s d (f (act.map (la o))) o.anyPsn))

/-- The extreme of a list under an order; 0 for an empty list. -/
def extreme (better : BitVec 32 → BitVec 32 → Bool) : List (BitVec 32) → BitVec 32
  | [] => 0
  | x :: xs => xs.foldl (fun a y => if better y a then y else a) x

/-- VSUM.i32: the exact sum of the signed lanes. -/
def execVsumI32 (g : BitVec 3) (d a : BitVec 5) (m : BitVec 3) (s : State) : Out :=
  intReduce (.vsumI32 g d a m) d m (fun xs => ofInt 64 ((xs.map (·.toInt)).foldl (· + ·) 0)) s
/-- VSUM.n32: the exact sum of the unsigned lanes. -/
def execVsumN32 (g : BitVec 3) (d a : BitVec 5) (m : BitVec 3) (s : State) : Out :=
  intReduce (.vsumN32 g d a m) d m (fun xs => BitVec.ofNat 64 ((xs.map (·.toNat)).foldl (· + ·) 0)) s
/-- VRMIN.i32. -/
def execVrminI32 (g : BitVec 3) (d a : BitVec 5) (m : BitVec 3) (s : State) : Out :=
  intReduce (.vrminI32 g d a m) d m (fun xs => (extreme (fun x y => x.slt y) xs).signExtend 64) s
/-- VRMAX.i32. -/
def execVrmaxI32 (g : BitVec 3) (d a : BitVec 5) (m : BitVec 3) (s : State) : Out :=
  intReduce (.vrmaxI32 g d a m) d m (fun xs => (extreme (fun x y => y.slt x) xs).signExtend 64) s
/-- VRMIN.n32. -/
def execVrminN32 (g : BitVec 3) (d a : BitVec 5) (m : BitVec 3) (s : State) : Out :=
  intReduce (.vrminN32 g d a m) d m (fun xs => (extreme (fun x y => x.ult y) xs).setWidth 64) s
/-- VRMAX.n32. -/
def execVrmaxN32 (g : BitVec 3) (d a : BitVec 5) (m : BitVec 3) (s : State) : Out :=
  intReduce (.vrmaxN32 g d a m) d m (fun xs => (extreme (fun x y => y.ult x) xs).setWidth 64) s

end Sys2Proof.Machine
end

