-- ==== Sys2Proof/Machine/Repeat.lean ====
section
/-!
DEFINITION. Passes of the repeat buffer, and words that the decoder rejects (08 R175 to R178).
-/
namespace Sys2Proof.Machine

open Sys2Proof

/-- The effect of a captured instruction: one of the major opcodes that REP may capture (08 R177). -/
def execCaptured (i : Instr) (s : State) : Out :=
  match i with
  | .vaddI32 g d a b m => execVaddI32 g d a b m s
  | .vsubI32 g d a b m => execVsubI32 g d a b m s
  | .vandI32 g d a b m => execVandI32 g d a b m s
  | .vorI32 g d a b m => execVorI32 g d a b m s
  | .vxorI32 g d a b m => execVxorI32 g d a b m s
  | .vandnI32 g d a b m => execVandnI32 g d a b m s
  | .vsllI32 g d a b m => execVsllI32 g d a b m s
  | .vsrlN32 g d a b m => execVsrlN32 g d a b m s
  | .vsraI32 g d a b m => execVsraI32 g d a b m s
  | .vminI32 g d a b m => execVminI32 g d a b m s
  | .vmaxI32 g d a b m => execVmaxI32 g d a b m s
  | .vminN32 g d a b m => execVminN32 g d a b m s
  | .vmaxN32 g d a b m => execVmaxN32 g d a b m s
  | .vmulI32 g d a b m => execVmulI32 g d a b m s
  | .vmulhI32 g d a b m => execVmulhI32 g d a b m s
  | .vmulhN32 g d a b m => execVmulhN32 g d a b m s
  | .vaddsI32 g d a b m => execVaddsI32 g d a b m s
  | .vaddsN32 g d a b m => execVaddsN32 g d a b m s
  | .vsubsI32 g d a b m => execVsubsI32 g d a b m s
  | .vsubsN32 g d a b m => execVsubsN32 g d a b m s
  | .vabsI32 g d a m => execVabsI32 g d a m s
  | .vclzN32 g d a m => execVclzN32 g d a m s
  | .vpopcN32 g d a m => execVpopcN32 g d a m s
  | .vaddF g d a b m t => execVaddF g d a b m t s
  | .vsubF g d a b m t => execVsubF g d a b m t s
  | .vmulF g d a b m t => execVmulF g d a b m t s
  | .vminF g d a b m t => execVminF g d a b m t s
  | .vmaxF g d a b m t => execVmaxF g d a b m t s
  | .vdiv g d a b m t => execVdiv g d a b m t s
  | .vsqrt g d a m t => execVsqrt g d a m t s
  | .vfma g d a b c t => execVfma g d a b c t s
  | .vfnma g d a b c t => execVfnma g d a b c t s
  | .vdot2 g d a b c => execVdot2 g d a b c s
  | .vdot2n g d a b c => execVdot2n g d a b c s
  | .vcmp g d a b m t r => execVcmp g d a b m t r s
  | .vcvtI32F32 g d a m => execVcvtI32F32 g d a m s
  | .vcvtN32F32 g d a m => execVcvtN32F32 g d a m s
  | .vcvtF32I32 g d a m => execVcvtF32I32 g d a m s
  | .vcvtF32N32 g d a m => execVcvtF32N32 g d a m s
  | .vcvtF16F32 g d a m h => execVcvtF16F32 g d a m h s
  | .vcvtBf16F32 g d a m h => execVcvtBf16F32 g d a m h s
  | .vcvtF32F16 g d a m h => execVcvtF32F16 g d a m h s
  | .vcvtF32Bf16 g d a m h => execVcvtF32Bf16 g d a m h s
  | .vrint g d a m => execVrint g d a m s
  | .vupk4 g d a h => execVupk4 g d a h s
  | .vpk4 g d a h => execVpk4 g d a h s
  | .vupk6 g d a => execVupk6 g d a s
  | .vpk6 g d a => execVpk6 g d a s
  | .vdec g d a t m p => execVdec g d a t m p s
  | .vdecs g d a t fs m p => execVdecs g d a t fs m p s
  | .venc g d a t m p => execVenc g d a t m p s
  | .vtbl g t a c => execVtbl g t a c s
  | .vbexp g d a j m q c => execVbexp g d a j m q c s
  | .valign g d a j fs p => execValign g d a j fs p s
  | .vscale g d a b m h => execVscale g d a b m h s
  | .vsumF g d a m t => execVsumF g d a m t s
  | .vrminF g d a m t => execVrminF g d a m t s
  | .vrmaxF g d a m t => execVrmaxF g d a m t s
  | .vsumI32 g d a m => execVsumI32 g d a m s
  | .vsumN32 g d a m => execVsumN32 g d a m s
  | .vrminI32 g d a m => execVrminI32 g d a m s
  | .vrmaxI32 g d a m => execVrmaxI32 g d a m s
  | .vrminN32 g d a m => execVrminN32 g d a m s
  | .vrmaxN32 g d a m => execVrmaxN32 g d a m s
  | .vperm g d a b m => execVperm g d a b m s
  | .vrot g d a k m => execVrot g d a k m s
  | .vslu g d a k m => execVslu g d a k m s
  | .vsld g d a k m => execVsld g d a k m s
  | .vrev g d a m => execVrev g d a m s
  | .vhswap g d a m => execVhswap g d a m s
  | .vpkl g d a b m => execVpkl g d a b m s
  | .vpkh g d a b m => execVpkh g d a b m s
  | .vmov g d a m => execVmov g d a m s
  | .vsplatI32 g d a m => execVsplatI32 g d a m s
  | .vsplatI64 g d a m => execVsplatI64 g d a m s
  | .vins g d a k => execVins g d a k s
  | .vextN32 g d a k => execVextN32 g d a k s
  | .vextI32 g d a k => execVextI32 g d a k s
  | .vsel g d a b m => execVsel g d a b m s
  | .vabsF32 g d a m => execVabsF32 g d a m s
  | .vnegF32 g d a m => execVnegF32 g d a m s
  | .vabsF16 g d a m => execVabsF16 g d a m s
  | .vnegF16 g d a m => execVnegF16 g d a m s
  | .gset g d a => execGset g d a s
  | .gget g d a => execGget g d a s
  | .vabsBf16 g d a m => execVabsBf16 g d a m s
  | .vnegBf16 g d a m => execVnegBf16 g d a m s
  | .mand g d a b => execMand g d a b s
  | .mor g d a b => execMor g d a b s
  | .mxor g d a b => execMxor g d a b s
  | .mandn g d a b => execMandn g d a b s
  | .mnot g d a => execMnot g d a s
  | .mset g d a => execMset g d a s
  | .mget g d a => execMget g d a s
  | .mpop g d a => execMpop g d a s
  | .mfirst g d a => execMfirst g d a s
  | .mlow g d a => execMlow g d a s
  | .rmma g t a b c x y w u v => execRmma g t a b c x y w u v s
  | .rfwd g d a b w u fi => execRfwd g d a b w u fi s
  | .rrev g d a b fi => execRrev g d a b fi s
  | .rchk g d a => execRchk g d a s
  | .rbnd g a b => execRbnd g a b s
  | .rzero g a => execRzero g a s
  | .rbget g d a => execRbget g d a s
  | .radd g d a b => execRadd g d a b s
  | .rsub g d a b => execRsub g d a b s
  | .rmov g d a => execRmov g d a s
  | .rstg g a fs => execRstg g a fs s
  | .rlda g t a c => execRlda g t a c s
  | .radds g t a c => execRadds g t a c s
  | .rsta g t a c => execRsta g t a c s
  | .obld g d a => execObld g d a s
  | .obst g d a => execObst g d a s
  | .obcp g t a b r c => execObcp g t a b r c s
  | .vld g d a c e m o => execVld g d a c e m o s
  | .vst g d a c e m o => execVst g d a c e m o s
  | .copy g t a b c fs => execCopy g t a b c fs s
  | .gather g t a z c fs => execGather g t a z c fs s
  | .scatter g t a z c fs => execScatter g t a z c fs s
  | .nxch g t a b c fs => execNxch g t a b c fs s
  | _ => .next s

/-- REPEAT_PASS: the next pass of the repeat buffer issues its captured word with stepped register names. -/
def execRepeatPass (s : State) : Out :=
  let r := (me s).rep
  if !r.issuing then .next s
  else
    match passInstr s s.cur.pos r r.pass.toNat r.idx.toNat with
    | some i => execCaptured i { s with cur := { s.cur with pass := true, pc := BitVec.ofNat 14 (r.base.toNat + r.idx.toNat) } }
    | none => .next s

/-- The instruction that a word with a reserved field would be, where row 1 of Table 8-7 tests more than its codes (08 R176, R177; 02 R34). -/
def rowOneInstr (w : Nat) : Option Instr :=
  match w / 2 ^ 26 % 64 with
  | 0x0C => if bits w 0 8 = 1 then some (.texit 0) else if bits w 0 8 = 2 then some (.itend 0) else none
  | 0x0E => some (.rep 0 0 0 0 0 (field w 0 4))
  | 0x3A => some (.csrrs 0 0 0 (field w 0 11))
  | _ => none

/-- UNDEF_OP of row 1 before the reserved field of row 3. -/
def rowOneCause (s : State) (w : Nat) : Option Cause :=
  match rowOneInstr w with
  | some i => (match viewCause i s with | some c => if c.row = 1 then some c else none | none => none)
  | none => none

/-- The cause of a word that the decoder rejects: in the user view a privileged major opcode raises PRIV and nothing else. -/
def rejectCause (s : State) (w : Nat) (e : DecodeError) : Cause :=
  let major := w / 2 ^ 26 % 64
  let tval := BitVec.ofNat 64 w
  if 0x39 ≤ major ∧ major ≤ 0x3D ∧ userView s = true then { row := 2, cause := cPRIV, tval := tval }
  else
    match e with
    | .undefOp => { row := 1, cause := cUNDEF, tval := tval }
    | _ => (rowOneCause s w).getD { row := 3, cause := cRSVD, tval := tval }

/-- UNDEFINED_ENCODING: the slot raises the cause of a rejected word, whatever its guard, unless it is STALLED. -/
def execUndefinedEncoding (s : State) : Out := with1 s fun w =>
  match decodeCore w with
  | .ok _ => .next s
  | .error e => .next (if slotWaits (me s) then stalled s else raise s (rejectCause s w e))

end Sys2Proof.Machine
end

