-- ==== Sys2Proof/Machine/Bundle.lean ====
section
/-!
DEFINITION. The header and the bundle of a checkpoint image (23 R420, R422, Table 23-4).

The table names what they hold and no byte layout: the layout here, the counter of the cipher and the empty customisation string of the tag are the model's choice
(log entry 105).
-/
namespace Sys2Proof.Machine

open Sys2Proof

/-! ### The bundle as bytes -/

/-- A partition number, or none. -/
def ownerByte (o : Option Nat) : List Byte := bytesLE 1 (o.getD 0xFF)

/-- The two keys of an installed generation; zeros where none is. -/
def instBytes (x : Option (BitVec 256 × BitVec 256)) : List Byte :=
  match x with
  | some (ke, kt) => bytesLE 32 ke.toNat ++ bytesLE 32 kt.toNat
  | none => bytesLE 64 0

/-- Bytes of a key slot in the bundle. -/
def slotSize : Nat := 136

/-- A key slot: owner, the installed generations with CG, users, and the keys. -/
def slotBytes (x : KeySlot) : List Byte :=
  ownerByte x.owner ++ bytesLE 1 ((if x.inst0.isSome then 1 else 0) + (if x.inst1.isSome then 2 else 0) + 4 * x.cg.toNat) ++
    bytesLE 6 ((x.users.map (2 ^ ·)).foldl (· + ·) 0) ++ instBytes x.inst0 ++ instBytes x.inst1

/-- A key slot from its bytes. -/
def slotIn (b : List Byte) : KeySlot :=
  let f := le b 1 1
  let inst := fun (off : Nat) => (BitVec.ofNat 256 (le b off 32), BitVec.ofNat 256 (le b (off + 32) 32))
  { owner := if le b 0 1 = 0xFF then none else some (le b 0 1)
    inst0 := if f % 2 = 1 then some (inst 8) else none
    inst1 := if f / 2 % 2 = 1 then some (inst 72) else none
    cg := BitVec.ofNat 1 (f / 4)
    users := (List.range 24).filter (fun p => le b 2 6 / 2 ^ p % 2 == 1) }

/-- Bytes of a partition in the bundle. -/
def partSize : Nat := 24

/-- The parameters of a partition's PART_CREATE, and whether it exists. -/
def partBytes (x : Part) : List Byte :=
  bytesLE 1 (if x.st = .none then 0 else 1) ++ bytesLE 1 x.nvf ++ bytesLE 1 x.tkey.toNat ++ bytesLE 1 x.errKey.toNat ++ bytesLE 4 x.groups.toNat ++
    bytesLE 8 x.sblk.toNat ++ bytesLE 8 x.errq.toNat

/-- The entry of a link routing for a destination: whether there is one, and its four ports. -/
def routeEntry (x : Part) (dest : Nat) : List Byte :=
  match tblGet? x.routes dest with
  | none => bytesLE 5 0
  | some ports => bytesLE 1 1 ++ (List.range 4).flatMap (fun h => bytesLE 1 ((ports.getD h none).getD 0xFF))

/-- The routes of a partition from their bytes. -/
def routesIn (b : List Byte) : Tbl (List (Option Nat)) :=
  (List.range 256).filterMap (fun d =>
    if le b (5 * d) 1 = 0 then none
    else some (d, (List.range 4).map (fun h => if le b (5 * d + 1 + h) 1 = 0xFF then none else some (le b (5 * d + 1 + h) 1))))

/-- A partition from its bytes: in CREATED, with its routes; it holds nothing else. -/
def partIn (b routes : List Byte) : Part :=
  { Part.reset with
    st := if le b 0 1 = 0 then .none else .created
    nvf := le b 1 1, tkey := BitVec.ofNat 7 (le b 2 1), errKey := BitVec.ofNat 7 (le b 3 1), groups := BitVec.ofNat 32 (le b 4 4)
    sblk := BitVec.ofNat 64 (le b 8 8), errq := BitVec.ofNat 64 (le b 16 8), routes := routesIn routes }

/-- Where the mode, the partitions and the routes stand in a bundle, and its bytes. -/
def modeOff : Nat := 128 * slotSize
def partsOff : Nat := modeOff + 1
def routesOff : Nat := partsOff + 24 * partSize
def bundleSize : Nat := 65536

/-- The bundle before it is encrypted. -/
def plainBundle (s : State) : List Byte :=
  let b := (List.range 128).flatMap (fun k => slotBytes (keyAt s k)) ++ bytesLE 1 s.pmode ++ (List.range 24).flatMap (fun p => partBytes (partAt s p)) ++
    (List.range 24).flatMap (fun p => (List.range 256).flatMap (routeEntry (partAt s p)))
  b ++ List.replicate (bundleSize - b.length) 0

/-- AES-256 in counter mode under the package checkpoint key; the counter block holds CKN and the number of the 16 bytes. -/
def bundleStream (ckn j : Nat) : List Byte := (bytesLE 16 (aes256 Config.ckKey (BitVec.ofNat 128 (ckn * 2 ^ 96 + j))).toNat).reverse

/-- A bundle and its encryption from each other. -/
def cryptBundle (ckn : Nat) (b : List Byte) : List Byte := xorBytes b ((List.range (bundleSize / 16)).flatMap (bundleStream ckn))

/-- The key slots that a bundle holds. -/
def bundleKeys (b : List Byte) : Tbl KeySlot :=
  (List.range 128).filterMap (fun k => let x := slotIn ((b.drop (slotSize * k)).take slotSize); if x = KeySlot.reset then none else some (k, x))

/-- The partitions that it holds. -/
def bundleParts (b : List Byte) : Tbl Part :=
  (List.range 24).filterMap (fun p =>
    let x := partIn ((b.drop (partsOff + partSize * p)).take partSize) ((b.drop (routesOff + 1280 * p)).take 1280)
    if x.st = .none then none else some (p, x))

/-! ### The header -/

/-- Magic of a checkpoint image. -/
def imageMagic : BitVec 32 := 0x4451434B

/-- Bytes of a checkpoint image. -/
def imageLen : Nat := 426007138304

/-- The digest of the identity public key. -/
def identityDigest : BitVec 256 := shake256 (Config.identity.take 68)

/-- The header, without its tag. -/
def imageHead (x : CkImage) : List Byte :=
  let h := bytesLE 4 x.magic.toNat ++ bytesLE 4 x.ver ++ bytesLE 4 x.ckn.toNat ++ bytesLE 32 x.digest.toNat ++ bytesLE 8 x.len
  h ++ List.replicate (4096 - h.length) 0

/-- The tag over header and bundle. -/
def imageTag (x : CkImage) : BitVec 256 :=
  BitVec.ofNat 256 (ofBytesLE (kmac (bytesBE 32 Config.ckKey.toNat) (imageHead x ++ x.bundle) [] 256))

/-- The tag, the identity and the form of an image are in order (23 R422). -/
def imageSound (x : CkImage) : Bool :=
  x.tag == imageTag x && x.digest == identityDigest && x.magic == imageMagic && x.ver == 1 && x.len == imageLen

/-- The metadata of a line in an image: Poisoned, Broken, or none. -/
def keptLines (t : Tbl LineMeta) : Tbl LineMeta :=
  (t.filter (fun e => e.2.st == .poisoned || e.2.st == .broken)).map (fun e => (e.1, { LineMeta.idle with st := e.2.st }))

/-- The image of the package, before its tag. -/
def bareImage (s : State) : CkImage :=
  { magic := imageMagic, ver := 1, ckn := s.ctl.ckn, digest := identityDigest, len := imageLen, tag := 0
    bundle := cryptBundle s.ctl.ckn.toNat (plainBundle s)
    dram := s.dies.map (·.dram), sealMeta := s.dies.map (·.sealMeta), line := s.dies.map (fun d => keptLines d.line) }

/-- The image of the package. -/
def imageOf (s : State) : CkImage := { bareImage s with tag := imageTag (bareImage s) }

end Sys2Proof.Machine
end

