-- ==== Sys2Proof/Machine/Reset.lean ====
section
/-!
DEFINITION. Whole-package reset, power-gating and the full-memory checkpoint (23 R415 to R422).
-/
namespace Sys2Proof.Machine

open Sys2Proof

/-! ### Whole-package reset (23 R416, R417) -/

/-- A die in phase 0: caches empty; DRAM, its sidebands, the syndrome log and DSYNSTAT are kept. -/
def resetDie (d : Die) : Die :=
  { Die.reset with
    dram := d.dram, line := d.line, sealMeta := d.sealMeta, ecc := d.ecc, log := d.log, logLost := d.logLost, fsrc := d.fsrc, viralBit := d.viralBit }

/-- The control region in phase 0. -/
def resetCtl (c : Ctl) : Ctl :=
  { c with ckdir := false, cklist := 0, ckerr := 0, ck := 0, boot := 0, fresh := true }

/-- The management region in phase 0; the leaves that are left stand in the non-volatile store. -/
def resetMgmt (m : Mgmt) : Mgmt := { Mgmt.reset with leaf := m.leaf, leavesLeft := m.leavesLeft }

/-- Phase 0 of whole-package reset; TILEID names package 0 until phase 2 (01 Table 1-3). -/
def packageReset (s : State) : State :=
  { State.reset with
    fresh := s.fresh, dies := s.dies.map resetDie, ctl := resetCtl s.ctl, mgmt := resetMgmt s.mgmt, image := s.image }

/-- PERST_ASSERT. -/
def execPerstAssert (s : State) : Out := .next (packageReset s)

/-- HOT_RESET. -/
def execHotReset (s : State) : Out := .next (packageReset s)

/-- PF0_FUNCTION_LEVEL_RESET. -/
def execPf0FunctionLevelReset (s : State) : Out := .next (packageReset s)

/-- PACKAGE_RESET_REQUEST: a write of PCTL.RST = 1. -/
def execPackageResetRequest (s : State) : Out := .next (packageReset s)

/-- VF_FUNCTION_LEVEL_RESET: the region of one virtual function, and nothing else. -/
def execVfFunctionLevelReset (s : State) : Out := with1 s fun vf =>
  .next (setVf s vf { Vf.reset with heldWrites := (vfAt s vf).heldWrites })

/-- The firmware that runs: the image of the first flash slot whose signature verifies and whose security version is not below the stored minimum (23 R417). -/
def acceptedImage (c : Ctl) : Option FlashImg := c.flash.toList.find? (fun f => f.signed && decide (c.minVersion ≤ f.version))

/-- RESET_PHASE_COMPLETE: firmware verification follows phase 0; an accepted image gives FWDIG and raises the stored minimum; then training, and the package is
ready (23 R416, R417). -/
def execResetPhaseComplete (s : State) : Out :=
  let c := s.ctl
  if c.boot = 0 then .next { s with ctl := { c with boot := 1 } }
  else if c.boot = 1 then
    .next (match acceptedImage c with
      | some f => { s with ctl := { c with boot := 2, minVersion := f.version, fwdig := f.digest } }
      | none => { s with ctl := { c with boot := 4 } })
  else if c.boot = 2 then .next { s with ctl := { c with boot := 3 }, pkg := c.pkgid, testMode := c.test }
  else .next s

/-- Every die syndrome log is emptied. -/
def clearLogs (s : State) : State := { s with dies := s.dies.map (fun d => { d with log := [], logLost := 0, fsrc := 0 }) }

/-- The registers of the control region: PCTL, PSTAT and CKLIST (23 R415, Tables 23-1, 23-2). -/
def ctlWord (c : Ctl) (k : Nat) : Word :=
  match k with
  | 0 => BitVec.ofNat 64 (c.pkgid.toNat * 2 ^ 48 + (if c.test then 2 ^ 4 else 0) + (if c.ckdir then 2 ^ 3 else 0))
  | 1 => BitVec.ofNat 64 (c.ckn.toNat * 2 ^ 32 + c.ckerr.toNat * 2 ^ 12 + c.ck.toNat * 2 ^ 8 + c.boot.toNat)
  | 2 => c.cklist
  | _ => 0

/-- Entries of an extent list that the host's memory may hold. -/
def listLimit : Nat := 2 ^ 32

/-- The list that stands in the host's memory at CKLIST: entries that no rule of this package gives (23 R420; log entry 105). -/
def hostList (fresh : Nat) : CkList :=
  { entries := (List.range ((Config.freeWord fresh).toNat % listLimit)).map (fun i =>
      ((Config.freeWord (fresh + 1 + 2 * i)).toNat, (Config.freeWord (fresh + 2 + 2 * i)).toNat)) }

/-- CKGO starts the operation that CKDIR names. -/
def startCheckpoint (s : State) : State :=
  if s.ctl.ckdir then later s .checkpointRestore .none
  else { later s .checkpointSave (.ckList (hostList s.fresh)) with fresh := s.fresh + 1 + 2 * listLimit }

/-- A write to a register of the control region: PKGID, TEST and CKDIR are written, then LOGCLR, CKGO and RST act (23 Table 23-1). -/
def setCtlWord (s : State) (k : Nat) (m v : Word) : State :=
  let c := s.ctl
  match k with
  | 0 =>
    let x := under m (ctlWord c 0) v
    let s1 := { s with ctl := { c with pkgid := BitVec.ofNat 8 (bitsOf x 55 48), test := x.getLsbD 4, ckdir := x.getLsbD 3 } }
    let s2 := if v.getLsbD 1 then clearLogs s1 else s1
    let s3 := if v.getLsbD 2 then startCheckpoint s2 else s2
    if v.getLsbD 0 then packageReset s3 else s3
  | 2 => { s with ctl := { c with cklist := under m c.cklist v } }
  | _ => s

/-- LOG_CLEAR: PCTL.LOGCLR; or, with an access of the host to the control region as its operand, that access (23 R415, Table 23-1). -/
def execLogClear (s : State) : Out :=
  match s.arg with
  | .region _ h => .next (regionAccess s 0x1000 (ctlWord s.ctl) setCtlWord h)
  | _ => .next (clearLogs s)

/-! ### Power-gating (23 R418, R419) -/

/-- Every condition of R418 holds of a die. -/
def dieIdle (s : State) (d : Nat) : Bool :=
  !s.tiles.any (fun e => dieOf e.1 == d && ((tileAt s e.1).berth.isSome || (tileAt s e.1).dom.isSome)) &&
    !s.parts.any (fun e => e.2.saved.any (fun x => x.banks.any (fun q => dieOf q.1 == d))) &&
    !s.net.any (fun n => dieOf n.pos == d || dieOf (gridPos n.msg.tx n.msg.ty) == d) &&
    !(List.range 12).any (fun j => portDie j == d && ((portAt s j).st == .up || (portAt s j).st == .training))

/-- POWER_GATE: after 600,000 idle cycles the dirty L2 lines of the die go into its seal cache, and its island takes over. -/
def execPowerGate (s : State) : Out := with1 s fun d =>
  let x := dieAt s d
  if x.gated || decide (x.idle < Config.gateCycles) || !dieIdle s d then .next s
  else
    let s1 := (x.l2.map (·.1)).foldl evictLine s
    .next (setDie s1 d { dieAt s1 d with gated := true })

/-- A tile of a die that wakes: its storage is zero; retired channels stay retired. -/
def wokenTile (t : Tile) : Tile := { Tile.reset with reta := t.reta, retb := t.retb, nextOp := t.nextOp }

/-- DIE_WAKE. -/
def execDieWake (s : State) : Out := with1 s fun d =>
  if !(dieAt s d).gated then .next s
  else
    .next
      { setDie s d { dieAt s d with gated := false, waking := false, idle := 0 } with
        tiles := s.tiles.map (fun e => if dieOf e.1 = d then (e.1, wokenTile e.2) else e)
        switches := s.switches.map (fun e => if dieOf e.1 = d then (e.1, Switch.reset) else e) }

/-! ### Checkpoint (23 R420 to R422) -/

/-- CK and CKERR. -/
def setCk (s : State) (ck err : Nat) : State := { s with ctl := { s.ctl with ck := BitVec.ofNat 4 ck, ckerr := BitVec.ofNat 4 err } }

/-- Some partition has running contexts. -/
def anyRunning (s : State) : Bool := s.parts.any (fun e => e.2.st != .none && runningContexts s e.1)

/-- Every line homed here in E, M or O is recalled, and every block written back, once no transaction runs; whether nothing is left dirty (23 R420, step 3). -/
def flushAll (s : State) : State × Bool :=
  if s.dies.any (fun d => !d.trans.isEmpty) then (s, false)
  else
    let s1 := s.dies.toList.foldl (fun s d => (d.line.map (·.1)).foldl recallLine s) s
    writeBackAll s1 (heldBlocks s1 (fun _ => true))

/-- CHECKPOINT_SAVE: the operation of CKGO with CKDIR = 0, with the list at CKLIST: the refusals, then CKN rises, and requests are held (23 R420 steps 1 and 2). Before
the package is ready the controller is busy: the model's choice (log entry 105). -/
def execCheckpointSave (s : State) : Out :=
  match s.arg with
  | .ckList l =>
    if s.ctl.ckdir = true ∨ s.ctl.ck = 1 ∨ s.ctl.ck = 2 then .next s
    else if s.viral then .next (setCk s 4 5)
    else if s.ctl.boot ≠ 3 ∨ anyRunning s = true then .next (setCk s 4 1)
    else if !l.wellFormed || s.ctl.cklist.toNat % 4096 != 0 || decide (l.total < imageLen) then .next (setCk s 4 2)
    else .next { s with ctl := { s.ctl with ckn := s.ctl.ckn + 1, ck := 1, ckerr := 0 } }
  | _ => .next s

/-- CHECKPOINT_RESTORE: the operation of CKGO with CKDIR = 1: only before the first management command after a reset, of an image that passes its checks
(23 R422). -/
def execCheckpointRestore (s : State) : Out :=
  if s.ctl.ckdir = false ∨ s.ctl.ck = 1 ∨ s.ctl.ck = 2 then .next s
  else if s.viral then .next (setCk s 4 5)
  else if s.ctl.boot ≠ 3 ∨ s.ctl.fresh = false then .next (setCk s 4 1)
  else
    match s.image with
    | none => .next (setCk s 4 3)
    | some x => if imageSound x = false then .next (setCk s 4 3) else if x.ckn ≠ s.ctl.ckn then .next (setCk s 4 4) else .next (setCk s 2 0)

/-- A die rewritten from an image, the code of every line recomputed. -/
def restoredDie (x : CkImage) (i : Nat) (d : Die) : Die :=
  { d with
    dram := vget [] x.dram i, sealMeta := vget [] x.sealMeta i, line := vget [] x.line i, ecc := [], sc := [], l2 := [], rdc := [], wbuf := []
    sent := [], cmp := [], trans := [], lostTold := [], sealTold := [], poisonSeen := [] }

/-- CHECKPOINT_COMPLETE: a save writes memory back and then its image, header last (23 R420, steps 3 to 5); a restore has rewritten DRAM and reinstates the bundle
(R422). What was held goes on. -/
def execCheckpointComplete (s : State) : Out :=
  if s.ctl.ck = 1 then
    (let r := flushAll s
     .next (if r.2 then setCk { r.1 with image := some (imageOf r.1) } 3 0 else r.1))
  else if s.ctl.ck = 2 then
    match s.image with
    | none => .next (setCk s 4 3)
    | some x =>
      let b := cryptBundle x.ckn.toNat x.bundle
      .next (setCk
        { s with
          dies := Vector.ofFn (fun i => restoredDie x i.val (vget Die.reset s.dies i.val))
          keys := bundleKeys b, pmode := le b modeOff 1, parts := bundleParts b } 3 0)
  else .next s

end Sys2Proof.Machine
end

