-- ==== Sys2Proof/Machine/Dispatch.lean ====
section
/-!
DEFINITION. One arm per instruction.
-/
namespace Sys2Proof.Machine

open Sys2Proof

def exec (i : Instr) (s : State) : Host.Outcome State Fault Refusal :=
  match i with
  | .add g d a b => Sys2Proof.Machine.execAdd g d a b s
  | .sub g d a b => Sys2Proof.Machine.execSub g d a b s
  | .and g d a b => Sys2Proof.Machine.execAnd g d a b s
  | .or g d a b => Sys2Proof.Machine.execOr g d a b s
  | .xor g d a b => Sys2Proof.Machine.execXor g d a b s
  | .andn g d a b => Sys2Proof.Machine.execAndn g d a b s
  | .sll g d a b => Sys2Proof.Machine.execSll g d a b s
  | .srl g d a b => Sys2Proof.Machine.execSrl g d a b s
  | .sra g d a b => Sys2Proof.Machine.execSra g d a b s
  | .min g d a b => Sys2Proof.Machine.execMin g d a b s
  | .max g d a b => Sys2Proof.Machine.execMax g d a b s
  | .minu g d a b => Sys2Proof.Machine.execMinu g d a b s
  | .maxu g d a b => Sys2Proof.Machine.execMaxu g d a b s
  | .mul g d a b => Sys2Proof.Machine.execMul g d a b s
  | .mulh g d a b => Sys2Proof.Machine.execMulh g d a b s
  | .mulhu g d a b => Sys2Proof.Machine.execMulhu g d a b s
  | .div g d a b => Sys2Proof.Machine.execDiv g d a b s
  | .divu g d a b => Sys2Proof.Machine.execDivu g d a b s
  | .rem g d a b => Sys2Proof.Machine.execRem g d a b s
  | .remu g d a b => Sys2Proof.Machine.execRemu g d a b s
  | .clz g d a => Sys2Proof.Machine.execClz g d a s
  | .ctz g d a => Sys2Proof.Machine.execCtz g d a s
  | .popc g d a => Sys2Proof.Machine.execPopc g d a s
  | .addi g d a fi => Sys2Proof.Machine.execAddi g d a fi s
  | .andi g d a fi => Sys2Proof.Machine.execAndi g d a fi s
  | .ori g d a fi => Sys2Proof.Machine.execOri g d a fi s
  | .xori g d a fi => Sys2Proof.Machine.execXori g d a fi s
  | .slli g d a k => Sys2Proof.Machine.execSlli g d a k s
  | .srli g d a k => Sys2Proof.Machine.execSrli g d a k s
  | .srai g d a k => Sys2Proof.Machine.execSrai g d a k s
  | .cmpi g d a r fi => Sys2Proof.Machine.execCmpi g d a r fi s
  | .limm g d p fi => Sys2Proof.Machine.execLimm g d p fi s
  | .cmp g d a b r => Sys2Proof.Machine.execCmp g d a b r s
  | .pand g d a b => Sys2Proof.Machine.execPand g d a b s
  | .por g d a b => Sys2Proof.Machine.execPor g d a b s
  | .pxor g d a b => Sys2Proof.Machine.execPxor g d a b s
  | .pandn g d a b => Sys2Proof.Machine.execPandn g d a b s
  | .pnot g d a => Sys2Proof.Machine.execPnot g d a s
  | .pnz g d a => Sys2Proof.Machine.execPnz g d a s
  | .pget g d a => Sys2Proof.Machine.execPget g d a s
  | .br g o => Sys2Proof.Machine.execBr g o s
  | .jalr g d a => Sys2Proof.Machine.execJalr g d a s
  | .texit g => Sys2Proof.Machine.execTexit g s
  | .itend g => Sys2Proof.Machine.execItend g s
  | .csrrw g d a c => Sys2Proof.Machine.execCsrrw g d a c s
  | .csrrc g d a c => Sys2Proof.Machine.execCsrrc g d a c s
  | .widx g d a fs f => Sys2Proof.Machine.execWidx g d a fs f s
  | .rep g t a fs m l => Sys2Proof.Machine.execRep g t a fs m l s
  | .repeatPass => Sys2Proof.Machine.execRepeatPass s
  | .lea g d a b k => Sys2Proof.Machine.execLea g d a b k s
  | .lpc g d o => Sys2Proof.Machine.execLpc g d o s
  | .lwin g d a w => Sys2Proof.Machine.execLwin g d a w s
  | .vaddI32 g d a b m => Sys2Proof.Machine.execVaddI32 g d a b m s
  | .vsubI32 g d a b m => Sys2Proof.Machine.execVsubI32 g d a b m s
  | .vandI32 g d a b m => Sys2Proof.Machine.execVandI32 g d a b m s
  | .vorI32 g d a b m => Sys2Proof.Machine.execVorI32 g d a b m s
  | .vxorI32 g d a b m => Sys2Proof.Machine.execVxorI32 g d a b m s
  | .vandnI32 g d a b m => Sys2Proof.Machine.execVandnI32 g d a b m s
  | .vsllI32 g d a b m => Sys2Proof.Machine.execVsllI32 g d a b m s
  | .vsrlN32 g d a b m => Sys2Proof.Machine.execVsrlN32 g d a b m s
  | .vsraI32 g d a b m => Sys2Proof.Machine.execVsraI32 g d a b m s
  | .vminI32 g d a b m => Sys2Proof.Machine.execVminI32 g d a b m s
  | .vmaxI32 g d a b m => Sys2Proof.Machine.execVmaxI32 g d a b m s
  | .vminN32 g d a b m => Sys2Proof.Machine.execVminN32 g d a b m s
  | .vmaxN32 g d a b m => Sys2Proof.Machine.execVmaxN32 g d a b m s
  | .vmulI32 g d a b m => Sys2Proof.Machine.execVmulI32 g d a b m s
  | .vmulhI32 g d a b m => Sys2Proof.Machine.execVmulhI32 g d a b m s
  | .vmulhN32 g d a b m => Sys2Proof.Machine.execVmulhN32 g d a b m s
  | .vaddsI32 g d a b m => Sys2Proof.Machine.execVaddsI32 g d a b m s
  | .vaddsN32 g d a b m => Sys2Proof.Machine.execVaddsN32 g d a b m s
  | .vsubsI32 g d a b m => Sys2Proof.Machine.execVsubsI32 g d a b m s
  | .vsubsN32 g d a b m => Sys2Proof.Machine.execVsubsN32 g d a b m s
  | .vabsI32 g d a m => Sys2Proof.Machine.execVabsI32 g d a m s
  | .vclzN32 g d a m => Sys2Proof.Machine.execVclzN32 g d a m s
  | .vpopcN32 g d a m => Sys2Proof.Machine.execVpopcN32 g d a m s
  | .vaddF g d a b m t => Sys2Proof.Machine.execVaddF g d a b m t s
  | .vsubF g d a b m t => Sys2Proof.Machine.execVsubF g d a b m t s
  | .vmulF g d a b m t => Sys2Proof.Machine.execVmulF g d a b m t s
  | .vminF g d a b m t => Sys2Proof.Machine.execVminF g d a b m t s
  | .vmaxF g d a b m t => Sys2Proof.Machine.execVmaxF g d a b m t s
  | .vdiv g d a b m t => Sys2Proof.Machine.execVdiv g d a b m t s
  | .vsqrt g d a m t => Sys2Proof.Machine.execVsqrt g d a m t s
  | .vfma g d a b c t => Sys2Proof.Machine.execVfma g d a b c t s
  | .vfnma g d a b c t => Sys2Proof.Machine.execVfnma g d a b c t s
  | .vdot2 g d a b c => Sys2Proof.Machine.execVdot2 g d a b c s
  | .vdot2n g d a b c => Sys2Proof.Machine.execVdot2n g d a b c s
  | .vcmp g d a b m t r => Sys2Proof.Machine.execVcmp g d a b m t r s
  | .vcvtI32F32 g d a m => Sys2Proof.Machine.execVcvtI32F32 g d a m s
  | .vcvtN32F32 g d a m => Sys2Proof.Machine.execVcvtN32F32 g d a m s
  | .vcvtF32I32 g d a m => Sys2Proof.Machine.execVcvtF32I32 g d a m s
  | .vcvtF32N32 g d a m => Sys2Proof.Machine.execVcvtF32N32 g d a m s
  | .vcvtF16F32 g d a m h => Sys2Proof.Machine.execVcvtF16F32 g d a m h s
  | .vcvtBf16F32 g d a m h => Sys2Proof.Machine.execVcvtBf16F32 g d a m h s
  | .vcvtF32F16 g d a m h => Sys2Proof.Machine.execVcvtF32F16 g d a m h s
  | .vcvtF32Bf16 g d a m h => Sys2Proof.Machine.execVcvtF32Bf16 g d a m h s
  | .vrint g d a m => Sys2Proof.Machine.execVrint g d a m s
  | .vupk4 g d a h => Sys2Proof.Machine.execVupk4 g d a h s
  | .vpk4 g d a h => Sys2Proof.Machine.execVpk4 g d a h s
  | .vupk6 g d a => Sys2Proof.Machine.execVupk6 g d a s
  | .vpk6 g d a => Sys2Proof.Machine.execVpk6 g d a s
  | .vdec g d a t m p => Sys2Proof.Machine.execVdec g d a t m p s
  | .vdecs g d a t fs m p => Sys2Proof.Machine.execVdecs g d a t fs m p s
  | .venc g d a t m p => Sys2Proof.Machine.execVenc g d a t m p s
  | .vtbl g t a c => Sys2Proof.Machine.execVtbl g t a c s
  | .vbexp g d a j m q c => Sys2Proof.Machine.execVbexp g d a j m q c s
  | .valign g d a j fs p => Sys2Proof.Machine.execValign g d a j fs p s
  | .vscale g d a b m h => Sys2Proof.Machine.execVscale g d a b m h s
  | .vsumF g d a m t => Sys2Proof.Machine.execVsumF g d a m t s
  | .vrminF g d a m t => Sys2Proof.Machine.execVrminF g d a m t s
  | .vrmaxF g d a m t => Sys2Proof.Machine.execVrmaxF g d a m t s
  | .vsumI32 g d a m => Sys2Proof.Machine.execVsumI32 g d a m s
  | .vsumN32 g d a m => Sys2Proof.Machine.execVsumN32 g d a m s
  | .vrminI32 g d a m => Sys2Proof.Machine.execVrminI32 g d a m s
  | .vrmaxI32 g d a m => Sys2Proof.Machine.execVrmaxI32 g d a m s
  | .vrminN32 g d a m => Sys2Proof.Machine.execVrminN32 g d a m s
  | .vrmaxN32 g d a m => Sys2Proof.Machine.execVrmaxN32 g d a m s
  | .vperm g d a b m => Sys2Proof.Machine.execVperm g d a b m s
  | .vrot g d a k m => Sys2Proof.Machine.execVrot g d a k m s
  | .vslu g d a k m => Sys2Proof.Machine.execVslu g d a k m s
  | .vsld g d a k m => Sys2Proof.Machine.execVsld g d a k m s
  | .vrev g d a m => Sys2Proof.Machine.execVrev g d a m s
  | .vhswap g d a m => Sys2Proof.Machine.execVhswap g d a m s
  | .vpkl g d a b m => Sys2Proof.Machine.execVpkl g d a b m s
  | .vpkh g d a b m => Sys2Proof.Machine.execVpkh g d a b m s
  | .vmov g d a m => Sys2Proof.Machine.execVmov g d a m s
  | .vsplatI32 g d a m => Sys2Proof.Machine.execVsplatI32 g d a m s
  | .vsplatI64 g d a m => Sys2Proof.Machine.execVsplatI64 g d a m s
  | .vins g d a k => Sys2Proof.Machine.execVins g d a k s
  | .vextN32 g d a k => Sys2Proof.Machine.execVextN32 g d a k s
  | .vextI32 g d a k => Sys2Proof.Machine.execVextI32 g d a k s
  | .vsel g d a b m => Sys2Proof.Machine.execVsel g d a b m s
  | .vabsF32 g d a m => Sys2Proof.Machine.execVabsF32 g d a m s
  | .vnegF32 g d a m => Sys2Proof.Machine.execVnegF32 g d a m s
  | .vabsF16 g d a m => Sys2Proof.Machine.execVabsF16 g d a m s
  | .vnegF16 g d a m => Sys2Proof.Machine.execVnegF16 g d a m s
  | .gset g d a => Sys2Proof.Machine.execGset g d a s
  | .gget g d a => Sys2Proof.Machine.execGget g d a s
  | .vabsBf16 g d a m => Sys2Proof.Machine.execVabsBf16 g d a m s
  | .vnegBf16 g d a m => Sys2Proof.Machine.execVnegBf16 g d a m s
  | .mand g d a b => Sys2Proof.Machine.execMand g d a b s
  | .mor g d a b => Sys2Proof.Machine.execMor g d a b s
  | .mxor g d a b => Sys2Proof.Machine.execMxor g d a b s
  | .mandn g d a b => Sys2Proof.Machine.execMandn g d a b s
  | .mnot g d a => Sys2Proof.Machine.execMnot g d a s
  | .mset g d a => Sys2Proof.Machine.execMset g d a s
  | .mget g d a => Sys2Proof.Machine.execMget g d a s
  | .mpop g d a => Sys2Proof.Machine.execMpop g d a s
  | .mfirst g d a => Sys2Proof.Machine.execMfirst g d a s
  | .mlow g d a => Sys2Proof.Machine.execMlow g d a s
  | .rmma g t a b c x y w u v => Sys2Proof.Machine.execRmma g t a b c x y w u v s
  | .rmmaStart => Sys2Proof.Machine.execRmmaStart s
  | .rmmaComplete => Sys2Proof.Machine.execRmmaComplete s
  | .rfwd g d a b w u fi => Sys2Proof.Machine.execRfwd g d a b w u fi s
  | .rrev g d a b fi => Sys2Proof.Machine.execRrev g d a b fi s
  | .rchk g d a => Sys2Proof.Machine.execRchk g d a s
  | .rbnd g a b => Sys2Proof.Machine.execRbnd g a b s
  | .rzero g a => Sys2Proof.Machine.execRzero g a s
  | .rbget g d a => Sys2Proof.Machine.execRbget g d a s
  | .radd g d a b => Sys2Proof.Machine.execRadd g d a b s
  | .rsub g d a b => Sys2Proof.Machine.execRsub g d a b s
  | .rmov g d a => Sys2Proof.Machine.execRmov g d a s
  | .rstg g a fs => Sys2Proof.Machine.execRstg g a fs s
  | .rlda g t a c => Sys2Proof.Machine.execRlda g t a c s
  | .radds g t a c => Sys2Proof.Machine.execRadds g t a c s
  | .rsta g t a c => Sys2Proof.Machine.execRsta g t a c s
  | .accumulatorImageComplete => Sys2Proof.Machine.execAccumulatorImageComplete s
  | .obld g d a => Sys2Proof.Machine.execObld g d a s
  | .obst g d a => Sys2Proof.Machine.execObst g d a s
  | .obcp g t a b r c => Sys2Proof.Machine.execObcp g t a b r c s
  | .ld g d a c e z x o => Sys2Proof.Machine.execLd g d a c e z x o s
  | .loadReply => Sys2Proof.Machine.execLoadReply s
  | .st g d a c e z o => Sys2Proof.Machine.execSt g d a c e z o s
  | .vld g d a c e m o => Sys2Proof.Machine.execVld g d a c e m o s
  | .vst g d a c e m o => Sys2Proof.Machine.execVst g d a c e m o s
  | .atomCas g d a c e z o => Sys2Proof.Machine.execAtomCas g d a c e z o s
  | .atom g d a c e z o => Sys2Proof.Machine.execAtom g d a c e z o s
  | .accessPerform => Sys2Proof.Machine.execAccessPerform s
  | .fence g fs m => Sys2Proof.Machine.execFence g fs m s
  | .joinComplete => Sys2Proof.Machine.execJoinComplete s
  | .copy g t a b c fs => Sys2Proof.Machine.execCopy g t a b c fs s
  | .gather g t a z c fs => Sys2Proof.Machine.execGather g t a z c fs s
  | .scatter g t a z c fs => Sys2Proof.Machine.execScatter g t a z c fs s
  | .nxch g t a b c fs => Sys2Proof.Machine.execNxch g t a b c fs s
  | .engineOperationComplete => Sys2Proof.Machine.execEngineOperationComplete s
  | .beatSubtraction => Sys2Proof.Machine.execBeatSubtraction s
  | .bara g d a c => Sys2Proof.Machine.execBara g d a c s
  | .barw g a b c => Sys2Proof.Machine.execBarw g a b c s
  | .bari g a b c => Sys2Proof.Machine.execBari g a b c s
  | .barrierWake => Sys2Proof.Machine.execBarrierWake s
  | .twait g a => Sys2Proof.Machine.execTwait g a s
  | .ttest g d a => Sys2Proof.Machine.execTtest g d a s
  | .tdrain g => Sys2Proof.Machine.execTdrain g s
  | .msend g d a n h => Sys2Proof.Machine.execMsend g d a n h s
  | .coll g t a => Sys2Proof.Machine.execColl g t a s
  | .collComplete => Sys2Proof.Machine.execCollComplete s
  | .memberLoss => Sys2Proof.Machine.execMemberLoss s
  | .launch g d a c => Sys2Proof.Machine.execLaunch g d a c s
  | .trap g a c => Sys2Proof.Machine.execTrap g a c s
  | .svc g a c => Sys2Proof.Machine.execSvc g a c s
  | .brk g a c => Sys2Proof.Machine.execBrk g a c s
  | .uret g => Sys2Proof.Machine.execUret g s
  | .eret g => Sys2Proof.Machine.execEret g s
  | .wfi g => Sys2Proof.Machine.execWfi g s
  | .csrrs g d a c => Sys2Proof.Machine.execCsrrs g d a c s
  | .tlbinvAll g => Sys2Proof.Machine.execTlbinvAll g s
  | .tlbinvAsid g b => Sys2Proof.Machine.execTlbinvAsid g b s
  | .tlbinvPage g a b z => Sys2Proof.Machine.execTlbinvPage g a b z s
  | .tlbinvVa g a z => Sys2Proof.Machine.execTlbinvVa g a z s
  | .ssave g => Sys2Proof.Machine.execSsave g s
  | .srest g => Sys2Proof.Machine.execSrest g s
  | .binit g a => Sys2Proof.Machine.execBinit g a s
  | .bwb g a => Sys2Proof.Machine.execBwb g a s
  | .pwb g => Sys2Proof.Machine.execPwb g s
  | .route e n => Sys2Proof.Machine.execRoute e n s
  | .hold e n => Sys2Proof.Machine.execHold e n s
  | .routec e c => Sys2Proof.Machine.execRoutec e c s
  | .switchTransfer => Sys2Proof.Machine.execSwitchTransfer s
  | .setc c v => Sys2Proof.Machine.execSetc c v s
  | .setch c v => Sys2Proof.Machine.execSetch c v s
  | .ldc c fi => Sys2Proof.Machine.execLdc c fi s
  | .dbnz c o => Sys2Proof.Machine.execDbnz c o s
  | .bzc c o => Sys2Proof.Machine.execBzc c o s
  | .bcz fi o => Sys2Proof.Machine.execBcz fi o s
  | .bcnz fi o => Sys2Proof.Machine.execBcnz fi o s
  | .jmp o => Sys2Proof.Machine.execJmp o s
  | .wait fi => Sys2Proof.Machine.execWait fi s
  | .drop fi n => Sys2Proof.Machine.execDrop fi n s
  | .iend => Sys2Proof.Machine.execIend s
  | .nfcWrite => Sys2Proof.Machine.execNfcWrite s
  | .flagsAccess => Sys2Proof.Machine.execFlagsAccess s
  | .seedAccess => Sys2Proof.Machine.execSeedAccess s
  | .unchkAccess => Sys2Proof.Machine.execUnchkAccess s
  | .rnscfgWrite => Sys2Proof.Machine.execRnscfgWrite s
  | .rnsctlWrite => Sys2Proof.Machine.execRnsctlWrite s
  | .sstatusWrite => Sys2Proof.Machine.execSstatusWrite s
  | .pmapWrite => Sys2Proof.Machine.execPmapWrite s
  | .pmapxWrite => Sys2Proof.Machine.execPmapxWrite s
  | .asidWrite => Sys2Proof.Machine.execAsidWrite s
  | .ptbaseWrite => Sys2Proof.Machine.execPtbaseWrite s
  | .qtimeWrite => Sys2Proof.Machine.execQtimeWrite s
  | .budgetSelect => Sys2Proof.Machine.execBudgetSelect s
  | .budgetSet => Sys2Proof.Machine.execBudgetSet s
  | .faultinjArm => Sys2Proof.Machine.execFaultinjArm s
  | .csrWrite => Sys2Proof.Machine.execCsrWrite s
  | .stepInstall => Sys2Proof.Machine.execStepInstall s
  | .stepSelect => Sys2Proof.Machine.execStepSelect s
  | .stepCollective => Sys2Proof.Machine.execStepCollective s
  | .stepEnd => Sys2Proof.Machine.execStepEnd s
  | .stepComplete => Sys2Proof.Machine.execStepComplete s
  | .generatorReadIssue => Sys2Proof.Machine.execGeneratorReadIssue s
  | .generatorPush => Sys2Proof.Machine.execGeneratorPush s
  | .quiescent => Sys2Proof.Machine.execQuiescent s
  | .taskMessageTake => Sys2Proof.Machine.execTaskMessageTake s
  | .hintedWalkStep => Sys2Proof.Machine.execHintedWalkStep s
  | .taskDispatch => Sys2Proof.Machine.execTaskDispatch s
  | .spillToQueue => Sys2Proof.Machine.execSpillToQueue s
  | .drainComplete => Sys2Proof.Machine.execDrainComplete s
  | .coherenceRead => Sys2Proof.Machine.execCoherenceRead s
  | .ownershipRequest => Sys2Proof.Machine.execOwnershipRequest s
  | .homeLoad => Sys2Proof.Machine.execHomeLoad s
  | .homeStoreOrAtomic => Sys2Proof.Machine.execHomeStoreOrAtomic s
  | .invalidation => Sys2Proof.Machine.execInvalidation s
  | .transactionEnd => Sys2Proof.Machine.execTransactionEnd s
  | .rdcEviction => Sys2Proof.Machine.execRdcEviction s
  | .writeBackAcknowledgement => Sys2Proof.Machine.execWriteBackAcknowledgement s
  | .l2Eviction => Sys2Proof.Machine.execL2Eviction s
  | .sealCacheFill => Sys2Proof.Machine.execSealCacheFill s
  | .sealCacheEviction => Sys2Proof.Machine.execSealCacheEviction s
  | .pageTableWalk => Sys2Proof.Machine.execPageTableWalk s
  | .accessRetry => Sys2Proof.Machine.execAccessRetry s
  | .deferredAccessFault => Sys2Proof.Machine.execDeferredAccessFault s
  | .eventTake => Sys2Proof.Machine.execEventTake s
  | .taskOverrun => Sys2Proof.Machine.execTaskOverrun s
  | .schedulingPass => Sys2Proof.Machine.execSchedulingPass s
  | .dispatch => Sys2Proof.Machine.execDispatch s
  | .capture => Sys2Proof.Machine.execCapture s
  | .drainLimitExpiry => Sys2Proof.Machine.execDrainLimitExpiry s
  | .resume => Sys2Proof.Machine.execResume s
  | .taskGridEnd => Sys2Proof.Machine.execTaskGridEnd s
  | .budgetPeriod => Sys2Proof.Machine.execBudgetPeriod s
  | .cmdPreemptionSave => Sys2Proof.Machine.execCmdPreemptionSave s
  | .cmdEndWork => Sys2Proof.Machine.execCmdEndWork s
  | .cmdDiscardSave => Sys2Proof.Machine.execCmdDiscardSave s
  | .cmdUnknownOp => Sys2Proof.Machine.execCmdUnknownOp s
  | .syndromeQueueMove => Sys2Proof.Machine.execSyndromeQueueMove s
  | .linkFlitReplay => Sys2Proof.Machine.execLinkFlitReplay s
  | .linkFlitLost => Sys2Proof.Machine.execLinkFlitLost s
  | .portRetrain => Sys2Proof.Machine.execPortRetrain s
  | .portTrainingComplete => Sys2Proof.Machine.execPortTrainingComplete s
  | .packageLost => Sys2Proof.Machine.execPackageLost s
  | .rowActivationBackoff => Sys2Proof.Machine.execRowActivationBackoff s
  | .watchdogExpiry => Sys2Proof.Machine.execWatchdogExpiry s
  | .powerOrClockFault => Sys2Proof.Machine.execPowerOrClockFault s
  | .baseDieUncorrectable => Sys2Proof.Machine.execBaseDieUncorrectable s
  | .powerGate => Sys2Proof.Machine.execPowerGate s
  | .dieWake => Sys2Proof.Machine.execDieWake s
  | .keyInstall => Sys2Proof.Machine.execKeyInstall s
  | .keyDrop => Sys2Proof.Machine.execKeyDrop s
  | .keySeal => Sys2Proof.Machine.execKeySeal s
  | .partCreate => Sys2Proof.Machine.execPartCreate s
  | .partStart => Sys2Proof.Machine.execPartStart s
  | .partDestroy => Sys2Proof.Machine.execPartDestroy s
  | .modeSet => Sys2Proof.Machine.execModeSet s
  | .routeSet => Sys2Proof.Machine.execRouteSet s
  | .groupForm => Sys2Proof.Machine.execGroupForm s
  | .groupFormed => Sys2Proof.Machine.execGroupFormed s
  | .groupFormTimeout => Sys2Proof.Machine.execGroupFormTimeout s
  | .groupDrop => Sys2Proof.Machine.execGroupDrop s
  | .blockInit => Sys2Proof.Machine.execBlockInit s
  | .attestIdentity => Sys2Proof.Machine.execAttestIdentity s
  | .attestReport => Sys2Proof.Machine.execAttestReport s
  | .keyShareGrant => Sys2Proof.Machine.execKeyShareGrant s
  | .keyShareRevoke => Sys2Proof.Machine.execKeyShareRevoke s
  | .mgmtUnknownOp => Sys2Proof.Machine.execMgmtUnknownOp s
  | .launchWindowWrite => Sys2Proof.Machine.execLaunchWindowWrite s
  | .vaptAccess => Sys2Proof.Machine.execVaptAccess s
  | .paptAccess => Sys2Proof.Machine.execPaptAccess s
  | .watchVector => Sys2Proof.Machine.execWatchVector s
  | .perstAssert => Sys2Proof.Machine.execPerstAssert s
  | .hotReset => Sys2Proof.Machine.execHotReset s
  | .pf0FunctionLevelReset => Sys2Proof.Machine.execPf0FunctionLevelReset s
  | .vfFunctionLevelReset => Sys2Proof.Machine.execVfFunctionLevelReset s
  | .packageResetRequest => Sys2Proof.Machine.execPackageResetRequest s
  | .logClear => Sys2Proof.Machine.execLogClear s
  | .checkpointSave => Sys2Proof.Machine.execCheckpointSave s
  | .checkpointRestore => Sys2Proof.Machine.execCheckpointRestore s
  | .undefinedEncoding => Sys2Proof.Machine.execUndefinedEncoding s
  | .undefinedSwitchWord => Sys2Proof.Machine.execUndefinedSwitchWord s
  | .hawserRetrainFailure => Sys2Proof.Machine.execHawserRetrainFailure s
  | .portDown => Sys2Proof.Machine.execPortDown s
  | .portTrainingStart => Sys2Proof.Machine.execPortTrainingStart s
  | .checkpointComplete => Sys2Proof.Machine.execCheckpointComplete s
  | .resetPhaseComplete => Sys2Proof.Machine.execResetPhaseComplete s

end Sys2Proof.Machine
end

