-- ==== Sys2Proof/Machine/Issue.lean ====
section
/-!
DEFINITION. The issue of one instruction by a tile and of one word by a switch: what is fetched, and what an instruction boundary takes first
(02 R25, R26; 12 R424; 18 R326; 19 R351).
-/
namespace Sys2Proof.Machine

open Sys2Proof

/-- The state in which a slot of a tile issues: the agent, with its program counter. -/
def actAs (s : State) (pos k : Nat) : State :=
  { s with cur := { pos := pos, slot := k, pc := (slotAt s pos k).pc, pass := false, stalled := false } }

/-- The instruction word at the program counter of the current slot is fetched, decoded and executed; a word that the decoder rejects raises its cause. -/
def fetchAndExec (s : State) : Out :=
  let w := codeWord s s.cur.pos s.cur.slot s.cur.pc.toNat
  match decodeCore w with
  | .ok i => exec i s
  | .error _ => exec .undefinedEncoding { s with arg := .one w }

/-- The row that an instruction boundary of a slot takes before any instruction: a failed answer, an overrun, an event. There is no boundary within an instruction
that has added its beats or performed some of its stores (log entry 102); a failed answer waits until a FENCE that has issued lets its slot go on, so that nothing
that has issued is repeated (12 R424). -/
def boundaryRow (s : State) (pos k : Nat) : Option Instr :=
  let t := slotAt s pos k
  if t.busy.any (fun y => y.beats || y.stored != 0) then none
  else if !t.answers.isEmpty && t.fence.isNone then some .deferredAccessFault
  else if overrun t then some .taskOverrun
  else if t.sstatus.getLsbD 4 && t.sstatus.getLsbD 3 && eventPending s pos then some .eventTake
  else none

/-- The tile's slot 0 has been stopped by an eviction, or its berth is being captured. -/
def frozenSlot (s : State) (pos k : Nat) : Bool :=
  k == 0 && (slotAt s pos 0).isChart && (berthAt s pos).any (fun b => b.evict || (b.saving && b.cap != 0))

/-- What a running slot does with its turn: the head of its repeat buffer, else, where that is STALLED, the next scalar instruction (02 R26). -/
def runTurn (s : State) (pos k : Nat) : Out :=
  if (slotAt s pos k).rep.issuing then
    match exec .repeatPass s with
    | .next s1 => if s1.cur.stalled then fetchAndExec (actAs s1 pos k) else .next s1
    | o => o
  else fetchAndExec s

/-- The turn of one slot: STALLED where nothing of it can issue. What an instruction boundary takes is the tile's one issue of the cycle, and the slot is then the
last that issued, one SUSPENDED in BARW or WFI like any other: the model's choice (log entry 103). -/
def slotTurn (s0 : State) (pos k : Nat) : Out :=
  let s := actAs s0 pos k
  let t := slotAt s pos k
  if frozenSlot s pos k then .next (stalled s)
  else
    match t.phase with
    | .idle => .next (stalled s)
    | .boundary => .next (stalled s)
    | .draining _ => .next (stalled s)
    | .running =>
      (match boundaryRow s pos k with
       | some i => exec i { s with arg := .two pos k }
       | none => runTurn s pos k)
    | _ =>
      match boundaryRow s pos k with
      | some i => exec i { s with arg := .two pos k }
      | none => .next (stalled s)

/-- A withheld access that had been released has now been made. -/
def clearReleased (s : State) (pos k : Nat) : State :=
  let t := slotAt s pos k
  if t.blocked.any (·.released) then setSlot s pos k { t with blocked := none } else s

/-- A slot has issued: it is `last`. -/
def issued (s : State) (pos k : Nat) : State :=
  let s1 := clearReleased s pos k
  setTile s1 pos { tileAt s1 pos with last := BitVec.ofNat 2 k }

/-- The slots in their order: the first that is not STALLED issues; one whose instruction raises an event into a full queue is held like one that is
(18 R318). -/
def issueFrom (pos : Nat) : List Nat → State → Out
  | [], s => .next s
  | k :: ks, s =>
    match slotTurn s pos k with
    | .next s1 =>
      if s1.cur.stalled then issueFrom pos ks s1
      else if raisedLate s s1 then issueFrom pos ks (heldAtSource s s1)
      else .next (issued s1 pos k)
    | o => o

/-- The order in which a tile asks its slots (02 R25). -/
def slotOrder (last : BitVec 2) : List Nat := [1, 2, 3, 4].map (fun i => (last.toNat + i) % 4)

/-- One issue of a tile. -/
def issueTile (s : State) (pos : Nat) : Out := issueFrom pos (slotOrder (tileAt s pos).last) s

/-- The switch executes: it runs, and no eviction or capture has stopped it. -/
def switchRuns (s : State) (pos : Nat) : Bool :=
  (switchAt s pos).phase == .running && !(berthOfPos s pos).any (fun b => b.evict || (b.saving && b.cap != 0))

/-- One word of a switch is fetched, decoded and executed. -/
def issueSwitch (s0 : State) (pos : Nat) : Out :=
  let s := { s0 with cur := { pos := pos, slot := 0, pc := (switchAt s0 pos).pc, pass := false, stalled := false } }
  let w := memRead (switchAt s pos).rmem (2 * (switchAt s pos).pc.toNat) 2
  if !switchRuns s pos then .next s
  else
    match decodeSwitch w with
    | .ok i => exec i s
    | .error _ => exec .undefinedSwitchWord { s with arg := .one w }

/-- The partition whose scheduler block a row uses, and whether it writes there (19 R340; log entry 14). -/
def sblkUser (s : State) (i : Instr) (a : Arg) : Option (Nat × Bool) :=
  match a with
  | .one x =>
    if i = .schedulingPass ∨ i = .dispatch then some (x, false)
    else if i = .cmdPreemptionSave ∨ i = .cmdEndWork ∨ i = .cmdDiscardSave ∨ i = .cmdUnknownOp then some (x, true)
    else if i = .capture ∨ i = .resume ∨ i = .quiescent ∨ i = .drainLimitExpiry then (berthOf s x).map (fun b => (b.part, false))
    else if i = .taskGridEnd then (s.domains.find? (fun d => d.id == x)).map (fun d => (d.part, false))
    else if i = .taskDispatch ∨ i = .taskMessageTake then (partOf s x).map (fun p => (p, false))
    else none
  | .mgmt c => if i = .partStart then some (partNo c, false) else none
  | _ => none

/-- What is done while a row waits for the scheduler block that it uses; none where it need not wait. -/
def rowWaits (s : State) (i : Instr) (a : Arg) : Option State := if s.viral then none else (sblkUser s i a).bind (fun u => sblkTurn s u.1 u.2)

/-- One row of the hardware, once it may use the scheduler block that it needs; one that raises an event into a full queue is put off to the next cycle (18 R318), in which the walks are listed anew. -/
def runRow (s : State) (i : Instr) (a : Arg) : Out :=
  match rowWaits s i a with
  | some s1 => .next (nextCycle s1 i a)
  | none =>
  match exec i { s with arg := a } with
  | .next s1 =>
    if raisedLate s s1 then .next (if i = .hintedWalkStep then heldAtSource s s1 else nextCycle (heldAtSource s s1) i a) else .next s1
  | o => o

/-- One activity of the agenda. -/
def runActivity (s : State) : Activity → Out
  | .tile pos => issueTile s pos
  | .switch pos => issueSwitch s pos
  | .event i a => runRow s i a

end Sys2Proof.Machine
end

