-- ==== Sys2Proof/Machine/Tick.lean ====
section
/-!
DEFINITION. A lattice cycle: what counts, what moves by itself, and which rows are due (00 R23; 02; 19; 22; 23; log entry 3).
-/
namespace Sys2Proof.Machine

open Sys2Proof

/-! ### What a cycle counts -/

/-- Cycles in which a task's slot runs in the user view (19 R351). -/
def countRun (x : Slot) : Slot :=
  if x.isTask && x.phase != .idle && !x.sstatus.getLsbD 0 then { x with runCount := x.runCount + 1 } else x

/-- The quiescence counter of a berth; a word that has moved in its span starts a new interval, for which QUIESCENT may be raised (02 R53, R55). -/
def countStill (s : State) (b : Berth) : Berth :=
  let moved := b.rect.positions.any (fun p => (switchAt s p).moved)
  { b with still := if quietNow s b then b.still + 1 else 0, told := b.told && !moved }

/-- The idle counter of a die (23 R418). -/
def countIdle (s : State) (d : Nat) (x : Die) : Die := if !x.gated && dieIdle s d then { x with idle := x.idle + 1 } else { x with idle := 0 }

/-- A message of an agent is wanted no more: the agent keeps a place, and makes no access. -/
def unwanted (s : State) (ag : Agent) : Bool := ag.queues && !ag.live s

/-- The counters of one cycle; what was held at its source for a full queue in the last one is tried again, and what ended activities owed is not charged. -/
def countCycle (s : State) : State :=
  { s with
    cycle := s.cycle + 1
    bills := s.bills.filter (fun b => !unwanted s b.agent)
    berths := s.berths.map (countStill s)
    dies := Vector.ofFn (fun i => countIdle s i.val (vget Die.reset s.dies i.val))
    tiles := s.tiles.map (fun e => (e.1, { e.2 with slots := e.2.slots.map countRun }))
    switches := s.switches.map (fun e => (e.1, { e.2 with moved := false }))
    parts := s.parts.map (fun e => (e.1, { e.2 with evHeld := false })) }

/-! ### The snapshot of a quiescent berth (02 R54) -/

/-- The next instruction of slot 0 of a tile, the head of its repeat buffer or the word at its program counter, waits for a core port and for nothing else. -/
def waitsOnPort (s : State) (pos : Nat) : Bool :=
  let x := slotAt s pos 0
  let s1 := actAs s pos 0
  let s2 := { s1 with cur := { s1.cur with pass := x.rep.issuing } }
  let next :=
    if x.rep.issuing then passInstr s2 pos x.rep x.rep.pass.toNat x.rep.idx.toNat
    else (match decodeCore (codeWord s pos 0 x.pc.toNat) with | .ok i => some i | .error _ => none)
  next.any (fun i => !slotWaits x && !heldBack i s2 && !portsReady i s2)

/-- COST of slot 0 (02 Tables 2-1, 2-10): READY where it would issue in its turn. -/
def costOf (s : State) (pos : Nat) : Nat :=
  match (slotAt s pos 0).phase with
  | .boundary => 4
  | .barw .. => 3
  | .wfi => 3
  | .running =>
    (match slotTurn s pos 0 with
     | .next s1 => if !s1.cur.stalled then 0 else if waitsOnPort s pos then 1 else 2
     | _ => 0)
  | _ => 0

/-- A position entry of the snapshot (02 Table 2-10). -/
def snapEntry (s : State) (pos : Nat) : Nat :=
  let w := switchAt s pos
  let q := isQuay pos
  let t := tileAt s pos
  let gs := (quayAt s pos).gens
  posX pos + posY pos * 2 ^ 16 + (if q then 2 ^ 31 else 0) + 2 ^ 32 * (w.pc.toNat % 2 ^ 13) + 2 ^ 48 * swstOf s pos +
    2 ^ 64 * packFrom 16 (fun i => (vget 0 w.c i).toNat) 4 0 + 2 ^ 128 * w.iter.toNat +
    (if q then 0
     else 2 ^ 160 * (t.coit % 2 ^ 32) + 2 ^ 192 * (vget Slot.reset t.slots 0).pc.toNat + 2 ^ 224 * costOf s pos) +
    2 ^ 256 * packFrom 4 (fun i => if q && (i == 12 || decide (15 ≤ i)) then 0 else (bufOf w i).length) 18 0 +
    (if q then 2 ^ 352 * (genState (vget Gen.reset gs 0) + 4 * genState (vget Gen.reset gs 1)) else 0)

/-- The snapshot: the header, then every position of the span (02 Tables 2-9, 2-10). -/
def snapshot (s : State) (b : Berth) (qtime : Nat) : List Nat :=
  let ps := b.rect.positions
  let o := gridPos b.tx b.ty
  let head :=
    (s.pkg.toNat * 2 ^ 40 + posY o * 2 ^ 16 + posX o) + 2 ^ 64 * (b.w + 2 ^ 16 * b.h) + 2 ^ 96 * ps.length + 2 ^ 128 * b.stepIdx +
      2 ^ 192 * b.count + 2 ^ 224 * b.conf + 2 ^ 256 * s.cycle.toNat + 2 ^ 320 * qtime
  head :: ps.map (snapEntry s)

/-- Quiescence is detected once an interval has passed, and the snapshot of that cycle is taken (02 R53, R54). -/
def detect (s : State) (b : Berth) : Berth :=
  let qtime := (partAt s b.part).qtime.toNat
  if b.seq == .step && !b.told && b.snap.isEmpty && decide (qtime ≤ b.still) then { b with snap := snapshot s b qtime } else b

/-- What moves by itself at the start of a cycle: messages, new tasks and charts, ended work, waiting slots, banks. -/
def moveCycle (s : State) : State :=
  let s1 := arriveAll (s.tiles.foldl (fun s e => sendOut s e.1) s)
  let s2 := s1.domains.foldl (fun s d => createTask s d) s1
  let s3 := s2.berths.foldl (fun s b => startChart s b) s2
  let s4 := endUpkeep (s3.parts.foldl (fun s e => watchCmd s e.1) s3)
  nextBackoffs (s4.tiles.foldl (fun s e => [0, 1, 2, 3].foldl (fun s k => wakeWfi s e.1 k) s) s4)

/-! ### Which rows are due -/

/-- A row with one operand that is due where a condition holds. -/
def due1 (c : Bool) (i : Instr) (a : Nat) : List Activity := if c then [.event i (.one a)] else []

/-- A row with two operands. -/
def due2 (c : Bool) (i : Instr) (a b : Nat) : List Activity := if c then [.event i (.two a b)] else []

/-- The rows of an outstanding access. -/
def dueAccess (pos k : Nat) (a : Access) : List Activity :=
  match a.stage with
  | .issued => [.event .accessPerform (.three pos k a.id)]
  | .walking => [.event .pageTableWalk (.three pos k a.id)]
  | .retry _ => [.event .accessRetry (.three pos k a.id)]
  | _ => []

/-- The rows of a slot. -/
def dueSlot (t : Tile) (pos k : Nat) : List Activity :=
  let x := vget Slot.reset t.slots k
  due2 (!x.replies.isEmpty) .loadReply pos k ++ x.outs.flatMap (dueAccess pos k) ++
    (match x.fence with
     | some f => f.dies.map (fun d => .event .joinComplete (.three pos k d))
     | none => []) ++
    due2 (x.phase.isDraining && drainedOut t k) .drainComplete pos k

/-- The rows of an asynchronous operation. -/
def dueOp (pos : Nat) (o : AsyncOp) : List Activity :=
  (match o.kind with
   | .copy .. => due2 (!o.finished) .engineOperationComplete pos o.id
   | .gather .. => due2 (!o.finished) .engineOperationComplete pos o.id
   | .scatter .. => due2 (!o.finished) .engineOperationComplete pos o.id
   | .nxch .. => due2 (!o.finished) .engineOperationComplete pos o.id
   | .obcp .. => due2 (!o.finished) .engineOperationComplete pos o.id
   | .rmma .. => []
   | .rlda .. => due2 (!o.finished) .accumulatorImageComplete pos o.id
   | .radds .. => due2 (!o.finished) .accumulatorImageComplete pos o.id
   | .rsta .. => due2 (!o.finished) .accumulatorImageComplete pos o.id
   | .coll .. => due2 (!o.finished) .collComplete pos o.id) ++
    due2 (o.owed != 0 && (o.finished || o.landed != 0)) .beatSubtraction pos o.id

/-- The berth of a tile is being captured. -/
def beingCaptured (s : State) (pos : Nat) : Bool := (berthAt s pos).any (fun b => b.saving && b.cap != 0)

/-- The rows of a tile, once its slots have had their turn. -/
def dueTile (s : State) (pos : Nat) : List Activity :=
  let t := tileAt s pos
  if beingCaptured s pos then []
  else
    [0, 1, 2, 3].flatMap (dueSlot t pos) ++ t.ops.flatMap (dueOp pos) ++
      due1 (!(rmmas t).isEmpty && !(rmmas t).any (·.started)) .rmmaStart pos ++ due1 ((rmmas t).any (·.started)) .rmmaComplete pos ++
      due1 ((idleSlot t).isSome && !t.runq.isEmpty) .taskDispatch pos ++
      due1 (!t.spill.isEmpty && decide (t.runq.length < runqSize)) .spillToQueue pos ++
      due1 (s.net.any (fun n => n.arrived && n.pos == pos)) .taskMessageTake pos ++ due1 (!t.synq.isEmpty) .syndromeQueueMove pos

/-- The rows of a generator. -/
def dueGen (s : State) (pos i : Nat) : List Activity :=
  let g := vget Gen.reset (quayAt s pos).gens i
  if g.ended || (berthOfPos s pos).any (fun b => b.saving && b.cap != 0) then []
  else due2 (!g.arrived.isEmpty) .generatorPush pos i ++ due2 (!g.blocked && !withheld g.held && decide (g.issued < g.desc.total)) .generatorReadIssue pos i

/-- The rows of a berth. -/
def dueBerth (s : State) (b : Berth) : List Activity :=
  due1 b.saving .capture b.id ++ due1 (drainExpired s b) .drainLimitExpiry b.id ++ due1 (b.resume.isSome && b.dispatched) .resume b.id ++
    due1 (b.seq == .fetch && !b.saving && !withheld b.held) (entryRow s b) b.id ++ due1 (b.seq == .collective) .stepCollective b.id ++
    due1 (b.seq == .step && !b.saving && stepDone s b) .stepComplete b.id ++
    due1 (b.seq == .step && !b.snap.isEmpty && !b.told) .quiescent b.id

/-- The rows of a partition. -/
def duePart (s : State) (p : Nat) : List Activity :=
  let x := partAt s p
  due1 (!x.pendDispatch.isEmpty) .dispatch p ++ due1 (x.st == .running && passDue s p) .schedulingPass p ++
    (if x.st = .running then (match cmdRow s p with | some i => due1 true i p | none => []) else []) ++
    x.grps.flatMap (fun g =>
      if g.2.formed || g.2.broken then []
      else due2 (g.2.members.all (fun m => m.pkg == s.pkg.toNat)) .groupFormed p g.1 ++
        due2 (decide (g.2.since + Config.groupFormLimit ≤ s.cycle.toNat)) .groupFormTimeout p g.1)

/-- The rows of a die. -/
def dueDie (s : State) (d : Nat) : List Activity :=
  let x := dieAt s d
  due1 (x.gated && x.waking) .dieWake d ++ due1 (!x.gated && decide (Config.gateCycles ≤ x.idle)) .powerGate d

/-- A tile has a slot that may have something to do. -/
def tileActive (t : Tile) : Bool := t.slots.toList.any (fun x => x.phase != .idle)

/-- A period of the budgets starts: it comes before anything else of its cycle (19 R349). -/
def periodRow (s : State) : List Activity := if s.cycle.toNat % Config.budgetPeriod = 0 then [.event .budgetPeriod .none] else []

/-- Everything that is due in a cycle, in one fixed order. -/
def dueRows (s : State) : List Activity :=
  (s.tiles.filter (fun e => tileActive e.2)).map (fun e => .tile e.1) ++
    (s.switches.filter (fun e => switchRuns s e.1)).map (fun e => .switch e.1) ++
    ((List.range s.net.length).reverse.filter (fun i => (s.net[i]?).any (fun n => n.msg.hinted && !n.arrived))).map
      (fun i => .event .hintedWalkStep (.one i)) ++
    s.tiles.flatMap (fun e => dueTile s e.1) ++ s.quays.flatMap (fun e => dueGen s e.1 0 ++ dueGen s e.1 1) ++ s.berths.flatMap (dueBerth s) ++
    s.domains.flatMap (fun d => due1 (d.dispatched && domainDone s d) .taskGridEnd d.id) ++ s.parts.flatMap (fun e => duePart s e.1) ++
    s.vfs.flatMap (fun e => [1, 2, 3].flatMap (fun k => due2 (watchDue s e.1 k) .watchVector e.1 k)) ++
    (List.range 8).flatMap (dueDie s) ++ (if s.ctl.ck = 1 ∨ s.ctl.ck = 2 then [.event .checkpointComplete .none] else [])

/-- One lattice cycle begins: a new period of the budgets comes first, then what was put off, then everything that is due. -/
def cycleStart (s : State) : State :=
  let s1 := moveCycle (countCycle (flushRecs s))
  let s2 := { s1 with berths := s1.berths.map (detect s1) }
  { s2 with
    agenda := periodRow s2 ++ s2.deferred ++ s2.agenda ++ (dueRows s2).filter (fun a => !s2.deferred.contains a)
    deferred := [] }

/-- What happens when nothing is left to do in a cycle: the next cycle begins; before BOOT 3 the next phase of reset ends; with no firmware accepted nothing happens but
what the host asks for (23 R415, R417); a viral package only counts. -/
def tick (s : State) : State :=
  if s.ctl.boot.toNat < 3 then { s with agenda := s.deferred ++ [.event .resetPhaseComplete .none], deferred := [] }
  else if s.ctl.boot ≠ 3 then { s with agenda := s.deferred, deferred := [] }
  else if s.viral then { s with cycle := s.cycle + 1, agenda := s.deferred, deferred := [] }
  else cycleStart s

end Sys2Proof.Machine
end

