-- ==== Sys2Proof/Machine/Step.lean ====
section
/-!
DEFINITION. One step of the package, and the placing of one instruction where it is fetched.
-/
namespace Sys2Proof.Machine

open Sys2Proof

/-- A tile or a switch issues. -/
def Activity.issues : Activity → Bool
  | .tile _ => true
  | .switch _ => true
  | .event .. => false

/-- One step: the first activity of the agenda, or, when it is empty, the start of a lattice cycle (log entry 3). With no firmware accepted
(BOOT 4) no tile and no switch runs until another reset. -/
def step (s : State) : Host.Outcome State Fault Refusal :=
  match s.agenda with
  | a :: as => if s.ctl.boot = 4 ∧ a.issues = true then .fault .firmwareRejected else runActivity { s with agenda := as } a
  | [] => .next (tick s)

/-- The tile at which `withFetchWord` places a word: (0, 1), the first of the package. -/
def fetchPos : Nat := 128

/-- The state with one instruction placed where the next step fetches it: a core word at word 0 of a tile whose slot 0 runs from there and is the
next to issue, or a switch word at word 0 of a switch that runs from there. -/
def State.withFetchWord (s : State) (nbits w : Nat) : State :=
  if nbits ≤ 16 then
    let x := switchAt s fetchPos
    { setSwitch s fetchPos { x with pc := 0, phase := .running, rmem := memWrite x.rmem 0 2 w } with agenda := [.switch fetchPos] }
  else
    let t := tileAt s fetchPos
    { setTile s fetchPos
        { t with last := 3, slots := vset t.slots 0 { vget Slot.reset t.slots 0 with pc := 0, phase := .running }, imem := memWrite t.imem 0 4 w } with
      agenda := [.tile fetchPos] }

end Sys2Proof.Machine
end

