-- ==== Sys2Proof/Safety.lean ====
section
/-!
DEFINITION. The terms in which claims are stated: when an instruction issues, what the tables of the specification say an instruction
delivers, what is read from the state, and what a state keeps.
-/
namespace Sys2Proof.Safety

open Sys2Proof Sys2Proof.Machine

/-! ### Issue -/

/-- The current slot issues an instruction now, with its guard true: the slot runs and waits for nothing (07 R151, R162), the word raises no cause of
Table 8-7, no register it names is pending (08 R166), its guard holds and is not poisoned (08 R169), its governing mask is not poisoned (08 R168),
its ports are ready (03 R59), it does not run off the end of instruction memory (08 R423), and it reads no token with an unread negative status (12 R271). -/
def ready (i : Instr) (s : State) : Bool :=
  (me s).phase == .running && (me s).fence.isNone && !withheld (me s).blocked &&
    (decodeCause i s).isNone && !heldBack i s &&
    ((guardOf i).toNat == 0 || !(me s).pP.getLsbD (guardOf i).toNat) && (me s).predOf (guardOf i).toNat &&
    (match maskRegOf i with
     | some m => !(me s).maskPoison m
     | none => true) &&
    portsReady i s && !runsOff i s true && (readsToken i s).isNone

/-- The same with its guard false: the instruction has no effect, whatever its ports and its mask hold (08 R169). -/
def skips (i : Instr) (s : State) : Bool :=
  (me s).phase == .running && (me s).fence.isNone && !withheld (me s).blocked &&
    (decodeCause i s).isNone && !heldBack i s && !((guardOf i).toNat != 0 && (me s).pP.getLsbD (guardOf i).toNat) &&
    !(me s).predOf (guardOf i).toNat && !runsOff i s false

/-- The current slot could issue, had the word no cause of its own: it runs and waits for nothing. -/
def mayIssue (s : State) : Bool := (me s).phase == .running && (me s).fence.isNone && !withheld (me s).blocked

/-- No injection is armed on the tile (18 R325), so that both executions of an instruction agree. -/
def calm (s : State) : Bool := armedKind (myTile s) == 0

/-- The instruction has taken effect: what it kept while it waited is dropped, the port words it read have left their buffers, and its slot continues at the next word or the next pass. -/
def goesOn (i : Instr) (s : State) : State := advance i (dequeue i (ended s))

/-! ### Scalar results (09 R194 to R202, R211, R214) -/

/-- The number of leading bits of a word that are zero. -/
def leadingZeros (w : Nat) (x : Nat) : Nat := ((List.range w).takeWhile (fun i => !x.testBit (w - 1 - i))).length

/-- The number of trailing bits of a word that are zero. -/
def trailingZeros (w : Nat) (x : Nat) : Nat := ((List.range w).takeWhile (fun i => !x.testBit i)).length

/-- The number of bits that are one. -/
def ones (w : Nat) (x : Nat) : Nat := ((List.range w).filter (fun i => x.testBit i)).length

/-- The quotient and the remainder of 09 R196, signed. -/
def quotRem (x y : Int) : Int × Int :=
  if y = 0 then (-1, x)
  else if x = -(2 ^ 63) ∧ y = -1 then (-(2 ^ 63), 0)
  else (x.tdiv y, x - y * x.tdiv y)

/-- The base of a window of LWIN (09 R214): own scratch, operand bank, neighbours north, east, south, west (06 Table 6-2). -/
def windowOf (w : Nat) : Nat :=
  match w with
  | 0 => 0xF0000000000000
  | 1 => 0xF0000010000000
  | 2 => 0xF0000020000000
  | 3 => 0xF0000021000000
  | 4 => 0xF0000022000000
  | _ => 0xF0000023000000

/-- The destination, the result before reduction modulo 2^64, and whether the precondition of Table 9-1 holds, for a scalar instruction that writes an
s register and reads the sources `o`. -/
def scalarResult (i : Instr) (s : State) (o : Ops) : Option (BitVec 5 × Int × Bool) :=
  let a := o.word 0
  let b := o.word 1
  let k := b.toNat % 64
  let ta := topEqual a
  let tab := topEqual a && topEqual b
  let pa := !a.getLsbD 63
  let pab := !a.getLsbD 63 && !b.getLsbD 63
  match i with
  | .add _ d _ _ => some (d, a.toNat + b.toNat, tab)
  | .sub _ d _ _ => some (d, (a.toNat : Int) - b.toNat, tab)
  | .and _ d _ _ => some (d, (a &&& b).toNat, tab)
  | .or _ d _ _ => some (d, (a ||| b).toNat, tab)
  | .xor _ d _ _ => some (d, (a ^^^ b).toNat, tab)
  | .andn _ d _ _ => some (d, (a &&& ~~~b).toNat, tab)
  | .sll _ d _ _ => some (d, a.toNat * 2 ^ k, ta)
  | .srl _ d _ _ => some (d, (a.toNat / 2 ^ k : Nat), pa)
  | .sra _ d _ _ => some (d, a.toInt / 2 ^ k, ta)
  | .min _ d _ _ => some (d, if a.toInt < b.toInt then a.toInt else b.toInt, tab)
  | .max _ d _ _ => some (d, if a.toInt > b.toInt then a.toInt else b.toInt, tab)
  | .minu _ d _ _ => some (d, if a.toNat < b.toNat then a.toNat else b.toNat, tab)
  | .maxu _ d _ _ => some (d, if a.toNat > b.toNat then a.toNat else b.toNat, tab)
  | .mul _ d _ _ => some (d, a.toInt * b.toInt, true)
  | .mulh _ d _ _ => some (d, a.toInt * b.toInt / 2 ^ 64, tab)
  | .mulhu _ d _ _ => some (d, (a.toNat * b.toNat / 2 ^ 64 : Nat), pab)
  | .div _ d _ _ => some (d, (quotRem a.toInt b.toInt).1, tab)
  | .rem _ d _ _ => some (d, (quotRem a.toInt b.toInt).2, tab)
  | .divu _ d _ _ => some (d, if b.toNat = 0 then 2 ^ 64 - 1 else (a.toNat / b.toNat : Nat), pab)
  | .remu _ d _ _ => some (d, if b.toNat = 0 then a.toNat else (a.toNat - a.toNat / b.toNat * b.toNat : Nat), pab)
  | .clz _ d _ => some (d, leadingZeros 64 a.toNat, pa && a != 0)
  | .ctz _ d _ => some (d, trailingZeros 64 a.toNat, pa && a != 0)
  | .popc _ d _ => some (d, ones 64 a.toNat, pa)
  | .addi _ d _ x => some (d, a.toNat + x.toInt, ta)
  | .andi _ d _ x => some (d, (a &&& ofInt 64 x.toInt).toNat, ta)
  | .ori _ d _ x => some (d, (a ||| ofInt 64 x.toInt).toNat, ta)
  | .xori _ d _ x => some (d, (a ^^^ ofInt 64 x.toInt).toNat, ta)
  | .slli _ d _ n => some (d, a.toNat * 2 ^ n.toNat, ta)
  | .srli _ d _ n => some (d, (a.toNat / 2 ^ n.toNat : Nat), pa)
  | .srai _ d _ n => some (d, a.toInt / 2 ^ n.toNat, ta)
  | .limm _ d p x => some (d, (if p = 0 then 0 else (a.toNat % 2 ^ (16 * p.toNat) : Nat)) + x.toInt * 2 ^ (16 * p.toNat), true)
  | .pget _ d _ => some (d, if o.pred 0 then 1 else 0, true)
  | .widx _ d _ src f =>
    some (d, (widField (me s).widf (if src = 1 then a else (me s).wid) f.toNat : Nat), true)
  | .lea _ d _ _ n => some (d, a.toNat + b.toNat * 2 ^ n.toNat, tab)
  | .lpc _ d x => some (d, s.cur.pc.toNat + x.toInt, true)
  | .lwin _ d _ w => some (d, windowOf w.toNat + a.toNat, ta)
  | _ => none

/-- The destination, the truth value and the precondition of Table 9-1, for a scalar instruction that writes a predicate (09 R200 to R202). -/
def predicateResult (i : Instr) (o : Ops) : Option (BitVec 5 × Bool × Bool) :=
  let a := o.word 0
  let b := o.word 1
  let ta := topEqual a
  let tab := topEqual a && topEqual b
  match i with
  | .cmp _ d _ _ r =>
    match r.toNat with
    | 0 => some (d, decide (a.toNat = b.toNat), tab)
    | 1 => some (d, decide (a.toNat ≠ b.toNat), tab)
    | 2 => some (d, decide (a.toInt < b.toInt), tab)
    | 3 => some (d, decide (a.toInt ≥ b.toInt), tab)
    | 4 => some (d, decide (a.toNat < b.toNat), tab)
    | 5 => some (d, decide (a.toNat ≥ b.toNat), tab)
    | 6 => some (d, decide ((a &&& b).toNat ≠ 0), tab)
    | _ => none
  | .cmpi _ d _ r x =>
    match r.toNat with
    | 0 => some (d, decide (a.toInt = x.toInt), ta)
    | 1 => some (d, decide (a.toInt ≠ x.toInt), ta)
    | 2 => some (d, decide (a.toInt < x.toInt), ta)
    | 3 => some (d, decide (a.toInt ≥ x.toInt), ta)
    | 4 => some (d, decide (a.toNat < (ofInt 64 x.toInt).toNat), ta)
    | 5 => some (d, decide (a.toNat ≥ (ofInt 64 x.toInt).toNat), ta)
    | 6 => some (d, decide (a.toInt > x.toInt), ta)
    | _ => some (d, decide (a.toInt ≤ x.toInt), ta)
  | .pand _ d _ _ => some (d, o.pred 0 && o.pred 1, true)
  | .por _ d _ _ => some (d, o.pred 0 || o.pred 1, true)
  | .pxor _ d _ _ => some (d, xor (o.pred 0) (o.pred 1), true)
  | .pandn _ d _ _ => some (d, o.pred 0 && !o.pred 1, true)
  | .pnot _ d _ => some (d, !o.pred 0, true)
  | .pnz _ d _ => some (d, decide (a.toNat ≠ 0), true)
  | _ => none

/-! ### Vector integer results and moves (10 R221, R233 to R236) -/

/-- The destination, the governing mask, the result of lane `k` before reduction or after saturation, and whether the precondition of Table 10-2 holds for the
lane, for a vector integer instruction (10 Table 10-4). -/
def laneResult (i : Instr) (o : Ops) (k : Nat) : Option (BitVec 5 × BitVec 3 × Int × Bool) :=
  let a := lane (o.vec 0) k
  let b := lane (o.vec 1) k
  let n := b.toNat % 32
  let ta := topEqual32 a
  let tab := topEqual32 a && topEqual32 b
  let pa := !a.getLsbD 31
  let signed : Int → Int := fun x => max (-(2 ^ 31)) (min (2 ^ 31 - 1) x)
  let unsigned : Int → Int := fun x => max 0 (min (2 ^ 32 - 1) x)
  match i with
  | .vaddI32 _ d _ _ m => some (d, m, a.toNat + b.toNat, tab)
  | .vsubI32 _ d _ _ m => some (d, m, (a.toNat : Int) - b.toNat, tab)
  | .vandI32 _ d _ _ m => some (d, m, (a &&& b).toNat, tab)
  | .vorI32 _ d _ _ m => some (d, m, (a ||| b).toNat, tab)
  | .vxorI32 _ d _ _ m => some (d, m, (a ^^^ b).toNat, tab)
  | .vandnI32 _ d _ _ m => some (d, m, (a &&& ~~~b).toNat, tab)
  | .vsllI32 _ d _ _ m => some (d, m, a.toNat * 2 ^ n, ta)
  | .vsrlN32 _ d _ _ m => some (d, m, (a.toNat / 2 ^ n : Nat), pa)
  | .vsraI32 _ d _ _ m => some (d, m, a.toInt / 2 ^ n, ta)
  | .vminI32 _ d _ _ m => some (d, m, min a.toInt b.toInt, tab)
  | .vmaxI32 _ d _ _ m => some (d, m, max a.toInt b.toInt, tab)
  | .vminN32 _ d _ _ m => some (d, m, (min a.toNat b.toNat : Nat), tab)
  | .vmaxN32 _ d _ _ m => some (d, m, (max a.toNat b.toNat : Nat), tab)
  | .vmulI32 _ d _ _ m => some (d, m, a.toInt * b.toInt, true)
  | .vmulhI32 _ d _ _ m => some (d, m, a.toInt * b.toInt / 2 ^ 32, tab)
  | .vmulhN32 _ d _ _ m => some (d, m, (a.toNat * b.toNat / 2 ^ 32 : Nat), pa && !b.getLsbD 31)
  | .vaddsI32 _ d _ _ m =>
    let x := a.toInt + b.toInt
    some (d, m, signed x, tab && signed x == x)
  | .vaddsN32 _ d _ _ m =>
    let x : Int := a.toNat + b.toNat
    some (d, m, unsigned x, tab && unsigned x == x)
  | .vsubsI32 _ d _ _ m =>
    let x := a.toInt - b.toInt
    some (d, m, signed x, tab && signed x == x)
  | .vsubsN32 _ d _ _ m =>
    let x : Int := (a.toNat : Int) - b.toNat
    some (d, m, unsigned x, tab && unsigned x == x)
  | .vabsI32 _ d _ m => some (d, m, signed (if a.toInt < 0 then -a.toInt else a.toInt), ta)
  | .vclzN32 _ d _ m => some (d, m, leadingZeros 32 a.toNat, pa && a != 0)
  | .vpopcN32 _ d _ m => some (d, m, ones 32 a.toNat, pa)
  | _ => none

/-- The shadow of lane `k` of a saturating instruction, computed on doubled operands, is not twice its result: twice the exact result lies outside the signed
range, which the shadow saturates to (10 R219, Table 10-2; 09 Table 9-1). -/
def shadowFails (i : Instr) (o : Ops) (k : Nat) : Bool :=
  let a := (lane (o.vec 0) k).toInt
  let b := (lane (o.vec 1) k).toInt
  let outside := fun (x : Int) => decide (x < -(2 ^ 31)) || decide (2 ^ 31 ≤ x)
  match i with
  | .vaddsI32 .. => outside (2 * (a + b))
  | .vsubsI32 .. => outside (2 * (a - b))
  | .vabsI32 .. => outside (2 * (if a < 0 then -a else a))
  | _ => false

/-- The destination, the governing mask and lane `k` of the result of a permute, move or sign instruction (10 Tables 10-12 and 10-13). -/
def moveResult (i : Instr) (o : Ops) (k : Nat) : Option (BitVec 5 × BitVec 3 × BitVec 32) :=
  let a := fun n => lane (o.vec 0) n
  let b := fun n => lane (o.vec 1) n
  let lo := fun (x : BitVec 32) => x.extractLsb' 0 16
  let hi := fun (x : BitVec 32) => x.extractLsb' 16 16
  let each := fun (f : BitVec 16 → BitVec 16) => f (hi (a k)) ++ f (lo (a k))
  match i with
  | .vperm _ d _ _ m => some (d, m, a ((b k).toNat % 16))
  | .vrot _ d _ n m => some (d, m, a ((k + n.toNat) % 16))
  | .vslu _ d _ n m => some (d, m, if n.toNat ≤ k then a (k - n.toNat) else 0)
  | .vsld _ d _ n m => some (d, m, if k + n.toNat ≤ 15 then a (k + n.toNat) else 0)
  | .vrev _ d _ m => some (d, m, a (15 - k))
  | .vhswap _ d _ m => some (d, m, lo (a k) ++ hi (a k))
  | .vpkl _ d _ _ m => some (d, m, lo (b k) ++ lo (a k))
  | .vpkh _ d _ _ m => some (d, m, hi (b k) ++ hi (a k))
  | .vmov _ d _ m => some (d, m, a k)
  | .vsplatI32 _ d _ m => some (d, m, (o.word 0).extractLsb' 0 32)
  | .vsplatI64 _ d _ m => some (d, m, if k % 2 = 0 then (o.word 0).extractLsb' 0 32 else (o.word 0).extractLsb' 32 32)
  | .vabsF32 _ d _ m => some (d, m, if 0x7F800000 < (a k).toNat % 2 ^ 31 then a k else a k &&& 0x7FFFFFFF)
  | .vnegF32 _ d _ m => some (d, m, if 0x7F800000 < (a k).toNat % 2 ^ 31 then a k else a k ^^^ 0x80000000)
  | .vabsF16 _ d _ m => some (d, m, each (fun x => if 0x7C00 < x.toNat % 2 ^ 15 then x else x &&& 0x7FFF))
  | .vnegF16 _ d _ m => some (d, m, each (fun x => if 0x7C00 < x.toNat % 2 ^ 15 then x else x ^^^ 0x8000))
  | .vabsBf16 _ d _ m => some (d, m, each (fun x => if 0x7F80 < x.toNat % 2 ^ 15 then x else x &&& 0x7FFF))
  | .vnegBf16 _ d _ m => some (d, m, each (fun x => if 0x7F80 < x.toNat % 2 ^ 15 then x else x ^^^ 0x8000))
  | _ => none

/-- What a vector register held, as an instruction that writes only some of its lanes keeps it: pd has no old value (10 R218). -/
def oldVec (s : State) (d : BitVec 5) : Vec := if d = 31 then 0 else vget 0 (me s).v d.toNat

/-- Its poison bit. -/
def oldVecPoison (s : State) (d : BitVec 5) : Bool := d != 31 && (me s).vP.getLsbD d.toNat

/-- The poison bit of a vector destination: that of a source, or, where a lane is kept, that of the destination (08 R167). -/
def vecPoison (s : State) (o : Ops) (d : BitVec 5) (m : BitVec 3) : Bool :=
  o.any (·.poison) || ((me s).maskOf m.toNat != 0xFFFF && oldVecPoison s d)

/-- A vector whose lane `k` is `f k` where the mask is set, and otherwise as before. -/
def isMasked (s : State) (d : BitVec 5) (m : BitVec 3) (f : Nat → BitVec 32) (x : Vec) : Prop :=
  ∀ k, k < 16 → lane x k = if ((me s).maskOf m.toNat).getLsbD k then f k else lane (oldVec s d) k

/-- A scale register whose FMT and BSZ are not reserved (04 R92). -/
def validScale (g : Word) : Bool := !g.getLsbD 33 && !g.getLsbD 35

/-- The register written, its word, for an instruction that moves between files or works on masks; the file is one of s, m, g (10 Tables 10-13 and
10-14). -/
def fileResult (i : Instr) (o : Ops) : Option (RFile × BitVec 5 × Int) :=
  let x := (o.word 0).toNat
  let m0 : BitVec 16 := (o.vec 0).setWidth 16
  let m1 : BitVec 16 := (o.vec 1).setWidth 16
  match i with
  | .vextN32 _ d _ k => some (.s, d, (lane (o.vec 0) k.toNat).toNat)
  | .vextI32 _ d _ k => some (.s, d, (lane (o.vec 0) k.toNat).toInt)
  | .gset _ d _ => some (.g, d, (x % 2 ^ 36 : Nat))
  | .gget _ d _ => if validScale (o.word 0) then some (.s, d, x) else none
  | .mand _ d _ _ => some (.m, d, (m0 &&& m1).toNat)
  | .mor _ d _ _ => some (.m, d, (m0 ||| m1).toNat)
  | .mxor _ d _ _ => some (.m, d, (m0 ^^^ m1).toNat)
  | .mandn _ d _ _ => some (.m, d, (m0 &&& ~~~m1).toNat)
  | .mnot _ d _ => some (.m, d, (~~~m0).toNat)
  | .mset _ d _ => some (.m, d, (x % 2 ^ 16 : Nat))
  | .mget _ d _ => some (.s, d, m0.toNat)
  | .mpop _ d _ => some (.s, d, ones 16 m0.toNat)
  | .mfirst _ d _ => some (.s, d, trailingZeros 16 m0.toNat)
  | .mlow _ d _ => some (.m, d, (2 ^ min 16 x - 1 : Nat))
  | _ => none

/-- A register of a file written with the low bits of an integer and a poison bit. -/
def writeFile (s : State) (f : RFile) (d : BitVec 5) (y : Int) (poison : Bool) : State :=
  match f with
  | .m => setM s d (ofInt 16 y) poison
  | .g => setG s d (ofInt 64 y) poison
  | _ => setS s d (ofInt 64 y) poison

/-- The active lanes of an instruction, in rising order. -/
def lanesOf (s : State) (m : BitVec 3) : List Nat := (List.range 16).filter (fun k => ((me s).maskOf m.toNat).getLsbD k)

/-- The destination, the governing mask and the result of an integer reduction over its active lanes (10 Table 10-11); 0 when no lane is active. -/
def reduceResult (i : Instr) (s : State) (o : Ops) : Option (BitVec 5 × BitVec 3 × Int) :=
  let sx := fun m => (lanesOf s m).map (fun k => (lane (o.vec 0) k).toInt)
  let ux := fun m => (lanesOf s m).map (fun k => ((lane (o.vec 0) k).toNat : Int))
  let least : List Int → Int := fun l => (l.min?).getD 0
  let greatest : List Int → Int := fun l => (l.max?).getD 0
  match i with
  | .vsumI32 _ d _ m => some (d, m, (sx m).sum)
  | .vsumN32 _ d _ m => some (d, m, (ux m).sum)
  | .vrminI32 _ d _ m => some (d, m, least (sx m))
  | .vrmaxI32 _ d _ m => some (d, m, greatest (sx m))
  | .vrminN32 _ d _ m => some (d, m, least (ux m))
  | .vrmaxN32 _ d _ m => some (d, m, greatest (ux m))
  | _ => none

/-- The relation of a lane of VCMP (10 R224): the integer relations, and the float ones, in which a NaN is unordered. -/
def laneRelation (t r : Nat) (a b : BitVec 32) : Bool :=
  let int := fun (x y : Int) =>
    match r with
    | 0 => decide (x = y)
    | 1 => decide (x ≠ y)
    | 2 => decide (x < y)
    | 3 => decide (x ≤ y)
    | 4 => decide (x > y)
    | _ => decide (x ≥ y)
  match t with
  | 0 => int a.toInt b.toInt
  | 1 => int a.toNat b.toNat
  | _ =>
    let x := decodeF f32 a.toNat
    let y := decodeF f32 b.toNat
    let nan := x == .nan || y == .nan
    match r with
    | 0 => eqF x y
    | 1 => nan || !eqF x y
    | 2 => ltF x y
    | 3 => ltF x y || eqF x y
    | 4 => ltF y x
    | 5 => ltF y x || eqF x y
    | _ => nan

/-- The precondition of Table 10-2 for a lane of VCMP. -/
def laneComparable (t : Nat) (a b : BitVec 32) : Bool :=
  if t = 2 then normalSafe f32 false 1 a.toNat && normalSafe f32 false 1 b.toNat else topEqual32 a && topEqual32 b

/-! ### Rounded elements (04 R79, R82, R85; 10 R222 to R232) -/

/-- The elements of an instruction in rising order, with what each delivers and the state of the random source after them: under RSR each element draws
once (04 R85). -/
def roundEach (rsr : Bool) (f : Nat → Nat → ElemOut) : List Nat → Word → List (Nat × ElemOut) × Word
  | [], x => ([], x)
  | k :: ks, x =>
    let d := if rsr then nextRandom x else (x, 0)
    let r := roundEach rsr f ks d.1
    ((k, f k d.2) :: r.1, r.2)

/-- A rounding instruction: its destination, its elements with the bit and the lane each stands at, the bits of the destination it replaces, what an element delivers
for given random bits, and the trap value of FMT_TABLE where a table or scale register of it may not be read (04 R89, R92). -/
structure Rounding where
  dest : BitVec 5
  elems : List Nat
  bitOf : Nat → Nat
  laneOf : Nat → Nat
  replaced : Vec
  each : Nat → Nat → ElemOut
  refused : Option Nat

/-- An elementwise instruction of a binary format under a mask. -/
def perElement (F : Fmt) (d : BitVec 5) (mask : BitVec 16) (f : Nat → ElemIn) (R : Rnd) : Rounding :=
  { dest := d, elems := (List.range (512 / F.width)).filter (fun k => mask.getLsbD (k * F.width / 32)), bitOf := fun k => F.width * k
    laneOf := fun k => k * F.width / 32, replaced := laneBits mask, each := fun k r => roundElem R F (f k) r, refused := none }

/-- An instruction with one element in each active lane, at a bit of the lane. -/
def perLane (d : BitVec 5) (mask : BitVec 16) (bit width : Nat) (f : Nat → Nat → ElemOut) (refused : Option Nat) : Rounding :=
  { dest := d, elems := (List.range 16).filter (fun k => mask.getLsbD k), bitOf := fun k => 32 * k + bit, laneOf := fun k => k
    replaced := laneBits mask &&& packVec 32 16 (fun _ => (2 ^ width - 1) * 2 ^ bit), each := f, refused := refused }

/-- A decode table that a selector names is valid (04 R89). -/
def validTable (s : State) (t : BitVec 2) : Bool := (vget DTable.reset (myTile s).dtab (physTable s t.toNat)).valid

/-- An element delivered without a comparison of its own. -/
def delivered (x : Nat × BitVec 6) (bad : Bool) : ElemOut := { bits := x.1, flags := x.2, bad := bad, ok := true }

/-- The vector instructions that pass through RoundTo (04 R82; 10 Tables 10-5 to 10-10). -/
def rounding (i : Instr) (s : State) (o : Ops) : Option Rounding :=
  let R := rndOf (me s).nfc
  let mask := fun (m : BitVec 3) => (me s).maskOf m.toNat
  let x := fun (F : Fmt) (j k : Nat) => operandF F R.ftz (elem (o.vec j) F.width k)
  let safe := fun (F : Fmt) (j k e : Nat) => normalSafe F R.ftz e (elem (o.vec j) F.width k)
  let two := fun (F : Fmt) (f : FVal → FVal → Exact × BitVec 6) (raise k : Nat) =>
    ({ exact := f (x F 0 k) (x F 1 k), finite := !(x F 0 k).special && !(x F 1 k).special
       safe := safe F 0 k 1 && safe F 1 k 1, raise := raise } : ElemIn)
  let fused := fun (F : Fmt) (n : Bool) (k : Nat) =>
    ({ exact := exactDot R n [(x F 0 k, x F 1 k)] (x F 2 k)
       finite := !(x F 0 k).special && !(x F 1 k).special && !(x F 2 k).special
       safe := safe F 0 k 1 && safe F 1 k 1 && safe F 2 k 2, raise := 2 } : ElemIn)
  let dot := fun (n : Bool) (k : Nat) =>
    ({ exact := exactDot R n [(x bf16 0 (2 * k), x bf16 1 (2 * k)), (x bf16 0 (2 * k + 1), x bf16 1 (2 * k + 1))] (x f32 2 k)
       finite := [x bf16 0 (2 * k), x bf16 0 (2 * k + 1), x bf16 1 (2 * k), x bf16 1 (2 * k + 1), x f32 2 k].all (fun v => !v.special)
       safe := safe bf16 0 (2 * k) 1 && safe bf16 0 (2 * k + 1) 1 && safe bf16 1 (2 * k) 1 && safe bf16 1 (2 * k + 1) 1 && safe f32 2 k 2
       raise := 2 } : ElemIn)
  let narrow := fun (F : Fmt) (k r : Nat) =>
    let y := roundTo R F (x f32 0 k).exact r
    delivered y (!(x f32 0 k).special && F.nonfinite y.1)
  match i with
  | .vaddF _ d _ _ m t => some (perElement (fmtOf t.toNat) d (mask m) (two (fmtOf t.toNat) (exactAdd R) 1) R)
  | .vsubF _ d _ _ m t => some (perElement (fmtOf t.toNat) d (mask m) (two (fmtOf t.toNat) (fun a b => exactAdd R a b.neg) 1) R)
  | .vmulF _ d _ _ m t => some (perElement (fmtOf t.toNat) d (mask m) (two (fmtOf t.toNat) exactMul 2) R)
  | .vdiv _ d _ _ m t => some (perElement (fmtOf t.toNat) d (mask m) (two (fmtOf t.toNat) exactDiv 0) R)
  | .vsqrt _ d _ m t =>
    let F := fmtOf t.toNat
    some (perElement F d (mask m)
      (fun k => { exact := exactSqrt (x F 0 k), finite := !(x F 0 k).special, safe := safe F 0 k 2, raise := 1 }) R)
  | .vfma _ d _ _ _ t => some (perElement (fmtOf t.toNat) d 0xFFFF (fused (fmtOf t.toNat) false) R)
  | .vfnma _ d _ _ _ t => some (perElement (fmtOf t.toNat) d 0xFFFF (fused (fmtOf t.toNat) true) R)
  | .vdot2 _ d _ _ _ => some (perElement f32 d 0xFFFF (dot false) R)
  | .vdot2n _ d _ _ _ => some (perElement f32 d 0xFFFF (dot true) R)
  | .vcvtI32F32 _ d _ m => some (perLane d (mask m) 0 32 (fun k r => delivered (toInteger R (-(2 ^ 31)) (2 ^ 31 - 1) (x f32 0 k) r) false) none)
  | .vcvtN32F32 _ d _ m => some (perLane d (mask m) 0 32 (fun k r => delivered (toInteger R 0 (2 ^ 32 - 1) (x f32 0 k) r) false) none)
  | .vcvtF32I32 _ d _ m =>
    some (perLane d (mask m) 0 32 (fun k r =>
      let v := (lane (o.vec 0) k).toInt
      delivered (roundTo R f32 (.val (decide (v < 0)) v.natAbs 1) r) false) none)
  | .vcvtF32N32 _ d _ m =>
    some (perLane d (mask m) 0 32 (fun k r => delivered (roundTo R f32 (.val false (lane (o.vec 0) k).toNat 1) r) false) none)
  | .vcvtF16F32 _ d _ m h => some (perLane d (mask m) (16 * h.toNat) 16 (narrow f16) none)
  | .vcvtBf16F32 _ d _ m h => some (perLane d (mask m) (16 * h.toNat) 16 (narrow bf16) none)
  | .vrint _ d _ m => some (perLane d (mask m) 0 32 (fun k r => delivered (rintElem R (x f32 0 k) r) false) none)
  | .vdecs _ d _ t g m p =>
    some (perLane d (mask m) 0 32 (fun k r =>
      let block := if (o.word 1).getLsbD 34 then 32 else 16
      let v := flush32 R.ftz (decodeCode (tableOf s t.toNat) (elem (o.vec 0) 8 (4 * k + p.toNat)))
      let sc := scaleOf (o.word 1) ((4 * k + p.toNat) / block)
      let e := scaledElement v sc
      let y := roundTo R f32 e.1 r
      delivered (y.1, e.2 ||| y.2) (!v.special && sc != .nan && f32.nonfinite y.1))
      (if !validTable s t then some t.toNat else if !validScale (o.word 1) then some (8 + g.toNat) else none))
  | .venc _ d _ t m p =>
    some (perLane d (mask m) (8 * p.toNat) 8 (fun k r =>
      let y := encodeTable R (tableOf s t.toNat) (x f32 0 k) r
      delivered y (!(x f32 0 k).special && (decodeCode (tableOf s t.toNat) y.1).special))
      (if validTable s t then none else some t.toNat))
  | .valign _ d _ j g p =>
    let wide := decide (p.toNat < 4)
    some (perLane d 0xFFFF (if wide then 16 * p.toNat else 8 * (p.toNat - 4)) (if wide then 16 else 8) (fun k r =>
      delivered (alignMant R (if wide then 16 else 8) (elem (o.vec 1) 8 j.toNat) (x f32 0 k) r) false)
      (if validScale (o.word 1) && !(o.word 1).getLsbD 32 then none else some (8 + g.toNat)))
  | .vscale _ d _ _ m h =>
    some (perLane d (mask m &&& (if h = 1 then 0xFF00 else 0x00FF)) 0 32 (fun k r =>
      let v := (BitVec.ofNat 64 (elem (o.vec 0) 64 (k % 8))).toInt
      let ca := elem (o.vec 1) 16 (4 * (k % 8)) % 256
      let cb := elem (o.vec 1) 16 (4 * (k % 8)) / 256
      let nan := ca == 255 || cb == 255
      let y := roundTo R f32 (if nan then .nan else .val (decide (v < 0)) (v.natAbs * 2 ^ (ca + cb)) (2 ^ 254)) r
      delivered y (!nan && f32.nonfinite y.1)) none)
  | _ => none

/-- The elements of a rounding instruction with what they deliver, and SEED after them. -/
def Rounding.run (r : Rounding) (s : State) : List (Nat × ElemOut) × Word := roundEach (bitsOf (me s).nfc 2 0 == 4) r.each r.elems (me s).seed

/-- A checked element whose shadow is another value (10 R219, Table 10-2). -/
def Rounding.disagrees (r : Rounding) (s : State) : Bool := (r.run s).1.any (fun e => e.2.ok && e.2.dis)

/-- A comparison of a vector instruction has found a disagreement: its event stands in the tile syndrome queue (21 R380, Table 21-2). -/
def disagreement (s : State) : State :=
  pushSyn s
    { kind := 2, slot := s.cur.slot, part := partOf s s.cur.pos, cycle := s.cycle, addr := BitVec.ofNat 64 s.cur.pc.toNat
      lo := BitVec.ofNat 64 ((curWord s).toNat % 2 ^ 32 + 2 ^ 32 + 2 ^ 33) }

/-- The lowest lane that delivers a non-finite result from finite operands (04 R79). -/
def Rounding.offender (r : Rounding) (s : State) : Option Nat := ((r.run s).1.find? (fun e => e.2.bad)).map (fun e => r.laneOf e.1)

/-- A rounding instruction has taken effect: its elements stand in the destination, their flags are set, SEED has advanced and UNCHK counts the elements that were
not compared. -/
def Rounding.effect (r : Rounding) (s : State) (o : Ops) : State :=
  let l := r.run s
  let s1 := orFlags (addUnchk s (l.1.countP (fun e => !e.2.ok))) (l.1.foldl (fun f e => f ||| e.2.flags) 0)
  let s2 := setMe s1 { me s1 with seed := l.2 }
  let bits : Vec := BitVec.ofNat 512 ((l.1.map (fun e => e.2.bits * 2 ^ r.bitOf e.1)).sum)
  setV s2 r.dest ((bits &&& r.replaced) ||| (oldVec s r.dest &&& ~~~r.replaced))
    (o.any (·.poison) || (r.replaced != BitVec.allOnes 512 && oldVecPoison s r.dest))

/-! ### Elements delivered without RoundTo (04 R86, Table 4-8; 10 R225 to R230) -/

/-- The place of a pattern that is no NaN in the order of its format: −∞ lowest, −0 just below +0. -/
def orderOf (F : Fmt) (x : Nat) : Int := if F.signBit ≤ x then -((x - F.signBit : Nat) : Int) - 1 else x

/-- The pattern is a NaN. -/
def isNaN (F : Fmt) (x : Nat) : Bool := decide (F.inf < x % F.signBit)

/-- The minimum or maximum of two patterns: a NaN gives the other operand, two NaNs the canonical one. -/
def chosen (F : Fmt) (isMax : Bool) (x y : Nat) : Nat :=
  if isNaN F x && isNaN F y then F.nan
  else if isNaN F x then y
  else if isNaN F y then x
  else if isMax then (if orderOf F x ≤ orderOf F y then y else x) else (if orderOf F x ≤ orderOf F y then x else y)

/-- A value binary32 holds: a NaN, an infinity, or a magnitude below 2^128 that is a multiple of 2^-149 with at most 24 significant bits. -/
def fits32 (v : FVal) : Bool :=
  match v with
  | .fin _ m => decide (m < 2 ^ 277) && decide (m % 2 ^ (m.log2 - 23) = 0)
  | _ => true

/-- The destination, the governing mask and the value of lane `k` for an instruction that widens exactly (10 R225, R227). -/
def widened (i : Instr) (s : State) (o : Ops) (k : Nat) : Option (BitVec 5 × BitVec 3 × FVal) :=
  match i with
  | .vcvtF32F16 _ d _ m h => some (d, m, decodeF f16 (elem (o.vec 0) 16 (2 * k + h.toNat)))
  | .vcvtF32Bf16 _ d _ m h => some (d, m, decodeF bf16 (elem (o.vec 0) 16 (2 * k + h.toNat)))
  | .vdec _ d _ t m p => some (d, m, decodeCode (tableOf s t.toNat) (elem (o.vec 0) 8 (4 * k + p.toNat)))
  | _ => none

/-- The table selector that an instruction decodes through. -/
def selectorOf (i : Instr) : Option (BitVec 2) :=
  match i with
  | .vdec _ _ _ t _ _ => some t
  | _ => none

/-- The E8M0 code of Align over operand magnitudes in units of 2^-149: 2^(c − 127) times 2^(q − 2) has the leading bit of the largest, bounded below (05 R112). -/
def isAlignCode (q : Nat) (xs : List FVal) (c : Nat) : Prop :=
  if xs.any (·.special) then c = 255
  else if xs.all (fun x => x == .fin false 0 || x == .fin true 0) then c = 0
  else
    c ≤ 254 ∧ (∀ n m, .fin n m ∈ xs → m * 2 ^ 127 < 2 ^ (c + q - 1 + 149)) ∧
      (c = 0 ∨ ∃ n m, .fin n m ∈ xs ∧ 2 ^ (c + q - 2 + 149) ≤ m * 2 ^ 127)

/-- A floating reduction: its destination, its mask, the node of the tree of 04 R94 over its active lanes, and what its additions leave in SEED and FLAGS. The tree
is that of the model's shared operations: halves of a lane first, then four levels. -/
def floatTree (i : Instr) (s : State) (o : Ops) : Option (BitVec 5 × BitVec 3 × Nat × TreeAcc) :=
  let tree := fun (d : BitVec 5) (m : BitVec 3) (F : Fmt) (op : RedOp) =>
    let R := rndOf (me s).nfc
    let leaves := (List.range 16).map (fun k => if ((me s).maskOf m.toNat).getLsbD k then some (elem (o.vec 0) 32 k) else none)
    let a0 : TreeAcc := { seed := (me s).seed, flags := 0, nf := none, safe := true }
    let safe0 := (lanesOf s m).all (fun k => normalSafe F (R.ftz && op == .sum) 1 (elem (o.vec 0) 32 k))
    let l0 := if F.width = 32 then (leaves, { a0 with safe := safe0 }) else laneNodes R F op (o.vec 0) 0 leaves a0
    let l1 := treeLevel R F op 1 0 l0.1 l0.2
    let l2 := treeLevel R F op 2 0 l1.1 l1.2
    let l3 := treeLevel R F op 4 0 l2.1 l2.2
    let l4 := treeLevel R F op 8 0 l3.1 l3.2
    let res := (l4.1.headD none).getD 0
    (d, m, res, { l4.2 with safe := l4.2.safe && normalSafe F false 1 res })
  match i with
  | .vsumF _ d _ m t => some (tree d m (fmtOf t.toNat) .sum)
  | .vrminF _ d _ m t => some (tree d m (fmtOf t.toNat) .min)
  | .vrmaxF _ d _ m t => some (tree d m (fmtOf t.toNat) .max)
  | _ => none

/-! ### Causes -/

/-- The instruction raises a cause with a trap value and its own word as EPC, and nothing else happens. -/
def traps (i : Instr) (s : State) (cause : Nat) (tval : Word) : Prop :=
  exec i s = .next (takeTrap s s.cur.pos s.cur.slot false cause 0 tval s.cur.pc.toNat)

/-! ### Control and status registers (08 R181 to R185; 09 R208 to R210; 18 R316 to R325) -/

/-- The destination, the source, the index and the written value, as a function of the old one and the source, of a CSR instruction. -/
def csrForm (i : Instr) : Option (BitVec 5 × BitVec 5 × Nat × (Word → Word → Word)) :=
  match i with
  | .csrrw _ d a c => some (d, a, csrIndex c, fun _ x => x)
  | .csrrc _ d a c => some (d, a, csrIndex c, fun old x => old &&& ~~~x)
  | .csrrs _ d a c => some (d, a, csrIndex c, fun old x => old ||| x)
  | _ => none

/-- What a CSR reads after a write of `v` over `old`, where the write raises no cause and the register belongs to the slot, or to a partition that owns the slot's tile:
the writable bits of its register map, the minimum of QTIME, the selected entry of BUDGET, and FAULTINJ in test mode and outside it. RNSCFG and RNSCTL are not listed. -/
def csrAfter (s : State) (n : Nat) (old v : Word) : Option Word :=
  match n with
  | 0x000 => some (under 0xFFB7 old v)
  | 0x001 => some (under 0x3F old v)
  | 0x002 => some v
  | 0x004 => some old
  | 0x005 => some old
  | 0x006 => some old
  | 0x007 => some old
  | 0x008 => some old
  | 0x009 => some v
  | 0x010 => some (under 0x3FFF old v)
  | 0x011 => some (under 0x1FFF old v)
  | 0x012 => some (under 0x7FFFF old v)
  | 0x013 => some v
  | 0x800 => some (under 0x1E old v)
  | 0x801 => some (under 0x800000000007FFFF old v)
  | 0x802 => some (under 0x1FFF old v)
  | 0x803 => some v
  | 0x804 => some (under 0x1FFF old v)
  | 0x805 => some v
  | 0x806 => some (v &&& ~~~1)
  | 0x807 => some (under 0x1FF old v)
  | 0x808 => some (under 0xFFFFFFFFFE000 old v)
  | 0x809 => if (partOf s s.cur.pos).isSome then some (under 0xAA6440 old v) else none
  | 0x80B => if (partOf s s.cur.pos).isSome then some (BitVec.ofNat 64 (max 1024 (v.toNat % 2 ^ 32))) else none
  | 0x80C => if (partOf s s.cur.pos).isSome then some (v &&& 0xFFFFFFFF) else none
  | 0x80D =>
    if (partOf s s.cur.pos).isSome && decide (v.toNat / 2 ^ 60 ≤ 4) && !v.getLsbD 55 then some (v &&& 0xFF000000FFFFFFFF) else none
  | 0x80E =>
    if !s.testMode then some old
    else if bitsOf v 62 60 = 7 then none
    else some (bitSet (v &&& 0xFF000000FFFFFFFF) 63 (v.getLsbD 63 && bitsOf v 62 60 != 5))
  | 0x80F => some (v &&& (if chartSlot s then 0xFF0FFEFE else 0xFF00FEFE))
  | _ => none

/-- A value of a field that its register map reserves: RM of NFC, ACT of BUDGET, the channels of RNSCTL, and KIND of FAULTINJ in test mode (04 Table 4-3; 18 R323 to
R325). -/
def reservedValue (s : State) (n : Nat) (v : Word) : Bool :=
  match n with
  | 0x000 => decide (4 < v.toNat % 8)
  | 0x80A => !([0, 1, 2, 3, 8, 15].contains (v.toNat / 2 ^ 24 % 16) && [4, 5, 6, 7, 9, 15].contains (v.toNat / 2 ^ 28 % 16))
  | 0x80D => decide (4 < v.toNat / 2 ^ 60)
  | 0x80E => s.testMode && v.toNat / 2 ^ 60 % 8 == 7
  | _ => false

/-- A row that writes a CSR of its own, with the index and the value. -/
def csrRowForm (i : Instr) (a : Arg) : Option (Nat × Word) :=
  match i, a with
  | .nfcWrite, .value v => some (0x000, v)
  | .flagsAccess, .access true v => some (0x001, v)
  | .seedAccess, .access true v => some (0x002, v)
  | .unchkAccess, .access true v => some (0x009, v)
  | .sstatusWrite, .value v => some (0x800, v)
  | .pmapWrite, .value v => some (0x806, v)
  | .asidWrite, .value v => some (0x807, v)
  | .ptbaseWrite, .value v => some (0x808, v)
  | .qtimeWrite, .value v => some (0x80B, v)
  | .budgetSet, .value v => some (0x80D, bitSet v 55 false)
  | .faultinjArm, .value v => some (0x80E, v)
  | .pmapxWrite, .value v => some (0x80F, v)
  | .csrWrite, .csr n v => some (n.toNat, v)
  | _, _ => none

/-! ### Accesses (07 R140, R146; 12 R262 to R265, R275) -/

/-- An access instruction: what it does when it is performed, its effective address, its bytes, its order class, and whether it acquires or releases. -/
structure AccessForm where
  kind : AccKind
  va : Word
  size : Nat
  cls : BitVec 3
  acq : Bool
  rel : Bool

/-- The address of format M: base + off5 times the size (08 R171). -/
def formatM (o : Ops) (off : BitVec 5) (size : Nat) : Word := BitVec.ofNat 64 ((o.word 0).toNat + off.toNat * size)

/-- The access that an instruction issues (12 R262, R263, R265, R275). -/
def accessForm (i : Instr) (s : State) (o : Ops) : Option AccessForm :=
  match i with
  | .ld _ d _ c e z x off => some ⟨.load d (x == 1), formatM o off (2 ^ z.toNat), 2 ^ z.toNat, c, e.getLsbD 0, e.getLsbD 1⟩
  | .st _ _ _ c e z off =>
    some ⟨.store (o.vec 1) (BitVec.ofNat 64 (2 ^ 2 ^ z.toNat - 1)) (o.psn 1), formatM o off (2 ^ z.toNat), 2 ^ z.toNat, c, e.getLsbD 0, e.getLsbD 1⟩
  | .vld _ d _ c e m off => some ⟨.vload d ((me s).maskOf m.toNat), formatM o off 64, 64, c, e.getLsbD 0, e.getLsbD 1⟩
  | .vst _ _ _ c e m off =>
    some ⟨.store (o.vec 1) (byteMask ((me s).maskOf m.toNat)) (o.psn 1), formatM o off 64, 64, c, e.getLsbD 0, e.getLsbD 1⟩
  | .atom _ d _ c e z off =>
    some ⟨.atom d (o.word 2) (o.psn 2) (o.word 1) (o.psn 1), formatM o off (2 ^ z.toNat), 2 ^ z.toNat, c, e.getLsbD 0, e.getLsbD 1⟩
  | .atomCas _ d _ c e z off =>
    some ⟨.cas d (o.word 1) (o.word 2) (o.psn 1 || o.psn 2), formatM o off (2 ^ z.toNat), 2 ^ z.toNat, c, e.getLsbD 0, e.getLsbD 1⟩
  | .bara _ d _ c => some ⟨.bara d, o.word 0, 16, c, false, true⟩
  | .bari _ _ _ c => some ⟨.bari ((o.word 1).setWidth 32) (o.psn 1), o.word 0, 16, c, false, false⟩
  | _ => none

/-- An ATOM whose operation word is neither poisoned nor one of the nine operations (12 R265, Table 12-2). -/
def unknownAtom (i : Instr) (o : Ops) : Bool :=
  match i with
  | .atom .. => !o.psn 2 && decide (8 < (o.word 2).toNat)
  | _ => false

/-- The addresses of the bytes an access touches, rising. -/
def AccessForm.addrs (f : AccessForm) : List Nat := ((List.range f.size).filter f.kind.touches).map (fun i => f.va.toNat % 2 ^ 56 + i)

/-- A lock-table entry of the tile refuses an access to an address: a source range refuses stores, a destination range every access (07 R155). -/
def refusedBy (s : State) (store : Bool) (x : Nat) : Bool :=
  (myTile s).lock.any (fun e => (e.dest || store) && decide (e.start ≤ x ∧ x < e.start + e.len))

/-- No register, mode or memory stops the access at issue: its base is not poisoned, its address is aligned, it lies in a region it may reach, and no locked range meets
it. -/
def AccessForm.legal (f : AccessForm) (i : Instr) (s : State) : Bool :=
  !(operands i s).psn 0 && !unknownAtom i (operands i s) && f.va.toNat % f.size == 0 && reachable s f.va f.size &&
    f.addrs.all (fun x => !refusedBy s f.kind.isStore x)

/-- The tests of a barrier record before its read: its register is not poisoned, and it is aligned, reached and not locked (12 R275). -/
def recordLegal (s : State) (o : Ops) : Bool :=
  !o.psn 0 && (o.word 0).toNat % 16 == 0 && reachable s (o.word 0) 16 &&
    (List.range 16).all (fun i => !refusedBy s true ((o.word 0).toNat % 2 ^ 56 + i))

/-! ### Asynchronous operations (07 R154 to R157; 11 R243 to R246, R254, R255; 12 R267 to R274) -/

/-- An asynchronous operation that an instruction starts: what it does, its token, class and scope, its barrier record with the beats it adds, what changes with its issue, and
whether it runs at once. -/
structure OpForm where
  kind : OpKind
  tok : BitVec 5
  cls : BitVec 3
  scope : BitVec 3
  record : Option Word
  beats : Nat
  before : State
  started : Bool

/-- A barrier record that an operation names may be used: aligned and in a region it may reach. -/
def recordUsable (s : State) (r : Option Word) : Bool :=
  match r with
  | some va => va.toNat % 16 == 0 && reachable s va 16
  | none => true

/-- The ranges of a COPY are legal: it moves nothing (log entry 97), or each lies in own scratch, a neighbour window, global memory, or, in slot 0 of a chart and opposite global memory, the operand bank (12 R269, R272, Table
12-3). -/
def copyLegal (s : State) (dst src : Word) (len : Nat) : Bool :=
  let kd := rangeKind s dst len
  let ks := rangeKind s src len
  let bank := fun (a b : RangeKind) => a != .bank || (chartSlot s && b == .global)
  decide (len < 2 ^ 32) && (len == 0 || (kd != .none && ks != .none && bank kd ks && bank ks kd))

/-- The operands of GATHER and SCATTER are legal (12 R273, Table 12-3). -/
def indexedLegal (s : State) (cont base idx : Word) (n z : Nat) : Bool :=
  base.toNat % elemBytes z == 0 && idx.toNat % 4 == 0 && decide (n ≤ 2 ^ 24) &&
    (n == 0 || (rangeKind s cont (n * elemBytes z) == .own && (isGlobal base || rangeKind s base 1 == .own) && rangeKind s idx (4 * n) == .own))

/-- The bound of an accumulator after an RMMA: the smallest e with 2^e at least 2^β plus the largest magnitude of what is added (05 R105; 11 R245). -/
def rmmaBound (β k a b : Nat) : Nat := ceilLog2 (2 ^ β + k * a * b)

/-- The operation of an instruction whose operands raise no cause, and whether its length is not 0. -/
def opForm (i : Instr) (s : State) (o : Ops) : Option OpForm :=
  let clean := fun (n : Nat) => (List.range n).all (fun k => !o.psn k)
  match i with
  | .copy _ t _ b c sc =>
    let r := if b = 0 then none else some (o.word 3)
    let len := (o.word 2).toNat
    if clean 4 && recordUsable s r && copyLegal s (o.word 0) (o.word 1) len then
      some
        { kind := .copy ((o.word 0).toNat % 2 ^ 56) ((o.word 1).toNat % 2 ^ 56) len, tok := t, cls := c, scope := sc, record := r
          beats := if r.isSome then unitsOf ((o.word 0).toNat % 2 ^ 56) len else 0, before := s, started := true }
    else none
  | .gather _ t _ z c sc =>
    let n := (o.word 3).toNat
    if clean 4 && indexedLegal s (o.word 0) (o.word 1) (o.word 2) n z.toNat then
      some
        { kind := .gather ((o.word 0).toNat % 2 ^ 56) ((o.word 1).toNat % 2 ^ 56) ((o.word 2).toNat % 2 ^ 56) n z.toNat, tok := t, cls := c, scope := sc
          record := none, beats := 0, before := s, started := true }
    else none
  | .scatter _ t _ z c sc =>
    let n := (o.word 3).toNat
    if clean 4 && indexedLegal s (o.word 0) (o.word 1) (o.word 2) n z.toNat then
      some
        { kind := .scatter ((o.word 0).toNat % 2 ^ 56) ((o.word 1).toNat % 2 ^ 56) ((o.word 2).toNat % 2 ^ 56) n z.toNat, tok := t, cls := c, scope := sc
          record := none, beats := 0, before := s, started := true }
    else none
  | .obcp _ t _ _ r c =>
    let n := 64 * 2 ^ c.toNat
    match ownScratch s (o.word 0) n with
    | some off =>
      if clean 2 && off % 64 == 0 && (o.word 1).toNat % 64 == 0 && decide ((o.word 1).toNat + n ≤ 2 ^ 20) then
        some
          { kind := .obcp off (o.word 1).toNat n (r == 1), tok := t, cls := 0, scope := 0, record := none, beats := 0, before := s, started := true }
      else none
    | none => none
  | .rmma _ t _ _ c x y w u v =>
    let tl := myTile s
    let wide := w == 1
    let off := (o.word 1).toNat
    let a := accOf tl c.toNat
    let st := vget AStage.reset tl.stage y.toNat
    let β := rmmaBound a.beta.toNat (if wide then 48 else 96) (maxMag (if wide then 16 else 8) (u == 1)) (maxMag (if wide then 16 else 8) (v == 1))
    let t1 := setAcc tl c.toNat { a with beta := BitVec.ofNat 7 β }
    let aOff := ownScratch s (o.word 0) 1536
    let ok := if x = 1 then decide (st.fp = 24) else (o.word 0).toNat % 64 == 0 && aOff.isSome
    if clean 2 && !(wide && tl.rnsMode == 1) && ok && off % 64 == 0 && decide (off + bSize tl.rnsMode ≤ 2 ^ 20) &&
        decide (β ≤ rangeLimit tl.rnsMode) && decide ((rmmas tl).length < 2) then
      some
        { kind := .rmma c.toNat (if x = 1 then some (y.toNat, st.poison) else none) (aOff.getD 0) off wide (u == 1) (v == 1), tok := t, cls := 0, scope := 0
          record := none, beats := 0
          before := setMyTile s (if x = 1 then { t1 with stage := vset t1.stage y.toNat { st with fp := 0, poison := false } } else t1)
          started := decide ((rmmas tl).length = 0) }
    else none
  | .rsta _ t _ c =>
    match ownScratch s (o.word 0) imageSize with
    | some off =>
      if clean 1 && (o.word 0).toNat % 64 == 0 && (myTile s).reta == 15 && (myTile s).retb == 15 then
        some { kind := .rsta c.toNat off, tok := t, cls := 0, scope := 0, record := none, beats := 0, before := s, started := true }
      else none
    | none => none
  | _ => none

/-- What the operation moves is not empty. -/
def OpForm.moves (f : OpForm) : Bool :=
  match f.kind with
  | .copy _ _ len => decide (len ≠ 0)
  | .gather _ _ _ n _ => decide (n ≠ 0)
  | .scatter _ _ _ n _ => decide (n ≠ 0)
  | _ => true

/-- What the slot waits on while the lock table has no room: an engine's operation keeps that its beats have been added (12 R267). -/
def OpForm.waiting (f : OpForm) (s : State) : State :=
  let kept := setMe s { me s with busy := some { (me s).busy.getD {} with beats := true } }
  match f.kind with
  | .copy .. => kept
  | .gather .. => kept
  | .scatter .. => kept
  | _ => s

/-- The slot has nothing in flight and waits for nothing: no access, no operation, no locked range, nothing read for an instruction under way. -/
def atRest (s : State) : Bool :=
  (me s).outs.isEmpty && (myTile s).ops.isEmpty && (myTile s).lock.isEmpty && (me s).busy.isNone && (me s).blocked.isNone &&
    s.fetched.all (fun f => f.agent != .inline s.cur.pos s.cur.slot)

/-- What a slot at rest reads, at once, from `n` bytes of own scratch that are not poisoned and hold no spilled message. -/
def ownRead (s : State) (va : Word) (n : Nat) : Option Nat :=
  match ownScratch s va n with
  | some off =>
    if atRest s && !inSpill (myTile s) off n && !unitsPoison (myTile s).scratchP off n then some (memRead (myTile s).scratch off n) else none
  | none => none

/-- The state once a slot at rest has read a descriptor of 64 bytes, which it keeps until its instruction is done (19 R350). -/
def afterOwnRead (s : State) (va : Word) (x : Nat) : State :=
  keepBusy (noteFetched s (.inline s.cur.pos s.cur.slot) va.toNat x false) s.cur.pos s.cur.slot

/-- The record at an address of own scratch can take `n` beats at once: aligned, not poisoned, and its count does not overflow (07 Table 7-7). -/
def ownBeats (s : State) (va : Word) (n : Nat) : Bool :=
  match ownScratch s va 16 with
  | some off =>
    va.toNat % 16 == 0 && !inSpill (myTile s) off 16 && !unitsPoison (myTile s).scratchP off 16 &&
      decide ((Bar.ofNat (memRead (myTile s).scratch off 16)).beats + n < 2 ^ 32) && decide (0 < n)
  | none => false

/-- The state once a slot at rest has added beats to that record, with the test of 07 R160. -/
def afterBeats (s : State) (va : Word) (n : Nat) : State :=
  match ownScratch s va 16 with
  | some off =>
    let t := myTile s
    let b := Bar.ofNat (memRead t.scratch off 16)
    wakeScratch s
      (setMyTile s
        { t with
          scratch := memWriteMask t.scratch off 16 (2 ^ 16 - 1) { b with beats := b.beats + n }.test.toNat
          scratchP := unitsStore t.scratchP off 16 true false }) s.cur.pos
  | none => s

/-- The beats of an operation have been added to its record at issue, by one read and write of the record; none without a record (07 R158; 12 R270). -/
def beatsAdded (f : OpForm) (s1 : State) : Prop :=
  (f.beats = 0 ∧ s1 = f.before) ∨
    ∃ va v p, f.record = some va ∧ f.beats ≠ 0 ∧ inlineAccess f.before va.toNat 16 f.cls false .atomic (barUpd (barAdd f.beats) false) = .ok s1 v p

/-! ### Residue elements (05 R98 to R102, R105, R106; 11 R237) -/

/-- The values an RFWD converts: fields of `w` bits, as signed or unsigned numbers (11 R247). -/
def rfwdValue (v : Vec) (w : Nat) (unsigned : Bool) (q : Nat) : Int :=
  let x := elem v w q
  if !unsigned && decide (2 ^ (w - 1) ≤ x) then (x : Int) - 2 ^ w else x

/-- Element `i` of a memory from an address, as an integer of so many bytes, signed or unsigned (11 R244). -/
def intAt (m : Mem) (a bytes : Nat) (unsigned : Bool) (i : Nat) : Int :=
  let x := memRead m (a + bytes * i) bytes
  if !unsigned && decide (2 ^ (8 * bytes - 1) ≤ x) then (x : Int) - 2 ^ (8 * bytes) else x

/-- The digits of an element are those of a value: digit c is the value modulo the modulus of channel c, for every channel of its set. -/
def holdsValue (mode : BitVec 1) (cells : Mem) (e : Nat) (x : Int) : Prop :=
  ∀ ch ∈ setChannels mode (elemCell mode e).2, ((memGet cells (10 * (elemCell mode e).1 + ch)).toNat : Int) = x % (Config.modulus ch : Int)

/-- An address holds a digit of element `e`. -/
def digitOf (mode : BitVec 1) (e a : Nat) : Bool := (setChannels mode (elemCell mode e).2).any (fun ch => a == 10 * (elemCell mode e).1 + ch)

/-- The state after a check of elements of an accumulator: the digit of each corrected element rewritten, FLAGS.RC set and one RNS_CORR event queued, if any was corrected (05 R102; 21
Table 21-2). -/
def corrected (s : State) (acc : Nat) (l : List (Nat × Int × Option Nat)) : State :=
  match l.filterMap (fun r => r.2.2.map (fun c => (r.1, r.2.1, c))) with
  | [] => s
  | (e, x, c) :: rest =>
    let t := myTile s
    let a := accOf t acc
    let cells := ((e, x, c) :: rest).foldl
      (fun m r => memSet m (10 * (elemCell t.rnsMode r.1).1 + r.2.2) (BitVec.ofNat 8 (r.2.1 % (Config.modulus r.2.2 : Int)).toNat)) a.cells
    pushSyn (orFlags (setMyTile s (setAcc t acc { a with cells := cells })) 32)
      { kind := 1, slot := s.cur.slot, part := partOf s s.cur.pos, cycle := s.cycle, addr := 0
        lo := BitVec.ofNat 64 (acc + e * 2 ^ 16 + c * 2 ^ 32 + (rest.length + 1) * 2 ^ 48) }

/-- A check that corrects nothing, or whose event has room in the syndrome queue. -/
def mayCorrect (s : State) (l : List (Nat × Int × Option Nat)) : Bool := l.all (fun r => r.2.2.isNone) || decide ((myTile s).synq.length < 8)

/-- An index register after the suffix .inc. -/
def stepped (s : State) (inc : BitVec 1) (b : BitVec 5) (x : Word) (n : Nat) : State :=
  if inc = 1 then setS s b (x + BitVec.ofNat 64 n) false else s

/-! ### Switches (03 R58, R60; 13 R289 to R294) -/

/-- The current switch continues at a word index. -/
def switchOn (s : State) (pc : Nat) : State := setSwitch s s.cur.pos { switchAt s s.cur.pos with pc := BitVec.ofNat 14 pc }

/-- The current switch executes words: it runs and no fault has stopped it. -/
def switchReady (s : State) : Bool := (switchAt s s.cur.pos).phase == .running && !(switchAt s s.cur.pos).flt

/-- The setting and the number of transfers of a routing word, and whether its inputs are dequeued only at the last transfer (13 R291). -/
def routingForm (i : Instr) (w : Switch) : Option (Nat × Nat × Bool) :=
  match i with
  | .route e n => some (e.toNat, n.toNat + 1, false)
  | .hold e n => some (e.toNat, n.toNat + 1, true)
  | .routec e c => some (e.toNat, (vget 0 w.c c.toNat).toNat, false)
  | _ => none

/-- The current switch stops with FLT and its cause goes to the supervisor of its partition, with the word index and the place (13 R294). -/
def switchStops (s : State) (cause : Nat) : State :=
  raiseAt (setSwitch s s.cur.pos { switchAt s s.cur.pos with flt := true }) s.cur.pos cause
    (BitVec.ofNat 64 (2 ^ 63 + (switchAt s s.cur.pos).pc.toNat % 2 ^ 13 * 2 ^ 48 + (tileId s.pkg s.cur.pos).toNat % 2 ^ 48))

/-! ### Management commands (22 R395, R396) -/

/-- A command is the next one and may begin: the package is past its reset, no earlier command is still under way, no checkpoint runs, and the package is not viral or the command may run there. -/
def mgmtReady (s : State) (c : MgmtCmd) (attest : Bool) : Bool :=
  s.ctl.boot == 3 && c.seq == s.mgmt.seq + 1 && s.mgmt.seq == s.mgmt.mstatSeq && s.ctl.ck != 1 && s.ctl.ck != 2 && (!s.viral || attest)

/-- The state once the operand banks whose records lie in `n` blocks from an address stand in memory; none while a copy waits (19 R357). -/
def banksCopied (s : State) (pa n : Nat) : Option State :=
  match copyBanks (fun x _ => decide (pa / 2 ^ 16 ≤ x / 2 ^ 16 ∧ x / 2 ^ 16 ≤ (pa + 2048 * n - 1) / 2 ^ 16)) (heldBanks s (fun _ => true)).length s with
  | .ok s1 _ => some s1
  | _ => none

/-- The state once the blocks that a drop of keys closes have been written back, and whether all have been. -/
def keyBlocksBack (i : Instr) (s : State) (c : MgmtCmd) : State × Bool :=
  let k := (c.q.getD 0 0).toNat % 128
  let g := (c.q.getD 0 0).toNat / 256 % 2
  match i with
  | .keyDrop => writeBackAll s ((heldBlocks s (· == k)).filter (fun b => blockGen s b == g))
  | .partDestroy => writeBackAll s (heldBlocks s (fun k => (keyAt s k).owner == some c.part.toNat))
  | _ => (s, true)

/-- The state once the blocks of a BLOCK_INIT have been initialised, and whether all have been; none while a bank is being copied. -/
def blocksBegun (s : State) (c : MgmtCmd) : Option (State × Bool) :=
  let pa := (c.q.getD 0 0).toNat
  let n := (c.q.getD 1 0).toNat
  (banksCopied s pa n).map (fun s1 => initBlocks ((c.q.getD 2 0).toNat % 128) n s1 (pa / 2048))

/-- A command can take its whole effect now: a BLOCK_INIT waits for the banks it copies and for its blocks, and a drop of keys for the blocks it writes back. -/
def mgmtRuns (i : Instr) (s : State) (c : MgmtCmd) : Bool :=
  match i with
  | .blockInit => (blocksBegun s c).any (·.2)
  | _ => (keyBlocksBack i s c).2

/-- What a command of the management region refuses, each with its status, and its effect where nothing refuses it (22 Tables 22-2 to 22-5). -/
def mgmtRule (i : Instr) (s : State) (c : MgmtCmd) : Option (List (Bool × Nat) × State) :=
  let q := fun n => (c.q.getD n 0).toNat
  let p := c.part.toNat
  let x := partAt s p
  let exists_ := decide (p < 24) && x.st != .none
  let k := q 0 % 128
  let g := q 0 / 256 % 2
  let ks := keyAt s k
  match i with
  | .keyInstall =>
    if c.op ≠ 0x01 then none
    else
      let y := { ks.setInst g (some (Config.drawKey s.fresh, Config.drawKey (s.fresh + 1))) with owner := some p }
      let seals := q 0 / 512 % 2 == 1 || (ks.inst (1 - g)).isNone
      some ([(!exists_, 4), ((ks.inst g).isSome, 3), (ks.owner.isSome && ks.owner != some p, 2)],
        unfreeze (setKey { s with fresh := s.fresh + 2 } k { y with cg := if seals then BitVec.ofNat 1 g else ks.cg }) k)
  | .keyDrop =>
    if c.op ≠ 0x02 then none
    else some ([((ks.inst g).isNone, 4), ((ks.inst g).isSome && ks.cg.toNat == g && (ks.inst (1 - g)).isSome, 2)], dropGen (keyBlocksBack i s c).1 k g)
  | .keySeal => if c.op ≠ 0x03 then none else some ([((ks.inst g).isNone, 4)], setKey s k { ks with cg := BitVec.ofNat 1 g })
  | .keyShareGrant =>
    if c.op ≠ 0x0D ∨ g ≠ 0 then none
    else some ([(!exists_ || ks.owner.isNone, 4), (ks.users.contains p, 3), (ks.owner == some p, 2)], setKey s k { ks with users := ks.users ++ [p] })
  | .keyShareRevoke =>
    if c.op ≠ 0x0D ∨ g ≠ 1 then none
    else some ([(!exists_ || ks.owner.isNone || !ks.users.contains p, 4), (ks.owner == some p, 2), (exists_ && runningContexts s p, 1)],
      setKey s k { ks with users := ks.users.filter (· != p) })
  | .partCreate =>
    if c.op ≠ 0x04 then none
    else
      let mask := q 0 % 2 ^ 32
      let nvf := q 1 % 8
      let tk := q 3 % 128
      let ek := q 5 % 128
      let foreign := fun n => (keyAt s n).owner.isSome && (keyAt s n).owner != some p
      some ([(x.st != .none, 3), (decide (24 ≤ p), 2), (mask == 0 || decide (2 ^ 2 ^ s.pmode ≤ mask), 2),
          ((List.range 32).any (fun n => mask.testBit n && (groupOwner s n).isSome), 2), (nvf == 0 || decide (4 < nvf), 2), (foreign tk || foreign ek, 2)],
        setPart (takeKey p (takeKey p s tk) ek) p
          { Part.reset with
            st := .created, groups := BitVec.ofNat 32 mask, nvf := nvf, sblk := BitVec.ofNat 64 (q 2), tkey := BitVec.ofNat 7 tk, errq := BitVec.ofNat 64 (q 4)
            errKey := BitVec.ofNat 7 ek })
  | .partDestroy =>
    if c.op ≠ 0x06 then none
    else
      let s0 := (keyBlocksBack i s c).1
      let s1 := (s0.keys.map (·.1)).foldl (releaseKey p) s0
      some ([(!exists_, 4), (exists_ && runningContexts s p, 1)], { s1 with parts := tblErase s1.parts p })
  | .modeSet =>
    if c.op ≠ 0x07 then none
    else
      let mode := q 0 % 8
      let live := (List.range 24).filter (partExists s)
      some ([(decide (5 < mode), 2), ((List.range (2 ^ mode)).any (fun n => mapOwner c n != 0xFF && !partExists s (mapOwner c n)), 2),
          (live.any (fun n => mapGroups c (2 ^ mode) n == 0), 2),
          (live.any (fun n => (mode != s.pmode || mapGroups c (2 ^ mode) n != (partAt s n).groups) && runningContexts s n), 1)],
        live.foldl (fun s n => setPart s n { partAt s n with groups := mapGroups c (2 ^ mode) n }) { s with pmode := mode })
  | .routeSet =>
    if c.op ≠ 0x08 then none
    else
      let dest := q 0 % 256
      let ports := (List.range 4).map (routePort c)
      some ([(!exists_, 4), (ports.any (fun j => j.any (fun j => !peerIs s j dest)), 2), (dest == s.pkg.toNat, 2)],
        setPart s p { x with routes := tblSet x.routes dest ports, via := keptVia x dest ports })
  | .groupDrop =>
    if c.op ≠ 0x0A then none
    else
      match tblGet? x.grps (q 0 % 256) with
      | none => some ([(true, 4)], s)
      | some e =>
        some ([(!exists_, 4), (groupBusy s p (q 0 % 256), 1)],
          setPart s p { x with grps := tblErase x.grps (q 0 % 256), epochs := tblSet x.epochs (q 0 % 256) e.epoch })
  | .blockInit =>
    if c.op ≠ 0x0B then none
    else
      let n := q 1
      some ([(q 0 % 2048 != 0 || n == 0 || decide (2 ^ 20 < n), 2), (!populated s none (q 0) || !populated s none (q 0 + 2048 * n - 1), 2)],
        ((blocksBegun s c).map (·.1)).getD s)
  | .attestIdentity =>
    if c.op ≠ 0x0C ∨ q 4 % 2 ≠ 1 then none else some ([(decide (24 ≤ p) && p != 0xFF, 2)], putReport s Config.identity)
  | .attestReport =>
    if c.op ≠ 0x0C ∨ q 4 % 2 ≠ 0 then none
    else
      let s1 := putReport s (reportBody s c ++ (Config.xmssSign s.mgmt.leaf (reportBody s c) ++ List.replicate 2820 0).take 2820)
      some ([(decide (24 ≤ p) && p != 0xFF, 2), (s.mgmt.leavesLeft == 0, 5)],
        { s1 with mgmt := { s1.mgmt with leaf := s.mgmt.leaf + 1, leavesLeft := s.mgmt.leavesLeft - 1 } })
  | .mgmtUnknownOp => if c.op ≠ 0 ∧ c.op.toNat ≤ 0x0D then none else some ([(true, 2)], s)
  | _ => none

/-- A command that the rule of its row refuses ends with the lowest status among the refusals that hold, and nothing else (22 R396). -/
def lowestStatus (l : List (Bool × Nat)) (n : Nat) : Prop := (true, n) ∈ l ∧ ∀ m, (true, m) ∈ l → n ≤ m

/-- Nothing refuses the command. -/
def unrefused (l : List (Bool × Nat)) : Prop := ∀ m, (true, m) ∉ l

/-! ### What instructions leave as it was -/

/-- The instructions of 09 and 10 that compute on registers: the scalar ALU, predicates, branches, WIDX, LEA, LPC, LWIN, and every vector and mask instruction but VTBL. -/
def onRegisters (i : Instr) : Bool :=
  i.isCore &&
    match i with
    | .vtbl .. => false
    | .widx .. => true
    | .jalr .. => true
    | _ => decide (1 ≤ majorOf i ∧ majorOf i ≤ 0x0B) || majorOf i == 0x0F || decide (0x10 ≤ majorOf i ∧ majorOf i ≤ 0x1A)

/-- The instructions that issue one access (12 R262 to R265, R275). -/
def issuesAccess (i : Instr) : Bool :=
  match i with
  | .ld .. => true
  | .vld .. => true
  | .st .. => true
  | .vst .. => true
  | .atom .. => true
  | .atomCas .. => true
  | .bara .. => true
  | .bari .. => true
  | _ => false

/-- The instructions that compute on accumulators and stages within the slot (11 R247 to R253). -/
def onAccumulators (i : Instr) : Bool :=
  match i with
  | .rfwd .. => true
  | .rrev .. => true
  | .rchk .. => true
  | .rbnd .. => true
  | .rzero .. => true
  | .rbget .. => true
  | .radd .. => true
  | .rsub .. => true
  | .rmov .. => true
  | .rstg .. => true
  | _ => false

/-- Every byte of memory, with its poison, is the same in two states: scratch, operand banks, instruction and route memory, decode tables, and, with their caches and sidebands, the dies. -/
def sameMemory (s t : State) : Prop :=
  t.dies = s.dies ∧
    ∀ p, (tileAt t p).scratch = (tileAt s p).scratch ∧ (tileAt t p).scratchP = (tileAt s p).scratchP ∧ (tileAt t p).bank = (tileAt s p).bank ∧
      (tileAt t p).bankP = (tileAt s p).bankP ∧ (tileAt t p).imem = (tileAt s p).imem ∧ (tileAt t p).dtab = (tileAt s p).dtab ∧
      (tileAt t p).htab = (tileAt s p).htab ∧ (switchAt t p).rmem = (switchAt s p).rmem

/-- Every slot but the current one, every switch but the port buffers of the current one, and everything that belongs to partitions, charts and links is the same in two states, but for the places in queues of an access or a fence that the
current slot gives up as it enters a handler. -/
def sameElsewhere (s t : State) : Prop :=
  t.cycle = s.cycle ∧ t.agenda = s.agenda ∧ t.parts = s.parts ∧ t.keys = s.keys ∧ t.berths = s.berths ∧ t.domains = s.domains ∧ t.net = s.net ∧ t.colls = s.colls ∧ t.vfs = s.vfs ∧
    ((me s).busy = none → (me s).blocked = none → (me s).fence = none → t.quays = s.quays ∧ t.hawsers = s.hawsers ∧ t.fetched = s.fetched) ∧
    (∀ q, quayAt t q = { quayAt s q with replay := (quayAt t q).replay, walks := (quayAt t q).walks }) ∧
    (∀ p k, (p ≠ s.cur.pos ∨ k ≠ s.cur.slot) → slotAt t p k = slotAt s p k) ∧
    (∀ p, (tileAt t p).ops = (tileAt s p).ops ∧ (tileAt t p).lock = (tileAt s p).lock ∧ (tileAt t p).runq = (tileAt s p).runq ∧ (tileAt t p).rnsMode = (tileAt s p).rnsMode ∧
      (tileAt t p).reta = (tileAt s p).reta ∧ (tileAt t p).retb = (tileAt s p).retb) ∧
    (∀ p, p ≠ s.cur.pos → switchAt t p = switchAt s p) ∧
    (let w := switchAt s s.cur.pos
     let v := switchAt t s.cur.pos
     v.pc = w.pc ∧ v.c = w.c ∧ v.iter = w.iter ∧ v.rem = w.rem ∧ v.rtab = w.rtab ∧ v.confs = w.confs ∧ v.phase = w.phase ∧ ∀ b, b < 12 → bufOf v b = bufOf w b)

/-- The special registers of the current slot that no instruction but a CSR access, and no trap entry, writes; and no flag is cleared. -/
def sameSpecial (s t : State) : Prop :=
  let x := me s
  let y := me t
  y.nfc = x.nfc ∧ y.wid = x.wid ∧ y.widf = x.widf ∧ y.utvec = x.utvec ∧ y.stvec = x.stvec ∧ y.sscratch = x.sscratch ∧ y.asid = x.asid ∧ y.ptbase = x.ptbase ∧
    y.rnsX = x.rnsX ∧ y.rnsY = x.rnsY ∧ x.flags &&& y.flags = x.flags

/-- The exception registers of the current slot are as they were, or the slot has entered a handler: its pc is at UTVEC with UH set and the supervisor's registers untouched, or at STVEC in the supervisor view. -/
def onlyTraps (s t : State) : Prop :=
  let x := me s
  let y := me t
  let user := y.uepc = x.uepc ∧ y.ucause = x.ucause ∧ y.utval = x.utval
  let sup := y.sstatus = x.sstatus ∧ y.sepc = x.sepc ∧ y.scause = x.scause ∧ y.stval = x.stval
  (user ∧ sup) ∨ (sup ∧ y.ucause.getLsbD 63 = true ∧ y.pc = (x.utvec.setWidth 13).setWidth 14) ∨
    (user ∧ y.sstatus = statusAtEntry x.sstatus ∧ y.scause.getLsbD 63 = false ∧ y.pc = (x.stvec.setWidth 13).setWidth 14)

/-- A register that an instruction may write: a destination, or, at the end of a repeat, its token. -/
def written (i : Instr) (s : State) (r : Reg) : Prop := r ∈ dstsOf i ∨ (s.cur.pass = true ∧ r = ⟨.s, (me s).rep.tok.toNat⟩)

/-! ### Invariants -/

/-- The memories of a tile. -/
def tileMemories (t : Tile) : List Mem :=
  [t.scratch, t.scratchP, t.bank, t.bankP, t.imem, t.htab] ++ t.dtab.toList.map (·.data) ++ t.acc.toList.map (·.cells) ++ t.stage.toList.map (·.data)

/-- The memories of a partition: the launch records it queues and those of its saved charts, with the tiles and switches they hold. -/
def partMemories (x : Part) : List Mem :=
  x.queues.toList.flatMap (fun q => q.map (·.lrec)) ++
    x.saved.flatMap (fun y => y.lrec :: y.tiles.flatMap (fun e => tileMemories e.2) ++ y.switches.map (fun e => e.2.rmem))

/-- Every memory that a state holds. -/
def memories (s : State) : List Mem :=
  s.tiles.flatMap (fun e => tileMemories e.2) ++ s.switches.map (fun e => e.2.rmem) ++ s.dies.toList.map (·.dram) ++
    s.parts.flatMap (fun e => partMemories e.2) ++ s.berths.map (·.lrec) ++ s.domains.map (·.lrec) ++
    (match s.image with | some x => x.dram.toList | none => [])

/-- Every memory is in canonical form. -/
def tidy (s : State) : Bool := (memories s).all Mem.wf

/-- What belongs to the supervisors of partitions and to the management function: nothing that runs in the user view writes it. A store to a watched record does
count for its watch, or make it look again. -/
def sameSupervision (s t : State) : Prop :=
  t.keys = s.keys ∧ t.pmode = s.pmode ∧ t.ctl = s.ctl ∧ t.mgmt = s.mgmt ∧ t.pkg = s.pkg ∧ t.testMode = s.testMode ∧
    (∀ v, vfAt t v = { vfAt s v with reg := (vfAt t v).reg, seen := (vfAt t v).seen, due := (vfAt t v).due }) ∧
    (∀ p, let x := partAt s p
      let y := partAt t p
      y.st = x.st ∧ y.groups = x.groups ∧ y.nvf = x.nvf ∧ y.sblk = x.sblk ∧ y.tkey = x.tkey ∧ y.errq = x.errq ∧ y.errKey = x.errKey ∧ y.deleg = x.deleg ∧ y.qtime = x.qtime ∧
        y.drainlim = x.drainlim ∧ y.routes = x.routes ∧ y.saved = x.saved ∧ ∀ k, (tblGet? y.budget k).map (·.limit) = (tblGet? x.budget k).map (·.limit)) ∧
    ∀ p k, let x := slotAt s p k
      let y := slotAt t p k
      y.asid = x.asid ∧ y.ptbase = x.ptbase ∧ y.stvec = x.stvec ∧ y.sscratch = x.sscratch

end Sys2Proof.Safety
end

