-- ==== Sys2Proof/Certificates/Slice0/Obligations.lean ====
section
/-!
DEFINITION. The statements for the provers.
-/

open Sys2Proof Sys2Proof.Machine Sys2Proof.Safety

/-! ### Encodings -/

/-- Words that 08, 09, 11, 12, 13 and 18 write out decode to the instructions they stand for. -/
def Obligations.DecodeWords : Prop :=
  (∀ e ∈
      [(0x080C8020, Instr.addi 0 3 4 32), (0xA018ACA8, .ld 0 6 5 3 0 2 1 8), (0x2D7FFFFE, .br 2 0x7FFFFE), (0x200E1234, .limm 0 3 2 0x1234),
       (0x3C1C0081, .lpc 0 7 16), (0x3070E000, .jalr 0 28 7), (0x385122C1, .rep 0 20 9 2 12 1), (0x8C000002, .rzero 0 0),
       (0xE0012003, .trap 0 9 3), (0x34140405, .csrrw 0 5 0 0x405), (0xE800A400, .csrrs 0 0 5 0x400), (0xF0000000, .ssave 0)],
    decodeCore e.1 = .ok e.2) ∧
  (∀ e ∈ [(0x6180, Instr.ldc 0 12), (0x2103, .hold 1 3), (0xE000, .iend)], decodeSwitch e.1 = .ok e.2)

/-- Decoding the word of a well-formed core instruction gives the instruction back, from the word and from its four bytes (00 R4; 08 R170, R171). Decoding
the word of a well-formed switch word gives it back, from the word and from its two bytes (13 R290). -/
def Obligations.RoundTrip : Prop :=
  (∀ i : Instr, i.isCore = true → i.wf = true →
     encode i < 2 ^ 32 ∧ decodeCore (encode i) = .ok i ∧ decodeBytes (encodeBytes i) = .ok i) ∧
  (∀ i : Instr, i.isSwitch = true → i.wf = true →
     encode i < 2 ^ 16 ∧ decodeSwitch (encode i) = .ok i ∧ decodeBytes (encodeBytes i) = .ok i)

/-- A word that decodes is the word of the instruction it decodes to, which is well formed: no two words decode to one instruction. -/
def Obligations.DecodedWordIsItsEncoding : Prop :=
  (∀ (w : Nat) (i : Instr), w < 2 ^ 32 → decodeCore w = .ok i → i.isCore = true ∧ i.wf = true ∧ encode i = w) ∧
  (∀ (w : Nat) (i : Instr), w < 2 ^ 16 → decodeSwitch w = .ok i → i.isSwitch = true ∧ i.wf = true ∧ encode i = w)

/-! ### What a step runs, and what stops an instruction at issue -/

/-- A word under an unassigned major opcode raises UNDEF_OP, whatever its other bits (08 R175, Table 8-6; 13 R290): the all-zero and the all-ones word
among them. A word that the decoder rejects raises its cause at the slot that fetches it, whatever its bits [25:23] hold: UNDEF_OP or RSVD_FIELD with
the word as trap value, or, in the user view under 0x39 to 0x3D, PRIV and nothing else (08 R175; 18 R339); where row 1 of Table 8-7 stops the word
whatever its reserved fields hold, UNDEF_OP comes before RSVD_FIELD (08 R176). Outside slot 0 of an installed chart, an
instruction that names a port or an accumulator raises PORT_ILLEGAL with its word (02 R28; 08 Table 8-7); in the user view, an instruction under 0x39
to 0x3D raises PRIV (08 R175): whatever the guard holds. A poisoned guard, and a poisoned governing mask under a true guard, raise POISON with the
register (08 R168, Table 8-2). At word 8,191 an instruction with a false guard raises ACCESS with trap value 8,192 and its own word as EPC; so does
one with a true guard that would continue at the next word and has no earlier cause (08 R423). -/
def Obligations.CausesAtIssue : Prop :=
  ((∀ w : Nat, w < 2 ^ 32 →
     w / 2 ^ 26 ∈ [0x00, 0x1B, 0x1C, 0x1D, 0x1E, 0x1F, 0x26, 0x27, 0x36, 0x37, 0x3E, 0x3F] → decodeCore w = .error .undefOp) ∧
   (∀ w : Nat, w < 2 ^ 16 → w / 2 ^ 12 ∈ [0x0, 0xF] → decodeSwitch w = .error .undefOp)) ∧
  (∀ (s : State) (w : Nat) (e : DecodeError), decodeCore w = .error e → mayIssue s = true → ahead s = false →
     let priv := decide (0x39 ≤ w / 2 ^ 26 % 64 ∧ w / 2 ^ 26 % 64 ≤ 0x3D) && !(me s).sstatus.getLsbD 0
     let s0 := { s with arg := .one w }
     (priv = true ∨ e = .undefOp ∨ rowOneCause s0 w = none →
       exec .undefinedEncoding s0 =
         .next (takeTrap s0 s.cur.pos s.cur.slot false
           (if priv then 0x03 else if e = .undefOp then 0x01 else 0x02) 0 (BitVec.ofNat 64 w) s.cur.pc.toNat)) ∧
     (∀ c, priv = false → e ≠ .undefOp → rowOneCause s0 w = some c →
       exec .undefinedEncoding s0 = .next (takeTrap s0 s.cur.pos s.cur.slot false 0x01 0 c.tval s.cur.pc.toNat))) ∧
  (∀ (i : Instr) (s : State), i.isCore = true → mayIssue s = true → ahead s = false →
     (viewCause i s = none → (srcsOf i ++ dstsOf i).any (fun r => portOf r != none || r.file == .a) = true → chartSlot s = false →
       exec i s = .next (takeTrap s s.cur.pos s.cur.slot false 0x05 0 (curWord s) s.cur.pc.toNat)) ∧
     (0x39 ≤ majorOf i → majorOf i ≤ 0x3D → (me s).sstatus.getLsbD 0 = false →
       exec i s = .next (takeTrap s s.cur.pos s.cur.slot false 0x03 0 (curWord s) s.cur.pc.toNat))) ∧
  (∀ (i : Instr) (s : State), i.isCore = true → mayIssue s = true → decodeCause i s = none → heldBack i s = false → ahead s = false →
     (guardOf i ≠ 0 → (me s).pP.getLsbD (guardOf i).toNat = true →
       exec i s = .next (takeTrap s s.cur.pos s.cur.slot false 0x09 0 (BitVec.ofNat 64 (64 + (guardOf i).toNat)) s.cur.pc.toNat)) ∧
     (∀ m, maskRegOf i = some m → (me s).maskPoison m = true →
       (guardOf i = 0 ∨ (me s).pP.getLsbD (guardOf i).toNat = false) → (me s).predOf (guardOf i).toNat = true →
       exec i s = .next (takeTrap s s.cur.pos s.cur.slot false 0x09 0 (BitVec.ofNat 64 (96 + m)) s.cur.pc.toNat))) ∧
  (∀ (i : Instr) (s : State), i.isCore = true → mayIssue s = true → decodeCause i s = none → heldBack i s = false → ahead s = false →
     s.cur.pass = false → s.cur.pc = 8191 → (guardOf i = 0 ∨ (me s).pP.getLsbD (guardOf i).toNat = false) →
     ((me s).predOf (guardOf i).toNat = false → exec i s = .next (takeTrap s s.cur.pos s.cur.slot false 0x08 0 8192 8191)) ∧
     ((me s).predOf (guardOf i).toNat = true → scalarResult i s (operands i s) ≠ none → portsReady i s = true → calm s = true →
       exec i s = .next (takeTrap s s.cur.pos s.cur.slot false 0x08 0 8192 8191)))

/-- A slot that runs, takes no row at the instruction boundary and has no passes waiting executes, when its turn comes, the instruction that the word at
its program counter decodes to, as the agent at that word; and the first slot of the tile's order issues: where it is not STALLED it becomes `last`
and the step ends, where it is the others are asked (02 R25). The word is the one its instruction memory holds there, unless the spec leaves it
undefined (08 R189; 19 R355; a free word then). A switch that runs executes the switch word that the halfword at its program counter
decodes to (13 R290, R291). A row without an encoding happens with the operands it was placed with, or is put off while it must wait for the scheduler block
that it uses (log entry 14). What has raised an event into a full queue is held at its source instead: nothing of it has happened, and it is tried again (18 R318;
log entry 111). With firmware rejected no tile and no switch issues (23 R417; log entry 85). -/
def Obligations.StepRunsWhatItFetches : Prop :=
  (∀ (s : State) (rest : List Activity) (pos k : Nat) (others : List Nat) (i : Instr),
     s.agenda = .tile pos :: rest → s.ctl.boot ≠ 4 → slotOrder (tileAt s pos).last = k :: others →
     let s0 := { s with agenda := rest }
     (slotAt s pos k).phase = .running → boundaryRow (actAs s0 pos k) pos k = none → frozenSlot (actAs s0 pos k) pos k = false →
     (slotAt s pos k).rep.issuing = false →
     ((slotAt s pos k).tornAt (slotAt s pos k).pc.toNat = none →
       codeWord s pos k (slotAt s pos k).pc.toNat = memRead (tileAt s pos).imem (4 * (slotAt s pos k).pc.toNat) 4) ∧
     (decodeCore (codeWord s pos k (slotAt s pos k).pc.toNat) = .ok i →
       step s =
         match exec i (actAs s0 pos k) with
         | .next t =>
           if t.cur.stalled = true then issueFrom pos others t
           else if raisedLate s0 t = true then issueFrom pos others (heldAtSource s0 t) else .next (issued t pos k)
         | o => o)) ∧
  (∀ (s : State) (rest : List Activity) (pos : Nat) (i : Instr),
     s.agenda = .switch pos :: rest → s.ctl.boot ≠ 4 → switchRuns s pos = true →
     decodeSwitch (memRead (switchAt s pos).rmem (2 * (switchAt s pos).pc.toNat) 2) = .ok i →
     step s =
       exec i { s with agenda := rest, cur := { pos := pos, slot := 0, pc := (switchAt s pos).pc, pass := false, stalled := false } }) ∧
  (∀ (s : State) (rest : List Activity) (i : Instr) (a : Arg),
     s.agenda = .event i a :: rest →
     let s0 := { s with agenda := rest }
     (∀ s1, rowWaits s0 i a = some s1 → step s = .next { s1 with deferred := s1.deferred ++ [.event i a] }) ∧
     (rowWaits s0 i a = none →
       step s =
         match exec i { s0 with arg := a } with
         | .next t =>
           if raisedLate s0 t = true then
             .next (if i = .hintedWalkStep then heldAtSource s0 t else { heldAtSource s0 t with deferred := s.deferred ++ [.event i a] })
           else .next t
         | o => o)) ∧
  (∀ (s t : State), (raisedLate s t = true ↔ ∃ e ∈ t.parts,
       ((partAt s e.1).evWait.filter (fun x => x.cause != 0x07)).length < (e.2.evWait.filter (fun x => x.cause != 0x07)).length) ∧
     (heldAtSource s t).tiles = s.tiles ∧ (heldAtSource s t).switches = s.switches ∧ (heldAtSource s t).dies = s.dies ∧
     (∀ p, (partAt (heldAtSource s t) p).evq = (partAt s p).evq ∧ (partAt (heldAtSource s t) p).evWait = (partAt s p).evWait)) ∧
  (∀ (s : State) (rest : List Activity) (pos : Nat), s.agenda = .tile pos :: rest ∨ s.agenda = .switch pos :: rest → s.ctl.boot = 4 →
     step s = .fault .firmwareRejected)

/-- A guarded-false instruction only moves its slot to the next word, or the next pass (08 R169). An instruction any of whose registers is pending leaves
its slot STALLED and changes nothing, if it raises no decode cause (08 R166). -/
def Obligations.SkippedAndStalledInstructions : Prop :=
  (∀ (i : Instr) (s : State), i.isCore = true → skips i s = true → exec i s = .next (advance i s)) ∧
  (∀ (i : Instr) (s : State) (r : Reg), i.isCore = true → mayIssue s = true → decodeCause i s = none →
     r ∈ scoreboardRegs i → pendingReg (me s) r = true → exec i s = .next (stalled s))

/-! ### Exceptions -/

/-- Supervisor trap entry (18 R327): what it saves, SSTATUS, the handler, the suspension of repeat passes, and that nothing else changes, but for what kept the slot
STALLED: an access it waited for, a withheld one and a fence are given up (19 R351; the model's reading, log entry 25), and the token of passes that are suspended is
not pending while they are (the model's reading, log entry 33: the rule says that nothing else changes). -/
def Obligations.SupervisorTrapEntry : Prop :=
  ∀ (s : State) (pos k cause code epc : Nat) (event : Bool) (tval : Word), k < 4 → cause < 256 → code < 2048 → epc < 8192 →
    let s1 := abandon s pos k
    let t := slotAt s1 pos k
    ((slotAt s pos k).busy = none → (slotAt s pos k).blocked = none → (slotAt s pos k).fence = none → s1 = s) ∧
    t = { slotAt s pos k with busy := none, blocked := none, fence := none } ∧
    ((event = true ∨ entersUser s1 pos t cause = false) →
    ∃ st : Word, ∃ rep : Rep, ∃ pend : BitVec 32,
      takeTrap s pos k event cause code tval epc =
        setSlot s1 pos k
          { t with
            sepc := BitVec.ofNat 64 epc
            scause := BitVec.ofNat 64 ((if event then 2 ^ 63 else 0) + code * 2 ^ 8 + cause)
            stval := tval
            sstatus := st
            pc := BitVec.ofNat 14 (t.stvec.toNat % 2 ^ 13)
            rep := rep
            sPend := pend
            phase := .running } ∧
      st.getLsbD 0 = true ∧ st.getLsbD 1 = t.sstatus.getLsbD 0 ∧ st.getLsbD 2 = t.sstatus.getLsbD 3 ∧ st.getLsbD 3 = false ∧
      (∀ n, 4 ≤ n → st.getLsbD n = t.sstatus.getLsbD n) ∧
      (t.rep.active = false ∨ t.rep.susp = true → rep = t.rep ∧ pend = t.sPend) ∧
      (t.rep.active = true → t.rep.susp = false → rep = { t.rep with susp := true, resume := t.pc } ∧ pend = bitSet t.sPend t.rep.tok.toNat false))

/-- User trap entry (13 R298): the four conditions, what it saves, and that nothing else changes; without one of them the supervisor is entered. What kept
the slot STALLED is given up first (log entry 25), and the token of passes that are suspended is not pending while they are: both are the model's reading, the
latter in log entry 33, since the rule says that nothing else changes. -/
def Obligations.UserTrapEntry : Prop :=
  ∀ (s : State) (pos k cause code epc p : Nat) (tval : Word), k < 4 → cause < 256 → code < 2048 → epc < 8192 → partOf s pos = some p →
    let s1 := abandon s pos k
    let t := slotAt s1 pos k
    let all := decide (cause ∈ [0x06, 0x0A, 0x0D, 0x0E, 0x11, 0x13, 0x15, 0x17]) && !t.sstatus.getLsbD 0 && (partAt s p).deleg.getLsbD cause &&
      t.utvec.getLsbD 13 && !t.ucause.getLsbD 63
    (all = true → ∃ rep : Rep, ∃ pend : BitVec 32,
      takeTrap s pos k false cause code tval epc =
        setSlot s1 pos k
          { t with
            uepc := BitVec.ofNat 64 epc
            ucause := BitVec.ofNat 64 (2 ^ 63 + code * 2 ^ 8 + cause)
            utval := tval
            pc := BitVec.ofNat 14 (t.utvec.toNat % 2 ^ 13)
            rep := rep
            sPend := pend
            phase := .running } ∧
      (t.rep.active = false ∨ t.rep.susp = true → rep = t.rep ∧ pend = t.sPend) ∧
      (t.rep.active = true → t.rep.susp = false → rep = { t.rep with susp := true, resume := t.pc } ∧ pend = bitSet t.sPend t.rep.tok.toNat false)) ∧
    (all = false → takeTrap s pos k false cause code tval epc = setSlot s1 pos k (supervisorEntry t false cause code tval epc))

/-- TRAP, SVC and BREAK are complete when they trap: they take their cause with a as trap value and their code, and the EPC of TRAP and SVC is the next
word and that of BREAK its own; a poisoned a raises POISON in its place (13 R297). A slot that returns from a handler with an ACTIVE repeat state
resumes the passes and the scalar stream at RESUME; otherwise it continues at the word index saved (08 R180). That the token of the resumed passes is pending
again, and that a port word which TRAP, SVC or BREAK names has left its buffer, are the model's readings (log entries 33 and 29). -/
def Obligations.TrapsAndReturns : Prop :=
  (∀ (g : BitVec 3) (a : BitVec 5) (c : BitVec 11) (s : State) (i : Instr) (cause epc : Nat), ahead s = false → ready i s = true →
     (i = .trap g a c ∧ cause = 0x17 ∧ epc = s.cur.pc.toNat + 1 ∨ i = .svc g a c ∧ cause = 0x18 ∧ epc = s.cur.pc.toNat + 1 ∨
       i = .brk g a c ∧ cause = 0x19 ∧ epc = s.cur.pc.toNat) →
     ((operands i s).psn 0 = false →
       exec i s = .next (takeTrap (dequeue i s) s.cur.pos s.cur.slot false cause c.toNat ((operands i s).word 0) epc)) ∧
     ((operands i s).psn 0 = true → exec i s = .next (takeTrap s s.cur.pos s.cur.slot false 0x09 0 (BitVec.ofNat 64 a.toNat) s.cur.pc.toNat))) ∧
  (∀ (g : BitVec 3) (s : State),
     let t := me s
     let pend := if t.rep.tok = 0 ∨ t.rep.tok = 30 ∨ t.rep.tok = 31 then t.sPend else bitSet t.sPend t.rep.tok.toNat true
     (ready (.eret g) s = true → ∃ st : Word,
       st.getLsbD 0 = t.sstatus.getLsbD 1 ∧ st.getLsbD 3 = t.sstatus.getLsbD 2 ∧ st.getLsbD 2 = false ∧ st.getLsbD 1 = false ∧
       (∀ n, 4 ≤ n → st.getLsbD n = t.sstatus.getLsbD n) ∧
       exec (.eret g) s = .next (ended (setMe s (
         if t.rep.active then
           { t with sstatus := st, runCount := 0, rep := { t.rep with susp := false }, pc := t.rep.resume, sPend := pend }
         else { t with sstatus := st, runCount := 0, pc := BitVec.ofNat 14 (t.sepc.toNat % 2 ^ 13) })))) ∧
     (ready (.uret g) s = true → t.ucause.getLsbD 63 = true → ∃ uc : Word,
       uc.getLsbD 63 = false ∧ (∀ n, n ≠ 63 → uc.getLsbD n = t.ucause.getLsbD n) ∧
       exec (.uret g) s = .next (ended (setMe s (
         if t.rep.active then
           { t with ucause := uc, rep := { t.rep with susp := false }, pc := t.rep.resume, sPend := pend }
         else { t with ucause := uc, pc := BitVec.ofNat 14 (t.uepc.toNat % 2 ^ 13) })))) ∧
     (ready (.uret g) s = true → t.ucause.getLsbD 63 = false →
       exec (.uret g) s = .next (raise s { row := 7, cause := 0x01, tval := curWord s })))

/-! ### Scalar instructions, registers and control -/

/-- The scalar ALU instructions that write an s register: the destination receives the result modulo 2^64, poisoned when a source is, and UNCHK rises by
one where the precondition of Table 9-1 fails (08 R167; 09 R192, R194, R195, R197 to R199, R202, R211, R214; 36 instructions). A register of s0 is
discarded, a port enqueues. CMP, CMPI and the predicate logic write their truth value to a predicate (09 R200, R201, R202). -/
def Obligations.ScalarAndPredicateResults : Prop :=
  (∀ (i : Instr) (s : State) (d : BitVec 5) (y : Int) (c : Bool), i.wf = true → ready i s = true → calm s = true →
     scalarResult i s (operands i s) = some (d, y, c) →
     exec i s = .next (goesOn i (setS (addUnchk s (if c then 0 else 1)) d (ofInt 64 y) ((operands i s).any (·.poison))))) ∧
  (∀ (i : Instr) (s : State) (d : BitVec 5) (y c : Bool), ready i s = true → calm s = true →
     predicateResult i (operands i s) = some (d, y, c) →
     exec i s = .next (goesOn i (setP (addUnchk s (if c then 0 else 1)) d y ((operands i s).any (·.poison)))))

/-- Division truncates toward zero, answers −1 and the dividend for a zero divisor and −2^63 and 0 for −2^63 / −1, and never traps or sets a flag (09
R196). -/
def Obligations.Division : Prop :=
  ∀ (g : BitVec 3) (d a b : BitVec 5) (s : State) (i : Instr) (y : Int), ready i s = true → calm s = true →
    let x := (operands i s).word 0
    let z := (operands i s).word 1
    let q : Int := if z.toInt = 0 then -1 else if x.toInt = -2 ^ 63 ∧ z.toInt = -1 then -2 ^ 63 else x.toInt.tdiv z.toInt
    let r : Int := if z.toInt = 0 then x.toInt else if x.toInt = -2 ^ 63 ∧ z.toInt = -1 then 0 else x.toInt - q * z.toInt
    let qu : Nat := if z.toNat = 0 then 2 ^ 64 - 1 else x.toNat / z.toNat
    let ru : Nat := if z.toNat = 0 then x.toNat else x.toNat - qu * z.toNat
    (i = .div g d a b ∧ y = q ∨ i = .rem g d a b ∧ y = r ∨ i = .divu g d a b ∧ y = qu ∨ i = .remu g d a b ∧ y = ru) →
    ∃ n, n ≤ 1 ∧ exec i s = .next (goesOn i (setS (addUnchk s n) d (ofInt 64 y) ((operands i s).any (·.poison))))

/-- The effect of writing a register of each file: the register holds the word and the poison bit and is no longer pending; s0, p0 and m0 are discarded; a
port gains the word at its end, behind the entries that earlier loads have reserved (08 R165 to R167; 03 R59). After an instruction outside a pass the slot is at the next word, after REP at the word that
follows the captured ones, every port word the instruction named as a source has left its buffer, in order, and what the slot kept while the instruction
waited is dropped (03 R59; 08 R177). The end of a pass:
the next captured word, the next pass, or, after the last one, the token receives COUNT × LEN, in the entry that REP reserved where it is a port (08 R177, R178; 03 R59). -/
def Obligations.RegistersAndProgramCounter : Prop :=
  (∀ (s : State) (r : BitVec 5) (x : Word) (v : Vec) (b : Bool) (m : BitVec 16) (poison : Bool), s.cur.slot < 4 →
     let t := me s
     (r ≠ 0 → r ≠ 30 → r ≠ 31 →
       let u := me (setS s r x poison)
       u.sreg r.toNat = x ∧ u.sP.getLsbD r.toNat = poison ∧ u.sPend.getLsbD r.toNat = false ∧
       (∀ n, n ≠ r.toNat → u.sreg n = t.sreg n ∧ u.sP.getLsbD n = t.sP.getLsbD n ∧ u.sPend.getLsbD n = t.sPend.getLsbD n) ∧
       setS s r x poison = setMe s { t with s := u.s, sP := u.sP, sPend := u.sPend, tokErr := u.tokErr }) ∧
     (r = 0 → setS s r x poison = s) ∧
     (∀ k, (r.toNat = 30 ∧ k = 0 ∨ r.toNat = 31 ∧ k = 1) →
       let w := switchAt s s.cur.pos
       let y : TWord := { data := x.setWidth 512, poison := poison }
       (vget [] w.reserved k = [] → setS s r x poison = pushBuf s s.cur.pos (12 + k) y) ∧
       (vget [] w.reserved k ≠ [] → setS s r x poison = setSwitch s s.cur.pos
         { w with reserved := vset w.reserved k (vget [] w.reserved k ++ [{ slot := s.cur.slot, id := .word, word := some y }]) })) ∧
     (r ≠ 31 →
       let u := me (setV s r v poison)
       vget 0 u.v r.toNat = v ∧ u.vP.getLsbD r.toNat = poison ∧ u.vPend.getLsbD r.toNat = false ∧
       (∀ n, n ≠ r.toNat → vget 0 u.v n = vget 0 t.v n ∧ u.vP.getLsbD n = t.vP.getLsbD n ∧ u.vPend.getLsbD n = t.vPend.getLsbD n) ∧
       setV s r v poison = setMe s { t with v := u.v, vP := u.vP, vPend := u.vPend }) ∧
     (r = 31 →
       let w := switchAt s s.cur.pos
       let y : TWord := { data := v, poison := poison }
       (vget [] w.reserved 2 = [] → setV s r v poison = pushBuf s s.cur.pos 14 y) ∧
       (vget [] w.reserved 2 ≠ [] → setV s r v poison = setSwitch s s.cur.pos
         { w with reserved := vset w.reserved 2 (vget [] w.reserved 2 ++ [{ slot := s.cur.slot, id := .word, word := some y }]) })) ∧
     (r.toNat < 8 →
       let u := me (setP s r b poison)
       let w := me (setM s r m poison)
       let z := me (setG s r x poison)
       (∀ n, n < 8 → u.predOf n = if n = r.toNat ∧ r ≠ 0 then b else t.predOf n) ∧
       (∀ n, n < 8 → w.maskOf n = if n = r.toNat ∧ r ≠ 0 then m else t.maskOf n) ∧
       (∀ n, n < 8 → vget 0 z.g n = if n = r.toNat then x else vget 0 t.g n) ∧
       (r ≠ 0 → u.pP.getLsbD r.toNat = poison ∧ u.pPend.getLsbD r.toNat = false ∧ w.mP.getLsbD r.toNat = poison ∧ w.mPend.getLsbD r.toNat = false) ∧
       z.gP.getLsbD r.toNat = poison ∧ z.gPend.getLsbD r.toNat = false ∧
       (r = 0 → setP s r b poison = s ∧ setM s r m poison = s))) ∧
  (∀ (i : Instr) (s : State), s.cur.pass = false → s.cur.slot < 4 →
     let u := ended s
     (me (goesOn i s)).pc = BitVec.ofNat 14 (nextPc i s) ∧
     goesOn i s = setMe (dequeue i u) { me u with pc := BitVec.ofNat 14 (nextPc i s) } ∧
     (ahead s = true ∨ (me s).busy = none → u = s) ∧ (ahead s = false → me u = { me s with busy := none }) ∧
     u.switches = s.switches ∧ u.dies = s.dies ∧ u.parts = s.parts ∧
     (∀ k, k < 3 → bufOf (switchAt (goesOn i s) s.cur.pos) (15 + k) = (bufOf (switchAt s s.cur.pos) (15 + k)).drop (portUses (srcsOf i) k)) ∧
     (∀ n, n < 15 → bufOf (switchAt (goesOn i s) s.cur.pos) n = bufOf (switchAt s s.cur.pos) n)) ∧
  (∀ (i : Instr) (s : State), s.cur.pass = true → s.cur.slot < 4 →
     let t := me s
     let r := t.rep
     advance i s =
       if r.idx.toNat + 1 < r.len.toNat then setMe s { t with rep := { r with idx := r.idx + 1 } }
       else if r.pass.toNat + 1 < r.count.toNat then setMe s { t with rep := { r with idx := 0, pass := r.pass + 1 } }
       else
         let s1 := setMe s { t with rep := { r with idx := 0, pass := r.pass + 1, active := false } }
         let x : Word := BitVec.ofNat 64 (r.count.toNat * r.len.toNat)
         if (r.tok = 30 ∨ r.tok = 31) ∧
             (vget [] (switchAt s1 s.cur.pos).reserved (r.tok.toNat - 30)).any (fun e => e.slot == s.cur.slot && e.id == .rep && e.word.isNone) = true then
           portFill s1 s.cur.pos s.cur.slot (r.tok.toNat - 30) .rep { data := x.setWidth 512, poison := false }
         else setS s1 r.tok x false)

/-- A taken branch continues at pc + d, d being bits [22:0] of the word as a two's-complement number, and raises ACCESS with pc + d modulo 2^64 for a
target outside 0 to 8,191; a branch that is not taken raises nothing under this rule (08 R172). -/
def Obligations.Branch : Prop :=
  (∀ (w : Nat) (g : BitVec 3) (o : BitVec 23), w < 2 ^ 32 → decodeCore w = .ok (.br g o) → o.toNat = w % 2 ^ 23) ∧
  (∀ (g : BitVec 3) (o : BitVec 23) (s : State),
    let d : Int := s.cur.pc.toNat + o.toInt
    (ready (.br g o) s = true → 0 ≤ d → d < 8192 → exec (.br g o) s = .next (setMe (ended s) { me (ended s) with pc := BitVec.ofNat 14 d.toNat })) ∧
    (ready (.br g o) s = true → ahead s = false → (d < 0 ∨ 8192 ≤ d) →
      exec (.br g o) s = .next (takeTrap s s.cur.pos s.cur.slot false 0x08 0 (ofInt 64 d) s.cur.pc.toNat)) ∧
    (skips (.br g o) s = true → s.cur.pass = false → exec (.br g o) s = .next (setMe s { me s with pc := BitVec.ofNat 14 (s.cur.pc.toNat + 1) })))

/-- JALR writes pc + 1 and continues at its target; a poisoned target raises POISON and one of 8,192 or more ACCESS (09 R205). -/
def Obligations.JumpAndLink : Prop :=
  ∀ (g : BitVec 3) (d a : BitVec 5) (s : State),
    let i : Instr := .jalr g d a
    let t := (operands i s).word 0
    ready i s = true →
    ((operands i s).psn 0 = false → t.toNat < 8192 →
      exec i s = .next (jumpTo (dequeue i (ended (setS s d (BitVec.ofNat 64 (s.cur.pc.toNat + 1)) false))) t.toNat)) ∧
    ((operands i s).psn 0 = false → 8192 ≤ t.toNat → ahead s = false →
      exec i s = .next (takeTrap s s.cur.pos s.cur.slot false 0x08 0 t s.cur.pc.toNat)) ∧
    ((operands i s).psn 0 = true → ahead s = false →
      exec i s = .next (takeTrap s s.cur.pos s.cur.slot false 0x09 0 (BitVec.ofNat 64 a.toNat) s.cur.pc.toNat))

/-- TEXIT makes its slot DRAINING; ITEND raises the iteration count of its tile by one, advances WID, and continues at the core entry point below COUNT
and stops at the step boundary otherwise (02 R34, R40, R51; 09 R206, R207). A save requested at a common count stops it there (19 R352). REP hands the
words that follow to the repeat buffer with its count, saturated at 2^32 − 1, makes its token pending and continues behind them; with a count of 0 it
writes 0 to the token at once; a token that is a port reserves its entry; while passes are suspended it raises UNDEF_OP (08 R177; 09 R212; 13 R300; 03 R59). -/
def Obligations.EndOfWorkAndRepeat : Prop :=
  (∀ (g : BitVec 3) (s : State),
     (ready (.texit g) s = true → exec (.texit g) s = .next (ended (setMe s { me s with phase := .draining true }))) ∧
     (∀ b : Berth, ready (.itend g) s = true → berthAt s s.cur.pos = some b →
       let t := myTile s
       let wid := widAdvance (me s).widf (fun f => (vget 0 t.fBase f).toNat) (fun f => (vget 0 t.fExt f).toNat) (me s).wid
       let s1 := setMyTile s { t with coit := t.coit + 1 }
       exec (.itend g) s = .next (ended (
         if t.coit + 1 < b.count then
           setMe s1 { me s with
             wid := wid, pc := BitVec.ofNat 14 t.centry.toNat
             phase := if (match b.saveT with | some n => decide (n ≤ t.coit + 1) | none => false) then .boundary else .running }
         else setMe s1 { me s with wid := wid, phase := .boundary })))) ∧
  (∀ (g : BitVec 3) (t a : BitVec 5) (st m l : BitVec 4) (s : State),
     let i : Instr := .rep g t a st m l
     let n := min ((operands i s).word 0).toNat (2 ^ 32 - 1)
     ready i s = true → (operands i s).psn 0 = false →
     ((me s).rep.active = false → n = 0 → exec i s = .next (goesOn i (setS s t 0 false))) ∧
     ((me s).rep.active = false → n ≠ 0 →
       let port := decide (t = 30 ∨ t = 31)
       let s1 := setMe s { me s with
           sPend := if t = 0 ∨ port = true then (me s).sPend else bitSet (me s).sPend t.toNat true
           outs := (me s).outs.map (fun x => { x with late := false })
           rep :=
             { active := true, susp := false, base := BitVec.ofNat 13 (s.cur.pc.toNat + 1), len := BitVec.ofNat 5 (l.toNat + 1)
               count := BitVec.ofNat 32 n, pass := 0, idx := 0, mask := m, stride := st, tok := t
               resume := BitVec.ofNat 14 (s.cur.pc.toNat + l.toNat + 2) } }
       let w := switchAt s1 s.cur.pos
       let k := t.toNat - 30
       exec i s = .next (goesOn i (
         if port = true then
           setSwitch s1 s.cur.pos { w with reserved := vset w.reserved k (vget [] w.reserved k ++ [{ slot := s.cur.slot, id := .rep, word := none }]) }
         else s1))) ∧
     ((me s).rep.active = true → ahead s = false →
       exec i s = .next (takeTrap s s.cur.pos s.cur.slot false 0x01 0 (curWord s) s.cur.pc.toNat)))

/-! ### Vector instructions -/

/-- The vector integer instructions: every active lane receives its result, an inactive one keeps its value; UNCHK rises by the active lanes whose
precondition of Table 10-2 fails (10 R217 to R221; 23 instructions). A checked lane whose shadow is another value, which a saturating sum, difference or
magnitude can have, raises SHADOW_MISMATCH with its event in the tile syndrome queue, once that has room, and nothing is written (10 R219; 21 R380). -/
def Obligations.VectorIntegerResults : Prop :=
  ∀ (i : Instr) (s : State) (d : BitVec 5) (m : BitVec 3) (y : Nat → Int) (c : Nat → Bool), ready i s = true → calm s = true →
    (∀ k, laneResult i (operands i s) k = some (d, m, y k, c k)) →
    let differs := (lanesOf s m).any (fun k => c k && shadowFails i (operands i s) k)
    (differs = true → (myTile s).synq.length < 8 → ahead s = false →
      exec i s = .next (takeTrap (disagreement s) s.cur.pos s.cur.slot false 0x1C 0 (curWord s) s.cur.pc.toNat)) ∧
    (differs = true → 8 ≤ (myTile s).synq.length → exec i s = .next (stalled s)) ∧
    (differs = false → ∃ x, isMasked s d m (fun k => ofInt 32 (y k)) x ∧
      exec i s = .next (goesOn i (setV (addUnchk s ((lanesOf s m).countP (fun k => !c k))) d x (vecPoison s (operands i s) d m))))

/-- The permutes, moves and sign instructions: every active lane receives its result, an inactive one keeps its value; nothing is compared (10 R234, R235;
17 instructions). Moves between files and the mask instructions, VINS and VSEL (10 R235, R236); GGET of a register with a reserved FMT or BSZ raises
FMT_TABLE (04 R92). -/
def Obligations.VectorMovesAndMasks : Prop :=
  (∀ (i : Instr) (s : State) (d : BitVec 5) (m : BitVec 3) (y : Nat → BitVec 32), ready i s = true →
     (∀ k, k < 16 → moveResult i (operands i s) k = some (d, m, y k)) →
     ∃ x, isMasked s d m y x ∧ exec i s = .next (goesOn i (setV s d x (vecPoison s (operands i s) d m)))) ∧
  ((∀ (i : Instr) (s : State) (f : RFile) (d : BitVec 5) (y : Int), i.wf = true → ready i s = true →
     fileResult i (operands i s) = some (f, d, y) → exec i s = .next (goesOn i (writeFile s f d y ((operands i s).any (·.poison))))) ∧
   (∀ (g : BitVec 3) (d a : BitVec 5) (s : State), ready (.gget g d a) s = true → ahead s = false →
     validScale ((operands (.gget g d a) s).word 0) = false → traps (.gget g d a) s 0x0E (BitVec.ofNat 64 (8 + a.toNat))) ∧
   (∀ (g : BitVec 3) (d a k : BitVec 5) (s : State), (Instr.vins g d a k).wf = true → ready (.vins g d a k) s = true →
     let o := operands (.vins g d a k) s
     ∃ x : Vec, (∀ n, n < 16 → lane x n = if n = k.toNat then (o.word 0).setWidth 32 else lane (oldVec s d) n) ∧
       exec (.vins g d a k) s = .next (goesOn (.vins g d a k) (setV s d x (o.any (·.poison) || oldVecPoison s d)))) ∧
   (∀ (g : BitVec 3) (d a b : BitVec 5) (m : BitVec 3) (s : State), ready (.vsel g d a b m) s = true →
     let o := operands (.vsel g d a b m) s
     ∃ x : Vec, (∀ n, n < 16 → lane x n = if ((me s).maskOf m.toNat).getLsbD n then lane (o.vec 0) n else lane (o.vec 1) n) ∧
       exec (.vsel g d a b m) s = .next (goesOn (.vsel g d a b m) (setV s d x (o.any (·.poison))))))

/-- The integer reductions over the active lanes, and VCMP, whose mask receives the relation of every active lane (10 R219, R224, R233). -/
def Obligations.ReductionsAndCompares : Prop :=
  (∀ (i : Instr) (s : State) (d : BitVec 5) (m : BitVec 3) (y : Int), ready i s = true → calm s = true →
    reduceResult i s (operands i s) = some (d, m, y) →
    exec i s = .next (goesOn i (setS
      (addUnchk s (if (lanesOf s m).all (fun k => topEqual32 (lane ((operands i s).vec 0) k)) then 0 else 1)) d (ofInt 64 y)
      ((operands i s).any (·.poison))))) ∧
  (∀ (g : BitVec 3) (d a b : BitVec 5) (m : BitVec 3) (t : BitVec 2) (r : BitVec 3) (s : State),
    let i : Instr := .vcmp g d a b m t r
    let o := operands i s
    i.wf = true → ready i s = true → calm s = true →
    ∃ x : BitVec 16,
      (∀ k, k < 16 → x.getLsbD k =
        if ((me s).maskOf m.toNat).getLsbD k then laneRelation t.toNat r.toNat (lane (o.vec 0) k) (lane (o.vec 1) k)
        else ((me s).maskOf d.toNat).getLsbD k) ∧
      exec i s = .next (goesOn i (setM
        (addUnchk s ((lanesOf s m).countP (fun k => !laneComparable t.toNat (lane (o.vec 0) k) (lane (o.vec 1) k)))) d x
        (o.any (·.poison) || ((me s).maskOf m.toNat != 0xFFFF && (me s).maskPoison d.toNat)))))

/-- The vector instructions that pass through RoundTo deliver their elements one after another under the slot's NFC, with their flags, and SEED advances
once an element under RSR; under NFT the lowest lane that is non-finite from finite operands raises FP_NONFINITE and nothing changes; a table that is
not valid or a scale register with a reserved field raises FMT_TABLE (04 R79, R80, R82, R85, R89, R92; 10 R222, R223, R225, R227, R228, R231, R232; 20
instructions). A checked element whose shadow is another value raises SHADOW_MISMATCH with its event in the tile syndrome queue, once that has room, and
nothing is written (10 R219; 21 R380). -/
def Obligations.RoundedResults : Prop :=
  ∀ (i : Instr) (s : State) (r : Rounding), i.wf = true → ready i s = true → calm s = true → rounding i s (operands i s) = some r →
    (r.refused = none → ((me s).nfc.getLsbD 7 = false ∨ r.offender s = none) → r.disagrees s = false →
      exec i s = .next (goesOn i (r.effect s (operands i s)))) ∧
    (r.refused = none → ((me s).nfc.getLsbD 7 = false ∨ r.offender s = none) → r.disagrees s = true →
      ((myTile s).synq.length < 8 → ahead s = false →
        exec i s = .next (takeTrap (disagreement s) s.cur.pos s.cur.slot false 0x1C 0 (curWord s) s.cur.pc.toNat)) ∧
      (8 ≤ (myTile s).synq.length → exec i s = .next (stalled s))) ∧
    (∀ l, r.refused = none → (me s).nfc.getLsbD 7 = true → r.offender s = some l → ahead s = false →
      exec i s = .next (takeTrap s s.cur.pos s.cur.slot false 0x0D 0 (BitVec.ofNat 64 l) s.cur.pc.toNat)) ∧
    (∀ v, r.refused = some v → ahead s = false →
      exec i s = .next (takeTrap s s.cur.pos s.cur.slot false 0x0E 0 (BitVec.ofNat 64 v) s.cur.pc.toNat))

/-- RoundTo delivers a value that its format holds unchanged and with no flag, whatever the rounding mode, if subnormals are not flushed (04 R82). Under
round-to-nearest-even, no finite value of the format lies nearer to the exact magnitude than the one delivered, if no overflow is reported (04 R82). -/
def Obligations.RoundTo : Prop :=
  (∀ (R : Rnd) (F : Fmt) (x r : Nat), F ∈ [f32, f16, bf16] → R.ftz = false → x < 2 ^ F.width → isNaN F x = false →
     roundTo R F (decodeF F x).exact r = (x, 0)) ∧
  (∀ (R : Rnd) (F : Fmt) (neg : Bool) (num den r y : Nat), F ∈ [f32, f16, bf16] → R.rm = 0 → R.ftz = false → 0 < num → 0 < den → y < F.inf →
     let z := roundTo R F (.val neg num den) r
     z.2.getLsbD 2 = false →
     let n : Int := num * 2 ^ F.unit
     ((F.ulps (z.1 % F.signBit) * den : Int) - n).natAbs ≤ ((F.ulps y * den : Int) - n).natAbs)

/-- VMIN and VMAX of floats: a NaN gives the other operand, −0 is below +0; no flag, no draw (04 R86; 10 R222). The floating reductions write the node of
the tree over their active lanes with the flags and SEED its additions leave, compared as one element; under NFT the lowest lane of an offending node
raises FP_NONFINITE, and a node whose shadow is another value raises SHADOW_MISMATCH (04 R79, R94; 10 R219, R233). -/
def Obligations.FloatSelectionsAndReductions : Prop :=
  (∀ (g : BitVec 3) (d a b : BitVec 5) (m : BitVec 3) (t : BitVec 2) (isMax : Bool) (s : State),
     let i : Instr := if isMax then .vmaxF g d a b m t else .vminF g d a b m t
     let F := fmtOf t.toNat
     let w := F.width
     let o := operands i s
     let y := fun k => chosen F isMax (elem (o.vec 0) w k) (elem (o.vec 1) w k)
     let ok := fun k => normalSafe F false 1 (elem (o.vec 0) w k) && normalSafe F false 1 (elem (o.vec 1) w k) && normalSafe F false 1 (y k)
     let act := (List.range (512 / w)).filter (fun k => ((me s).maskOf m.toNat).getLsbD (k * w / 32))
     ready i s = true → calm s = true →
     ∃ x : Vec,
       (∀ k, k < 512 / w → elem x w k = if ((me s).maskOf m.toNat).getLsbD (k * w / 32) then y k else elem (oldVec s d) w k) ∧
       exec i s = .next (goesOn i (setV (addUnchk s (act.countP (fun k => !ok k))) d x (vecPoison s o d m)))) ∧
  (∀ (i : Instr) (s : State) (d : BitVec 5) (m : BitVec 3) (y : Nat) (c : TreeAcc), ready i s = true → calm s = true →
     floatTree i s (operands i s) = some (d, m, y, c) →
     (((me s).nfc.getLsbD 7 = false ∨ c.nf = none) → (c.safe && c.dis) = true → (myTile s).synq.length < 8 → ahead s = false →
       exec i s = .next (takeTrap (disagreement s) s.cur.pos s.cur.slot false 0x1C 0 (curWord s) s.cur.pc.toNat)) ∧
     (((me s).nfc.getLsbD 7 = false ∨ c.nf = none) → (c.safe && c.dis) = false →
       let s1 := orFlags (addUnchk s (if lanesOf s m = [] ∨ c.safe = true then 0 else 1)) c.flags
       exec i s = .next (goesOn i (setS (setMe s1 { me s1 with seed := c.seed }) d (BitVec.ofNat 64 y) ((operands i s).any (·.poison))))) ∧
     (∀ l, (me s).nfc.getLsbD 7 = true → c.nf = some l → ahead s = false →
       exec i s = .next (takeTrap s s.cur.pos s.cur.slot false 0x0D 0 (BitVec.ofNat 64 l) s.cur.pc.toNat)))

/-- The instructions that widen to binary32 deliver exactly the value of the half or of the table code, a NaN as the canonical one, with no flag; VDEC
through a table that is not valid raises FMT_TABLE (10 R225, R227; 04 R89). The packing conversions between 8-bit codes and 4-bit or 6-bit ones: sign
and magnitude, saturated with NV where the magnitude does not fit (10 R226). -/
def Obligations.WideningAndPacking : Prop :=
  (∀ (i : Instr) (s : State) (d : BitVec 5) (m : BitVec 3) (y : Nat → FVal), ready i s = true → calm s = true →
     (∀ k, widened i s (operands i s) k = some (d, m, y k)) →
     ((∀ t, selectorOf i = some t → validTable s t = true) → (∀ k, fits32 (y k) = true) →
       ∃ x : Vec,
         (∀ k, k < 16 → ((me s).maskOf m.toNat).getLsbD k = true →
           decodeF f32 (lane x k).toNat = y k ∧ (y k = .nan → lane x k = 0x7FC00000)) ∧
         (∀ k, k < 16 → ((me s).maskOf m.toNat).getLsbD k = false → lane x k = lane (oldVec s d) k) ∧
         exec i s = .next (goesOn i (setV s d x (vecPoison s (operands i s) d m)))) ∧
     (∀ t, selectorOf i = some t → validTable s t = false → ahead s = false →
       exec i s = .next (takeTrap s s.cur.pos s.cur.slot false 0x0E 0 (BitVec.ofNat 64 t.toNat) s.cur.pc.toNat))) ∧
  (∀ (g : BitVec 3) (d a : BitVec 5) (h : BitVec 1) (s : State), calm s = true →
     let o := fun (i : Instr) => (operands i s).vec 0
     let p := fun (i : Instr) => (operands i s).any (·.poison)
     let wide := fun (w : Nat) (v : Vec) => (List.range 64).any (fun n => decide (2 ^ (w - 1) ≤ elem v 8 n % 128))
     (ready (.vupk4 g d a h) s = true → ∃ x : Vec,
       (∀ n, n < 64 → elem x 8 n / 128 = elem (o (.vupk4 g d a h)) 4 (64 * h.toNat + n) / 8 ∧
         elem x 8 n % 128 = elem (o (.vupk4 g d a h)) 4 (64 * h.toNat + n) % 8) ∧
       exec (.vupk4 g d a h) s = .next (goesOn (.vupk4 g d a h) (setV (orFlags s 0) d x (p (.vupk4 g d a h))))) ∧
     (ready (.vpk4 g d a h) s = true → ∃ x : Vec,
       (∀ n, n < 64 → elem x 4 (64 * h.toNat + n) = elem (o (.vpk4 g d a h)) 8 n / 128 * 8 + min (elem (o (.vpk4 g d a h)) 8 n % 128) 7) ∧
       elem x 256 (1 - h.toNat) = elem (oldVec s d) 256 (1 - h.toNat) ∧
       exec (.vpk4 g d a h) s = .next (goesOn (.vpk4 g d a h)
         (setV (orFlags s (if wide 4 (o (.vpk4 g d a h)) then 1 else 0)) d x (p (.vpk4 g d a h) || oldVecPoison s d)))) ∧
     (ready (.vupk6 g d a) s = true → ∃ x : Vec,
       (∀ n, n < 64 → elem x 8 n / 128 = elem (o (.vupk6 g d a)) 6 n / 32 ∧ elem x 8 n % 128 = elem (o (.vupk6 g d a)) 6 n % 32) ∧
       exec (.vupk6 g d a) s = .next (goesOn (.vupk6 g d a) (setV (orFlags s 0) d x (p (.vupk6 g d a))))) ∧
     (ready (.vpk6 g d a) s = true → ∃ x : Vec,
       (∀ n, n < 64 → elem x 6 n = elem (o (.vpk6 g d a)) 8 n / 128 * 32 + min (elem (o (.vpk6 g d a)) 8 n % 128) 31) ∧
       (∀ k, 12 ≤ k → k < 16 → lane x k = 0) ∧
       exec (.vpk6 g d a) s = .next (goesOn (.vpk6 g d a)
         (setV (orFlags s (if wide 6 (o (.vpk6 g d a)) then 1 else 0)) d x (p (.vpk6 g d a))))))

/-- VBEXP writes the code of Align over its active lanes, or with ACC the larger of it and the old code, into SC[j] of g, clears FMT and leaves the other
codes and BSZ; with ACC a g register with a reserved field or FMT other than 0 raises FMT_TABLE (05 R112; 10 R230, Table 10-3). That the poison of the old register
stays only with ACC, and without it goes, is the model's reading (log entry 38). -/
def Obligations.BlockExponent : Prop :=
  ∀ (g : BitVec 3) (d a : BitVec 5) (j : BitVec 2) (m : BitVec 3) (q c : BitVec 1) (s : State),
    let i : Instr := .vbexp g d a j m q c
    let o := operands i s
    let old := vget 0 (me s).g d.toNat
    let R := rndOf (me s).nfc
    ready i s = true → calm s = true →
    (c = 0 ∨ (validScale old = true ∧ old.getLsbD 32 = false) →
      ∃ (x : Word) (n : Nat),
        isAlignCode (if q = 1 then 16 else 8) ((lanesOf s m).map (fun k => operandF f32 R.ftz (elem (o.vec 0) 32 k))) n ∧
        (x.toNat / 2 ^ (8 * j.toNat) % 256 = if c = 1 then max n (old.toNat / 2 ^ (8 * j.toNat) % 256) else n) ∧
        (∀ k, k < 4 → k ≠ j.toNat → x.toNat / 2 ^ (8 * k) % 256 = old.toNat / 2 ^ (8 * k) % 256) ∧
        x.toNat / 2 ^ 32 % 4 = 0 ∧ x.toNat / 2 ^ 34 = old.toNat / 2 ^ 34 ∧
        exec i s = .next (goesOn i (setG s d x (o.any (·.poison) || (c == 1 && (me s).gP.getLsbD d.toNat))))) ∧
    (c = 1 → (validScale old && !old.getLsbD 32) = false → ahead s = false →
      exec i s = .next (takeTrap s s.cur.pos s.cur.slot false 0x0E 0 (BitVec.ofNat 64 (8 + d.toNat)) s.cur.pc.toNat))

/-! ### Control and status registers -/

/-- CSRRW, CSRRC and CSRRS: the old value goes to rd, and what is written is a, or the old value with the bits of a cleared or set; with a = s0 nothing is
written (09 R209; 18 R329). Each register then reads as its register map says, and the slot's other registers of the list read as before. A reserved
value, of NFC.RM, of BUDGET.ACT, of a channel of RNSCTL or, in test mode, of FAULTINJ.KIND, raises RSVD_FIELD with the value, before the access waits for anything.
The rows that write one CSR: the register then reads as its register map says; a register of the
supervisor is written in the supervisor view. RNSCFG changes MODE and, where it does, clears every accumulator; RNSCTL retires a channel of a set that
has none at the tile it names, where no residue operation is in flight, and logs a RETIRE record on that tile's die where it has changed one; BUDGET with NW = 1
selects an entry and keeps its limit (04 R78, R81; 05 R108 to R110; 18 R317, R320, R321, R323 to R325; 21 R385, Table 21-2). -/
def Obligations.ControlAndStatusRegisters : Prop :=
  (∀ (i : Instr) (s : State) (d a : BitVec 5) (n : Nat) (f : Word → Word → Word), csrForm i = some (d, a, n, f) → ready i s = true → s.cur.slot < 4 →
     let old := csrRead s n
     let v := f old ((operands i s).word 0)
     (a = 0 → csrWaits s n false = false → exec i s = .next (goesOn i (setS s d old false))) ∧
     (∀ x, a ≠ 0 → (operands i s).psn 0 = false → csrWaits s n true = false → reservedValue s n v = false → csrAfter s n old v = some x →
       ∃ t, exec i s = .next (goesOn i (setS t d old false)) ∧ csrRead t n = x ∧
         ∀ m y, m ≠ n → csrAfter s m y y ≠ none → csrRead t m = csrRead s m) ∧
     (a ≠ 0 → (operands i s).psn 0 = false → reservedValue s n v = true → ahead s = false → traps i s 0x02 v) ∧
     (csrWaits s n (a != 0) = true → ((operands i s).psn 0 = false ∧ reservedValue s n v = false) ∨ a = 0 → exec i s = .next (stalled s)) ∧
     (a ≠ 0 → (operands i s).psn 0 = true → ahead s = false → traps i s 0x09 (BitVec.ofNat 64 a.toNat))) ∧
  ((∀ (i : Instr) (s : State) (n : Nat) (v x : Word), csrRowForm i s.arg = some (n, v) → s.cur.slot < 4 →
     (0x800 ≤ n → (me s).sstatus.getLsbD 0 = true) → csrWaits s n true = false → reservedValue s n v = false → csrAfter s n (csrRead s n) v = some x →
     ∃ t, exec i s = .next t ∧ csrRead t n = x) ∧
   (∀ (i : Instr) (s : State) (n : Nat) (v : Word),
     csrRowForm i s.arg = some (n, v) ∨ (i = .rnsctlWrite ∧ s.arg = .value v ∧ n = 0x80A) ∨ (i = .budgetSelect ∧ n = 0x80D ∧ ∃ y, s.arg = .value y ∧ v = bitSet y 55 true) →
     (0x800 ≤ n → (me s).sstatus.getLsbD 0 = true) → reservedValue s n v = true → ahead s = false →
     exec i s = .next (takeTrap s s.cur.pos s.cur.slot false 0x02 0 v s.cur.pc.toNat)) ∧
   (∀ (s : State) (v : Word), s.arg = .value v → chartSlot s = true → drained s = true →
     exec .rnscfgWrite s = .next (
       if v.getLsbD 0 = (myTile s).rnsMode.getLsbD 0 then s
       else setMyTile s { myTile s with rnsMode := v.setWidth 1, acc := Vector.replicate 4 { cells := [], beta := 0, poison := false } })) ∧
   (∀ (s : State) (v : Word), s.arg = .value v → (me s).sstatus.getLsbD 0 = true → v.toNat / 2 ^ 24 % 16 ∈ [0, 1, 2, 3, 8, 15] →
     v.toNat / 2 ^ 28 % 16 ∈ [4, 5, 6, 7, 9, 15] →
     let q := 128 * (v.toNat / 2 ^ 16 % 128) + v.toNat % 128
     let legal := isTilePos q && (partOf s s.cur.pos).isSome && partOf s q == partOf s s.cur.pos
     let u := tileAt s q
     let ra : BitVec 4 := if u.reta = 15 then BitVec.ofNat 4 (v.toNat / 2 ^ 24) else u.reta
     let rb : BitVec 4 := if u.retb = 15 then BitVec.ofNat 4 (v.toNat / 2 ^ 28) else u.retb
     let s0 := setTile s q { u with reta := ra, retb := rb }
     let s1 :=
       if ra = u.reta ∧ rb = u.retb then s0
       else logRec s0 (dieOf q)
         { kind := 0x0B, fl := 0, count := 1, cycle := s.cycle, place := tileId s.pkg q &&& 0xFFFFFFFFFFFF, addr := 0
           lo := BitVec.ofNat 64 (ra.toNat + 16 * rb.toNat), hi := 0 }
     (legal = true → u.ops.all (fun o => !o.kind.isResidue) = true →
       exec .rnsctlWrite s = .next (setMe s1 { me s1 with rnsX := v.setWidth 7, rnsY := BitVec.ofNat 7 (v.toNat / 2 ^ 16) })) ∧
     (legal = true → u.ops.all (fun o => !o.kind.isResidue) = false → exec .rnsctlWrite s = .next (stalled s)) ∧
     (legal = false → ahead s = false → exec .rnsctlWrite s = .next (takeTrap s s.cur.pos s.cur.slot false 0x08 0 v s.cur.pc.toNat))) ∧
   (∀ (s : State) (v : Word) (p : Nat), s.arg = .value v → (me s).sstatus.getLsbD 0 = true → v.toNat / 2 ^ 60 ≤ 4 → partOf s s.cur.pos = some p →
     exec .budgetSelect s = .next (setPart s p
       { partAt s p with bact := BitVec.ofNat 4 (v.toNat / 2 ^ 60), bcls := BitVec.ofNat 4 (v.toNat / 2 ^ 56) })))

/-! ### Accesses -/

/-- LD, VLD, ST, VST, ATOM, BARA and BARI issue one access with their address, bytes, class and semantics, and the slot goes on at once; the destination
is pending until the reply; a vector access with no active lane issues none, and a port receives the word of zeros (12 R262, R263, R265, R275; 07 R140; 10
R218). The access stands behind the slot's earlier ones; a pass stands before those that were issued ahead of it (07 R145). What an access instruction raises at
issue, in this order: POISON for its base, UNDEF_OP for an unknown operation word, MISALIGN and ACCESS with the effective address, RANGE_LOCK with the
lowest address that a locked range refuses (08 R168; 12 R264, R265; 07 R155). -/
def Obligations.AccessesAtIssue : Prop :=
  (∀ (i : Instr) (s : State) (f : AccessForm), ready i s = true → accessForm i s (operands i s) = some f → f.legal i s = true →
     let s1 := expect s f.kind.dest
     let x := me s1
     let a : Access :=
       { id := x.nextId, kind := f.kind, va := f.va, size := f.size, cls := f.cls, acq := f.acq, rel := f.rel, asid := x.asid.setWidth 9, root := x.ptbase
         sup := x.sstatus.getLsbD 0, stage := .issued, since := 0, late := ahead s }
     ∃ older younger, x.outs = older ++ younger ∧ (s.cur.pass = false → younger = []) ∧ younger.all (·.late) = true ∧
       (s.cur.pass = true → older.getLast?.all (fun b => !b.late) = true) ∧
       exec i s = .next (goesOn i (
         if f.addrs = [] then (if f.kind.dest = some ⟨.v, 31⟩ then setV s 31 0 false else s)
         else setMe s1 { x with outs := older ++ a :: younger, nextId := x.nextId + 1 }))) ∧
  (∀ (i : Instr) (s : State) (f : AccessForm), ready i s = true → ahead s = false → accessForm i s (operands i s) = some f →
     let o := operands i s
     (o.psn 0 = true → traps i s 0x09 (BitVec.ofNat 64 ((srcsOf i).headD ⟨.s, 0⟩).num)) ∧
     (o.psn 0 = false → unknownAtom i o = true → traps i s 0x01 (curWord s)) ∧
     (o.psn 0 = false → unknownAtom i o = false → f.va.toNat % f.size ≠ 0 → traps i s 0x04 f.va) ∧
     (o.psn 0 = false → unknownAtom i o = false → f.va.toNat % f.size = 0 → reachable s f.va f.size = false → traps i s 0x08 f.va) ∧
     (∀ x, o.psn 0 = false → unknownAtom i o = false → f.va.toNat % f.size = 0 → reachable s f.va f.size = true → x ∈ f.addrs →
       refusedBy s f.kind.isStore x = true → (∀ y ∈ f.addrs, y < x → refusedBy s f.kind.isStore y = false) → traps i s 0x06 (BitVec.ofNat 64 x)))

/-- FENCE waits for the accesses of its classes and, beyond the tile's die, for the acknowledgement of every other die, and for .sys of every package a pier
leads to: its markers enter the hawsers and pier paths that its classes take; BARW goes on where the generation differs and suspends the slot, registered at
its record, where it does not; TWAIT, TTEST and TDRAIN (07 R151, R158; 12 R266, R275, R276; 03 R73, R74). A read that a slot waits for, in a scratch of its
die, with nothing of the slot in flight, answers the bytes that stand there and their poison, and changes nothing (06 R116; 07 R140). -/
def Obligations.FencesBarriersAndTokens : Prop :=
  (∀ (g : BitVec 3) (s : State),
     (∀ (sc : BitVec 3) (m : BitVec 8), ready (.fence g sc m) s = true →
       let dies := if sc.toNat < 3 then [] else
         (List.range 8).filter (fun d => d != dieOf s.cur.pos) ++ (if sc = 5 then (joinPackages s).map (256 + ·) else [])
       let markers := dies.flatMap (fun d => ((List.range 4).filter (fun h => m.getLsbD h || m.getLsbD (h + 4))).map (fun h =>
         HawEnt.marker (dieOf s.cur.pos) d h s.cur.pos s.cur.slot false))
       exec (.fence g sc m) s = .next (goesOn (.fence g sc m) (
         if m = 0 then s
         else
           { setMe s { me s with
               fence := if dies = [] ∧ (me s).outs.all (fun a => !m.getLsbD a.cls.toNat) = true then none else some ⟨m, sc, dies⟩ } with
             hawsers := s.hawsers ++ markers }))) ∧
     (∀ (a b : BitVec 5) (c : BitVec 3) (s1 : State) (v : Nat) (p : Bool),
       let i : Instr := .barw g a b c
       let va := (operands i s).word 0
       let gen := (operands i s).word 1
       ready i s = true → recordLegal s (operands i s) = true →
       let answer := inlineAccess s va.toNat 16 c false .atomic (fun _ q => if q then .refuse cPOISON else .keep)
       (answer = .ok s1 v p →
         exec i s = .next (
           if v % 2 ^ 32 = gen.toNat % 2 ^ 32 then
             dequeue i (ended (setMe s1 { me s1 with
               phase := .barw va (gen.setWidth 32) c
               barPa := if isGlobal va then paAt s1 (slotWho s1 s1.cur.pos s1.cur.slot) va.toNat else none }))
           else goesOn i s1)) ∧
       (answer = .wait s1 → exec i s = .next (stalled s1))) ∧
     (∀ a : BitVec 5, ready (.twait g a) s = true → (operands (.twait g a) s).psn 0 = false →
       exec (.twait g a) s = .next (goesOn (.twait g a) s)) ∧
     (∀ d a : BitVec 5, ready (.ttest g d a) s = true → (operands (.ttest g d a) s).psn 0 = false ∨ (a ≠ 0 ∧ (me s).sPend.getLsbD a.toNat = true) →
       exec (.ttest g d a) s = .next (goesOn (.ttest g d a) (setP s d (decide (a = 0 ∨ (me s).sPend.getLsbD a.toNat = false)) false))) ∧
     (ready (.tdrain g) s = true →
       exec (.tdrain g) s = .next (
         if (myTile s).ops.all (fun o => o.slot != s.cur.slot || o.finished) then goesOn (.tdrain g) s else stalled s))) ∧
  (∀ (s : State) (va n pos off : Nat) (cls : BitVec 3) (kind : LKind), va < 2 ^ 56 → Config.localBase ≤ va → regionOf s s.cur.pos va n = .scratch pos off →
     dieOf pos = dieOf s.cur.pos → inSpill (tileAt s pos) off n = false → (me s).outs = [] → (myTile s).ops = [] → (me s).busy = none → (me s).blocked = none →
     (List.range n).all (fun i => !refusedBy s (kind != .load) (va + i)) = true →
     inlineAccess s va n cls false kind readOnly = .ok s (memRead (tileAt s pos).scratch off n) (unitsPoison (tileAt s pos).scratchP off n))

/-- An outstanding access that is issued is performed once everything local order puts before it has been, and after the earlier global accesses of its slot that
may leave the translation quay and have not: it waits for a walk where no TLB entry
translates it, is held where its page is ABSENT or MIGRATING, answered with a retry where the replay queue is full, or fails; what it reads is free where
another access of its slot, outstanding or performed meanwhile, meets it through another page; a walk that finds its leaf lets every access that shares it be performed again; a page that the
leaf does not permit refuses it, and its slot learns ACCESS with the address at its next boundary (07 R142, R146; 12 R424; 20 R365 to R368, R371, R372). An access
that a TLBINV has released is walked again: withheld anew, or free to be made (20 R374). A die
or package acknowledges a FENCE once its markers have arrived and every beat ahead of them has been performed, and the last acknowledgement, with every access
of its classes performed, lets the slot go on; a slot SUSPENDED in BARW that is woken goes on behind it where the generation differs, stays SUSPENDED where it
does not, asks again where it must wait, and traps where the record is poisoned or refused (03 R73; 07 R151, R158). -/
def Obligations.AccessEvents : Prop :=
  (∀ (s : State) (pos k id : Nat) (a : Access), s.arg = .three pos k id → accessOf s pos k id = some a →
     let w := accessWho s pos k a
     let va := a.va.toNat % 2 ^ 56
     let raw := memAccess s w a.va.toNat a.size a.kind.lkind (a.kind.upd a.size (Config.freeVec s.fresh).toNat)
     let answer := observed s w a.va.toNat a.size a.kind.isStore raw
     let failed := fun (s1 : State) (why : Bad) => settleFence (failAccess (dropAccess s1 pos k a.id) pos k a why) pos k
     (isGlobal a.va = false → answer = raw) ∧
     (∀ s1 v p, (slotTouches s1 pos k).all (fun x => x.ag == w.ag) = true → passedOf s1 w.ag = [] →
       observed s w a.va.toNat a.size a.kind.isStore (.ok s1 v p) = .ok s1 v p) ∧
     (a.stage ≠ .issued ∨ inOrder (tileAt s pos) k a = false ∨ behindAtQuay s pos k a = true → exec .accessPerform s = .next s) ∧
     (a.stage = .issued → inOrder (tileAt s pos) k a = true → behindAtQuay s pos k a = false →
       (needsWalk s w a = true →
         (∀ s1, startWalk s w a.va.toNat = some s1 →
           exec .accessPerform s = .next (later (updAccess s1 pos k { a with stage := .walking }) .pageTableWalk (.three pos k a.id))) ∧
         (startWalk s w a.va.toNat = none → exec .accessPerform s = .next s)) ∧
       (needsWalk s w a = false →
         (∀ s1 old psn, answer = .ok s1 old psn → exec .accessPerform s = .next (nextFresh (performed s1 pos k a old psn))) ∧
         (∀ s1, answer = .wait s1 → exec .accessPerform s = .next s1) ∧
         (∀ s1 m, answer = .held s1 m → exec .accessPerform s = .next (holdAccess s1 pos k a m)) ∧
         (∀ s1 why, answer = .bad s1 why → exec .accessPerform s = .next (failed s1 why)) ∧
         (∀ e, isGlobal a.va = true → tlbFind s (quayAt s w.quay).tlb va w.asid = some e →
           (a.kind.isLoad = true ∧ e.leaf.getLsbD 2 = false) ∨ (a.kind.isStore = true ∧ e.leaf.getLsbD 3 = false) ∨ (a.sup = false ∧ e.leaf.getLsbD 4 = false) →
           exec .accessPerform s = .next (failed s .access)))) ∧
     (a.stage = .walking →
       let t := translate s w (needOf a.kind.lkind) va
       let shared := walkers s w a.va.toNat
       let goOn := fun (s : State) (x : Nat × Nat × Access) => updAccess s x.1 x.2.1 { x.2.2 with stage := .issued }
       let refuse := fun (s : State) (x : Nat × Nat × Access) =>
         settleFence (failAccess (dropAccess s x.1 x.2.1 x.2.2.id) x.1 x.2.1 x.2.2 .access) x.1 x.2.1
       let told := fun (s : State) => learnt s w a.va.toNat (shared.map (fun x => Agent.access x.1 x.2.1 x.2.2.id))
       (∀ s1 pa key, t = .leaf s1 pa key → exec .pageTableWalk s = .next (shared.foldl goOn s1)) ∧
       (∀ s1, t = .refused s1 → (entryAt s1 w a.va.toNat).isSome = true → exec .pageTableWalk s = .next (shared.foldl goOn s1)) ∧
       (∀ s1, t = .refused s1 → entryAt s1 w a.va.toNat = none → exec .pageTableWalk s = .next (shared.foldl refuse (told s1))) ∧
       (∀ s1, t = .absent s1 → exec .pageTableWalk s = .next (shared.foldl (fun s x => holdAccess s x.1 x.2.1 x.2.2 false) (told s1))) ∧
       (∀ s1, t = .migrating s1 → exec .pageTableWalk s = .next (shared.foldl (fun s x => holdAccess s x.1 x.2.1 x.2.2 true) (told s1))) ∧
       (∀ s1, t = .wait s1 → exec .pageTableWalk s = .next s1)) ∧
     (∀ m, a.stage = .retry m → exec .accessRetry s = .next (updAccess s pos k { a with stage := .issued })) ∧
     (∀ why, a.kind.dest = none → (slotAt s pos k).phase.isDraining = false →
       (slotAt (failAccess s pos k a why) pos k).answers = (slotAt s pos k).answers ++ [{ cause := why.cause, tval := BitVec.ofNat 64 va }])) ∧
  (∀ (s : State) (kind id : Nat) (b : Blocked), s.arg = .two kind id →
     let ag := rewalkAgent kind id
     heldOf s ag = some b →
     let w : Who :=
       { pos := b.quay, slot := none, quay := b.quay, asid := b.asid, root := b.root, sup := false, part := (payerOf s ag).1, cls := (payerOf s ag).2, ag := ag }
     let t := translate s w { r := false, w := false } (b.va.toNat % 2 ^ 56)
     let again := fun (s1 : State) (m : Bool) => holdAgain (withhold s1 w b.va.toNat m b.write (some b)).1 (withhold s1 w b.va.toNat m b.write (some b)).2 ag
     (b.released = false → exec .pageTableWalk s = .next s) ∧
     (b.released = true →
       (∀ s1, t = .absent s1 → exec .pageTableWalk s = .next (again s1 false)) ∧ (∀ s1, t = .migrating s1 → exec .pageTableWalk s = .next (again s1 true)) ∧
       (∀ s1 pa key, t = .leaf s1 pa key → exec .pageTableWalk s = .next s1))) ∧
  ((∀ (s : State) (pos k die : Nat) (f : FenceWait), s.arg = .three pos k die → (slotAt s pos k).fence = some f →
     let done := (slotAt s pos k).outs.all (fun a => !f.mask.getLsbD a.cls.toNat)
     let rest := f.dies.erase die
     let s1 := joinMarkers s pos k die
     let behind := aheadOfMarkers s1 pos k die [] s1.hawsers && !(decide (256 ≤ die) && s.lostPkgs.contains (die - 256))
     (die ∉ f.dies → exec .joinComplete s = .next s) ∧
     (die ∈ f.dies → behind = true → exec .joinComplete s = .next s1) ∧
     (die ∈ f.dies → behind = false →
       exec .joinComplete s = .next (setSlot (dropMarkers s1 pos k (some die)) pos k
         { slotAt s pos k with fence := if rest = [] ∧ done = true then none else some { f with dies := rest } }))) ∧
   (∀ (s : State) (pos k : Nat) (va : Word) (gen : BitVec 32) (c : BitVec 3), s.arg = .two pos k → (slotAt s pos k).phase = .barw va gen c →
     withheld (slotAt s pos k).blocked = false →
     let answer := memAccess s { slotWho s pos k with oc := c.toNat } va.toNat 16 .atomic (fun _ p => if p then .refuse cPOISON else .keep)
     (∀ s1 v p, answer = .ok s1 v p → v % 2 ^ 32 ≠ gen.toNat →
       let s2 := asks s1 pos k false
       exec .barrierWake s = .next (setSlot s2 pos k
         { slotAt s2 pos k with phase := .running, pc := (slotAt s pos k).pc + 1, busy := none, barPa := none })) ∧
     (∀ s1 v p, answer = .ok s1 v p → v % 2 ^ 32 = gen.toNat →
       let s2 := asks s1 pos k false
       exec .barrierWake s = .next (setSlot s2 pos k
         { slotAt s2 pos k with barPa := if isGlobal va then paAt s2 (slotWho s2 pos k) va.toNat else none })) ∧
     (∀ s1, answer = .wait s1 → exec .barrierWake s = .next (nextCycle (asks s1 pos k true) .barrierWake (.two pos k))) ∧
     (∀ s1 m, answer = .held s1 m → exec .barrierWake s = .next (blockSlot s1 pos k va.toNat m true)) ∧
     (∀ s1 why, answer = .bad s1 why →
       exec .barrierWake s = .next (takeTrap s1 pos k false why.cause 0 (BitVec.ofNat 64 (va.toNat % 2 ^ 56)) (slotAt s pos k).pc.toNat))))

/-- An access to a scratch that is performed answers the bytes that stood there with the poison of their units, and writes exactly the bytes that its kind
names, little-endian: no other byte of any scratch, and no byte of an operand bank, of an instruction memory or of global memory changes; the access
is no longer outstanding (07 R142; 08 R167; 12 R262 to R265, R275). A store or an atomic performed at the home of a line that stands in the L2 of its
home die replaces the bytes its kind names in that line, and no other line, in any cache, nor any byte of DRAM, of a scratch or of an operand bank
changes; poisoned data makes the line Poisoned; a load changes none of them (06 R119, R120, R130; 07 R142). The access is performed in its turn, once its beats have
crossed and been charged (03 R72; 06 R126; 19 R349; log entry 95). -/
def Obligations.AccessesPerformed : Prop :=
  (∀ (s : State) (pos k id q off : Nat) (a : Access), s.arg = .three pos k id → accessOf s pos k id = some a → a.stage = .issued → inOrder (tileAt s pos) k a = true →
     isGlobal a.va = false → regionOf s pos a.va.toNat a.size = .scratch q off → dieOf q = dieOf pos → inSpill (tileAt s q) off a.size = false → Mem.wf (tileAt s q).scratch = true →
     let old := memRead (tileAt s q).scratch off a.size
     let psn := unitsPoison (tileAt s q).scratchP off a.size
     let free := (Config.freeVec s.fresh).toNat
     (∀ c, a.kind.upd a.size free old psn ≠ .refuse c) →
     ∃ t, exec .accessPerform s = .next t ∧
       (slotAt t pos k).outs = (slotAt s pos k).outs.filter (fun b => b.id != a.id) ∧
       (slotAt t pos k).replies = (slotAt s pos k).replies ++ ((a.kind.reply a.size old psn).map (fun r => { r with id := a.id })).toList ∧
       t.dies = s.dies ∧
       ∀ p x,
         (tileAt t p).bank = (tileAt s p).bank ∧ (tileAt t p).imem = (tileAt s p).imem ∧ (tileAt t p).acc = (tileAt s p).acc ∧
         memGet (tileAt t p).scratch x =
           (match a.kind.upd a.size free old psn with
            | .put d m _ =>
              if p = q ∧ off ≤ x ∧ x < off + a.size ∧ m.testBit (x - off) = true then BitVec.ofNat 8 (d / 2 ^ (8 * (x - off))) else memGet (tileAt s p).scratch x
            | _ => memGet (tileAt s p).scratch x)) ∧
  ((∀ (s s1 : State) (w : Who) (pa n key : Nat) (kind : LKind) (x : LineBuf) (upd : Nat → Bool → Upd),
     let l := lineOf pa
     let d := dieOfLine l
     let old := sliceLine x.data (pa % 128) n
     let path := if d = w.die then [] else [d]
     homedHere s l = true → (kind = .atomic ∨ w.die = d) → heldFor s l w.ag = false →
     travel s w w.die path (homeMsg l) ((1, 1) :: beatUnits path 2) = (s1, true) → homeTurn s1 l w.ag = true → wayBack s1 w.die w.oc path = true →
     (dieAt s d).gated = false → fetchLine s1 l key (kind != .load) = .ok (s1, x) → ((metaOf s l).st = .I ∨ ((metaOf s l).st = .S ∧ kind = .load)) →
     s1.tiles = s.tiles ∧ s1.dies = s.dies ∧
     (upd old false = .keep → physAccess s w pa n key kind upd = .ok (settled s1 l w.ag) old false) ∧
     (∀ v m, upd old false = .put v m false → m % 2 ^ n ≠ 0 →
       ∃ t, physAccess s w pa n key kind upd = .ok t old false ∧ t.tiles = s.tiles ∧
         (tblGet? (dieAt t d).l2 l).map (·.data) = some (mergeLine x.data (pa % 128) n m v) ∧
         (∀ l', l' ≠ l → tblGet? (dieAt t d).l2 l' = tblGet? (dieAt s d).l2 l') ∧
         (∀ e, (dieAt t e).dram = (dieAt s e).dram ∧ (dieAt t e).sc = (dieAt s e).sc ∧ (dieAt t e).rdc = (dieAt s e).rdc ∧ (dieAt t e).wbuf = (dieAt s e).wbuf ∧
           (dieAt t e).line = (dieAt s e).line ∧ (e ≠ d → (dieAt t e).l2 = (dieAt s e).l2))) ∧
     (∀ v m, upd old false = .put v m true → m % 2 ^ n ≠ 0 →
       ∃ t, physAccess s w pa n key kind upd = .ok t old false ∧ t.tiles = s.tiles ∧ (metaOf t l).st = .poisoned ∧
         (tblGet? (dieAt t d).l2 l).map (·.data) = some (mergeLine x.data (pa % 128) n m v) ∧
         (∀ l', l' ≠ l → tblGet? (dieAt t d).l2 l' = tblGet? (dieAt s d).l2 l') ∧ (∀ e, (dieAt t e).dram = (dieAt s e).dram ∧ (dieAt t e).sc = (dieAt s e).sc))) ∧
   (∀ (v : BitVec 1024) (off n m data i : Nat), off + n ≤ 128 → i < 128 →
     (mergeLine v off n m data).toNat / 2 ^ (8 * i) % 256 =
       if off ≤ i ∧ i < off + n ∧ m.testBit (i - off) = true then data / 2 ^ (8 * (i - off)) % 256 else v.toNat / 2 ^ (8 * i) % 256))

/-- A reply is written to its register: an s register receives the word and the poison bit and is no longer pending, a v register receives the lanes that
were read and keeps the others, s0 discards, and a port receives the word, with 0 in the lanes that were not read, in the entry that was reserved for it: it enters
the port's buffer once no earlier entry is unfilled (08 R164 to R167; 12 R262, R263; 03 R59). -/
def Obligations.LoadReply : Prop :=
  ∀ (s : State) (pos k : Nat) (r : Reply) (rs : List Reply), s.arg = .two pos k → (slotAt s pos k).replies = r :: rs →
    let s0 := setSlot s pos k { slotAt s pos k with replies := rs }
    let d := r.rd.toNat
    (r.vector = false → d = 0 → exec .loadReply s = .next s0) ∧
    (d = 31 ∨ (r.vector = false ∧ d = 30) →
      let b := if r.vector = true then 2 else d - 30
      let w := switchAt s pos
      let x : TWord := { data := if r.vector = true then r.data &&& laneBits r.lanes else (r.data.setWidth 64).setWidth 512, poison := r.poison }
      (vget [] w.reserved b = [⟨k, .access r.id, none⟩] →
        exec .loadReply s = .next (setSwitch s0 pos (setBuf { w with reserved := vset w.reserved b [] } (12 + b) (bufOf w (12 + b) ++ [x])))) ∧
      (∀ e es, vget [] w.reserved b = e :: es → e.word = none → (e.slot ≠ k ∨ e.id ≠ .access r.id) →
        exec .loadReply s = .next (setSwitch s0 pos { w with reserved := vset w.reserved b (e :: fillFirst k (.access r.id) x es) }))) ∧
    (r.vector = false → 0 < d → d < 30 → ∃ t, exec .loadReply s = .next t ∧
      (slotAt t pos k).sreg d = r.data.setWidth 64 ∧ (slotAt t pos k).sPend.getLsbD d = false ∧ (slotAt t pos k).sP.getLsbD d = r.poison ∧
      (∀ e, e ≠ d → (slotAt t pos k).sreg e = (slotAt s pos k).sreg e ∧ (slotAt t pos k).sPend.getLsbD e = (slotAt s pos k).sPend.getLsbD e) ∧
      (slotAt t pos k).v = (slotAt s pos k).v ∧ (slotAt t pos k).pc = (slotAt s pos k).pc ∧ (slotAt t pos k).replies = rs ∧ t.switches = s.switches ∧ t.dies = s.dies) ∧
    (r.vector = true → d < 31 → ∃ t, exec .loadReply s = .next t ∧
      (∀ j, j < 16 → lane (vget 0 (slotAt t pos k).v d) j = if r.lanes.getLsbD j = true then lane r.data j else lane (vget 0 (slotAt s pos k).v d) j) ∧
      (slotAt t pos k).vPend.getLsbD d = false ∧
      (slotAt t pos k).vP.getLsbD d = (r.poison || (r.lanes != 0xFFFF && (slotAt s pos k).vP.getLsbD d)) ∧
      (∀ e, e ≠ d → vget 0 (slotAt t pos k).v e = vget 0 (slotAt s pos k).v e) ∧
      (slotAt t pos k).s = (slotAt s pos k).s ∧ (slotAt t pos k).pc = (slotAt s pos k).pc ∧ (slotAt t pos k).replies = rs ∧ t.switches = s.switches ∧ t.dies = s.dies)

/-! ### Messages, launches, collectives and operations -/

/-- MSEND appends its message, with the payload registers and their poison, to the outgoing queue of its tile while that holds fewer than 8; LAUNCH reads
the 384 bytes of its record, queues it or answers the number of the check that fails, and writes the status; VTBL installs the 1,024 bytes that it has
read where their table is valid (02 R43, R46; 12 R277, R282, R284; 10 R229). -/
def Obligations.MessagesLaunchesAndTables : Prop :=
  (∀ (g : BitVec 3) (d a : BitVec 5) (n : BitVec 3) (h : BitVec 1) (s : State) (dm : Nat) (r : Rect),
    let i : Instr := .msend g d a n h
    let o := operands i s
    let x := o.word 0
    let px := x.toNat % 128
    let py := x.toNat / 2 ^ 16 % 128
    ready i s = true → o.psn 0 = false → x.toNat / 2 ^ 38 = 0 → (myTile s).dom = some dm → domainRect s dm = some r → 0 < r.w → 0 < r.h →
    h = 1 ∨ (x.toNat / 2 ^ 24 % 16 = 0 ∧ isTilePos (128 * py + px) = true ∧ r.has px (gridY (128 * py + px)) = true) →
    let m : Msg :=
      { hnd := BitVec.ofNat 6 (x.toNat / 2 ^ 32), payload := (List.range n.toNat).map (fun k => (o.word (1 + k), o.psn (1 + k)))
        sender := tileId s.pkg s.cur.pos, wid := (me s).wid, widf := (me s).widf, budget := (me s).budget, dom := dm, hinted := decide (h = 1)
        tx := if h = 1 then max r.tx (min px (r.tx + r.w - 1)) else px
        ty := if h = 1 then max r.ty (min py (r.ty + r.h - 1)) else gridY (128 * py + px)
        rad := x.toNat / 2 ^ 24 % 16 }
    exec i s = .next (
      if (myTile s).msgOut.length < 8 then goesOn i (setMyTile s { myTile s with msgOut := (myTile s).msgOut ++ [m] }) else stalled s)) ∧
  (∀ (g : BitVec 3) (d a : BitVec 5) (c : BitVec 3) (s s1 : State) (l : List (Nat × Bool)) (p : Nat),
    let i : Instr := .launch g d a c
    let va := (operands i s).word 0
    ready i s = true → (operands i s).psn 0 = false → va.toNat % 64 = 0 → isGlobal va = true → va.toNat % 2 ^ 56 + 384 ≤ Config.localBase →
    inlineRead s va.toNat 6 c = .ok (s1, l) → l.all (fun u => !u.2) = true → partOf s1 s1.cur.pos = some p →
    let r := unitBytes l
    let q := (r.getD 1 0).toNat % 4
    let x := partAt s1 p
    let old := vget [] x.queues q
    exec i s = .next (goesOn i (
      match (recChecks r).findIdx? (fun b => !b) with
      | some k => setS s1 d (ofInt 64 (-2 - k)) false
      | none =>
        if old.length < 32 then
          setS (setPart s1 p { x with queues := vset x.queues q (old ++ [{ lrec := cellsFrom 0 r, saved := none, boot := false, held := none }]) }) d 0 false
        else setS s1 d (ofInt 64 (-1)) false))) ∧
  (∀ (g : BitVec 3) (t a : BitVec 5) (c : BitVec 3) (s s1 : State) (l : List (Nat × Bool)),
    let i : Instr := .vtbl g t a c
    let va := (operands i s).word 0
    ready i s = true → (operands i s).psn 0 = false → va.toNat % 64 = 0 →
    (if isGlobal va = true then va.toNat % 2 ^ 56 + 1024 ≤ Config.localBase else reachable s va 1024 = true) →
    (List.range 1024).all (fun k => !refusedBy s false (va.toNat % 2 ^ 56 + k)) = true → inlineRead s va.toNat 16 c = .ok (s1, l) → l.all (fun u => !u.2) = true →
    calm s1 = true → tableValid (cellsFrom 0 (unitBytes l)) = true →
    exec i s = .next (goesOn i (setMyTile s1
      { myTile s1 with dtab := vset (myTile s1).dtab (physTable s1 (t.toNat % 4)) { valid := true, data := cellsFrom 0 (unitBytes l) } })))

/-- COLL reads its descriptor, takes the member's next sequence number and begins the collective with its token pending; on a broken group the token
receives −5 at once; without room in the lock table it waits, and its descriptor stays read (12 R267, R278, R279, R281). COLL completes: where the slot is at
rest, with a descriptor in own scratch that is neither poisoned nor locked and passes its tests, exec answers that next state, whatever else the state holds. -/
def Obligations.CollectiveStarts : Prop :=
  ∀ (g : BitVec 3) (t a : BitVec 5) (s s1 : State) (x p rank : Nat) (d : CollDesc) (e : Group),
    let i : Instr := .coll g t a
    let va := (operands i s).word 0
    ready i s = true → (operands i s).psn 0 = false → va.toNat % 64 = 0 → isGlobal va || rangeKind s va 64 == .own → (me s).outs = [] →
    (myTile s).ops.all (fun o => o.slot != s.cur.slot || o.finished || (!o.kind.readsMem && !o.kind.writesMem)) = true →
    (inlineRead s va.toNat 1 0 = .ok (s1, [(x, false)]) ∨ (ownRead s va 64 = some x ∧ s1 = afterOwnRead s va x)) →
    collTests s1 s1.cur.pos va x = .ok (d, p, e, rank) →
    let seq := tblGet 0 e.seqs rank
    let kind : OpKind := .coll d va.toNat seq rank e.members.length
    (e.broken = true → ∃ v, exec i s = .next (goesOn i (nextFresh (writeToken s1 s1.cur.pos s1.cur.slot t.toNat (-5) (some (cCOLLLOST, v)))))) ∧
    (e.broken = false → lockRoom (myTile s1) kind = true →
      let s2 := startOp (takeSeq s1 p d.group rank) kind t (BitVec.ofNat 3 d.ctl) 5 none 0 true
      let m : CollMember :=
        { part := p, group := d.group, seq := seq, rank := rank, desc := d, agent := .op s1.cur.pos (myTile s1).nextOp, res := none }
      exec i s = .next (goesOn i { s2 with colls := s2.colls ++ [m] })) ∧
    (e.broken = false → lockRoom (myTile s1) kind = false → exec i s = .next (stalled s1))

/-- RMMA, RLDA, RADDS, RSTA, OBCP, COPY, GATHER, SCATTER and NXCH complete: for every state and operands that meet the conditions written out here (the operands
legal, room in the lock table, for a descriptor or an image header a slot at rest), exec answers the next state in which the operation has started: its entries
stand in the lock table, its token is pending, its beats have been added to its record; RMMA sets the bound of its accumulator and empties its stage; RLDA and
RADDS read the header of their image and set the bound; RSTA on a tile with a retired channel checks its elements first; NXCH reads its descriptor and
exchanges the directions whose row count is not 0, with one beat a unit written; an empty COPY, GATHER, SCATTER or NXCH writes 0 to its token at once (05
R105, R111; 07 R154, R156, R158; 11 R242 to R246, R254, R255; 12 R267 to R274). Where the lock table has no room they wait, and beats that have been added are
not added again (12 R267); a bad direction of NXCH raises ACCESS with its destination in the neighbour's window (12 R274). That an empty COPY raises neither
PORT_ILLEGAL nor ACCESS for its addresses, and that a direction of NXCH with row count 0 is not tested, are the model's readings (log entries 97 and 56). -/
def Obligations.OperationsStart : Prop :=
  ((∀ (i : Instr) (s : State) (f : OpForm), ready i s = true → (me s).busy = none → opForm i s (operands i s) = some f →
     (f.moves = true → lockRoom (myTile s) f.kind = true → f.record = none →
       exec i s = .next (goesOn i (startOp f.before f.kind f.tok f.cls f.scope none 0 f.started))) ∧
     (∀ va, f.moves = true → lockRoom (myTile s) f.kind = true → f.record = some va → atRest s = true → ownBeats s va f.beats = true →
       exec i s = .next (goesOn i (startOp (afterBeats s va f.beats) f.kind f.tok f.cls f.scope f.record f.beats f.started))) ∧
     (f.moves = false → exec i s = .next (goesOn i (setS s f.tok 0 false))) ∧
     (f.moves = true → lockRoom (myTile s) f.kind = false → f.record = none → exec i s = .next (stalled (f.waiting s)))) ∧
   (∀ (g : BitVec 3) (t a : BitVec 5) (c : BitVec 2) (s : State) (off h β : Nat) (i : Instr) (kind : OpKind),
     let tl := myTile s
     let x := accOf tl c.toNat
     (i = .rlda g t a c ∧ kind = .rlda c.toNat off ∧ β = h ∨
       i = .radds g t a c ∧ kind = .radds c.toNat off ∧ β = (if min x.beta.toNat h = 0 then max x.beta.toNat h else max x.beta.toNat h + 1)) →
     ready i s = true → (operands i s).psn 0 = false → ((operands i s).word 0).toNat % 64 = 0 → ownScratch s ((operands i s).word 0) imageSize = some off →
     (me s).outs = [] → tl.ops.all (fun p => p.finished || p.kind.ranges.all (fun r => !(r.dest && r.meets ⟨((operands i s).word 0).toNat % 2 ^ 56, 64, false⟩))) = true → lockRoom tl kind = true → inSpill tl off 64 = false →
     headerBound tl.rnsMode (memRead tl.scratch off 64) = some h → β ≤ rangeLimit tl.rnsMode →
     exec i s = .next (goesOn i (startOp (setMyTile s (setAcc tl c.toNat { x with beta := BitVec.ofNat 7 β })) kind t 0 0 none 0 true))) ∧
   (∀ (g : BitVec 3) (t a : BitVec 5) (c : BitVec 2) (s : State) (off : Nat) (l : List (Nat × Int × Option Nat)),
     let i : Instr := .rsta g t a c
     ready i s = true → (operands i s).psn 0 = false → ((operands i s).word 0).toNat % 64 = 0 → ownScratch s ((operands i s).word 0) imageSize = some off →
     checkRun (myTile s) (accOf (myTile s) c.toNat) 0 (elements (myTile s).rnsMode) = .ok l → lockRoom (myTile s) (.rsta c.toNat off) = true →
     exec i s = .next (goesOn i (startOp s (.rsta c.toNat off) t 0 0 none 0 true))) ∧
   (∀ (g : BitVec 3) (t a b : BitVec 5) (c sc : BitVec 3) (s : State) (x : Nat),
     let i : Instr := .nxch g t a b c sc
     let va := (operands i s).word 0
     let ds := ((List.range 4).map (nxEntry x)).filter (fun e => e.rows != 0)
     let s1 := afterOwnRead s va x
     ready i s = true → b = 0 → (operands i s).psn 0 = false → (operands i s).psn 1 = false → va.toNat % 64 = 0 → ownRead s va 64 = some x → ds.find? (nxBad s) = none →
     exec i s = .next (goesOn i (if ds = [] then setS s1 t 0 false else startOp s1 (.nxch ds) t c sc none 0 true)))) ∧
  (∀ (i : Instr) (s : State) (f : OpForm), ready i s = true → opForm i s (operands i s) = some f → f.moves = true →
     (∀ s1, (me s).busy = none → f.record ≠ none → beatsAdded f s1 →
       exec i s =
         if lockRoom (myTile s1) f.kind = true then .next (goesOn i (startOp s1 f.kind f.tok f.cls f.scope f.record f.beats f.started))
         else .next (stalled (f.waiting s1))) ∧
     (f.record ≠ none → (me s).busy.any (·.beats) = true →
       exec i s =
         if lockRoom (myTile s) f.kind = true then .next (goesOn i (startOp s f.kind f.tok f.cls f.scope f.record f.beats f.started))
         else .next (stalled (f.waiting s)))) ∧
  (∀ (g : BitVec 3) (t a b : BitVec 5) (c sc : BitVec 3) (s s1 s2 : State) (x v : Nat) (psn : Bool),
     let i : Instr := .nxch g t a b c sc
     let o := operands i s
     let va := o.word 0
     let r := if b = 0 then none else some (o.word 1)
     let ds := ((List.range 4).map (nxEntry x)).filter (fun e => e.rows != 0)
     let beats := (ds.map nxUnits).sum
     (me s).busy = none → ready i s = true → o.psn 0 = false → o.psn 1 = false → va.toNat % 64 = 0 → recordUsable s r = true → isGlobal va || rangeKind s va 64 == .own →
     inlineRead s va.toNat 1 c = .ok (s1, [(x, false)]) →
     (∀ e, ds.find? (nxBad s1) = some e → ahead s = false → ahead s1 = false → exec i s = .next (takeTrap s1 s1.cur.pos s1.cur.slot false 0x08 0
       (BitVec.ofNat 64 (0x20000000 + e.dir * 0x01000000 + e.dst)) s1.cur.pc.toNat)) ∧
     (ds = [] → exec i s = .next (goesOn i (setS s1 t 0 false))) ∧
     (ds ≠ [] → ds.find? (nxBad s1) = none →
       (r = none → lockRoom (myTile s1) (.nxch ds) = true → exec i s = .next (goesOn i (startOp s1 (.nxch ds) t c sc none 0 true))) ∧
       (∀ w, r = some w → beats ≠ 0 → inlineAccess s1 w.toNat 16 c false .atomic (barUpd (barAdd beats) false) = .ok s2 v psn →
         lockRoom (myTile s2) (.nxch ds) = true → exec i s = .next (goesOn i (startOp s2 (.nxch ds) t c sc r beats true)))))

/-- An operation that nothing holds back moves what remains and ends with the bytes it has moved, and any unit of it that has not been moved may be moved out of
turn (07 R140 gives no order; the row that does so, and an OBCP that moves whole in one step where nothing has been moved and nothing holds it back, are the model's
choice, log entry 106): an OBCP between own scratch and the operand bank, and an
NXCH row by row into its neighbours, with the poison of their units; a matrix operation reads a unit of its operands alone (07 R156, R157; 11 R255; 12 R269, R271 to
R274). Beats that have landed are subtracted
from the record of the operation; one that is withheld keeps its place in the replay queue, and a refused one raises its cause at the supervisor of the
record's partition, which is found as log entry 114 says (07 R158, R161; 12 R270; 20 R372; 22 R401). -/
def Obligations.OperationsMoveData : Prop :=
  (∀ (s : State) (pos id : Nat) (o : AsyncOp), s.arg = .two pos id → opOf s pos id = some o → o.finished = false → withheld o.held = false →
    (∀ dst src len, o.kind = .copy dst src len →
      exec .engineOperationComplete s = .next (closeMove pos len 0 (moveUnits (copyUnit pos dst src len) (unitsOf dst len - o.progress) s o))) ∧
    ((∀ dst base idx n z, o.kind = .gather dst base idx n z →
        exec .engineOperationComplete s = .next (closeMove pos (n * elemBytes z) (elemBytes z) (moveUnits (gatherUnit pos dst base idx z) (n - o.progress) s o))) ∧
      (∀ src base idx n z, o.kind = .scatter src base idx n z →
        exec .engineOperationComplete s = .next (closeMove pos (n * elemBytes z) (elemBytes z) (moveUnits (scatterUnit pos src base idx n z) (n - o.progress) s o))) ∧
      (∀ ds, o.kind = .nxch ds →
        exec .engineOperationComplete s = .next (closeMove pos ((ds.map (fun e => e.rows * e.rowLen)).foldl (· + ·) 0) 0 (moveNxch s pos ds o))) ∧
      (∀ sc bk len b, o.kind = .obcp sc bk len b →
        o.progress ≠ 0 ∨ o.moved ≠ [] ∨ o.kind.ranges.any (fun r => opWaits s pos o r.start r.len r.dest) = true →
        exec .engineOperationComplete s = .next (closeMove pos len 0 (moveUnits (obcpUnit pos sc bk b) (len / 64 - o.progress) s o))) ∧
      (∀ sc bk len, o.kind = .obcp sc bk len true → o.progress = 0 → o.moved = [] → o.kind.ranges.all (fun r => !opWaits s pos o r.start r.len r.dest) = true → 0 < len → sc % 64 = 0 → bk % 64 = 0 → len % 64 = 0 → inSpill (tileAt s pos) sc len = false →
        (tileAt s pos).scratch.wf = true → (tileAt s pos).bank.wf = true → (tileAt s pos).scratchP.wf = true → (tileAt s pos).bankP.wf = true →
        ∃ t, exec .engineOperationComplete s = .next (endOp t pos o len none) ∧ (tileAt t pos).bank = (tileAt s pos).bank ∧ t.dies = s.dies ∧
          (∀ k, memGet (tileAt t pos).scratch k = if sc ≤ k ∧ k < sc + len then memGet (tileAt s pos).bank (bk + (k - sc)) else memGet (tileAt s pos).scratch k) ∧
          (∀ k, memGet (tileAt t pos).scratchP k =
            if sc / 64 ≤ k ∧ k < sc / 64 + len / 64 then memGet (tileAt s pos).bankP (bk / 64 + (k - sc / 64)) else memGet (tileAt s pos).scratchP k)) ∧
      (∀ sc bk len, o.kind = .obcp sc bk len false → o.progress = 0 → o.moved = [] → o.kind.ranges.all (fun r => !opWaits s pos o r.start r.len r.dest) = true → 0 < len → sc % 64 = 0 → bk % 64 = 0 → len % 64 = 0 → inSpill (tileAt s pos) sc len = false →
        (tileAt s pos).scratch.wf = true → (tileAt s pos).bank.wf = true → (tileAt s pos).scratchP.wf = true → (tileAt s pos).bankP.wf = true →
        ∃ t, exec .engineOperationComplete s = .next (endOp t pos o len none) ∧ (tileAt t pos).scratch = (tileAt s pos).scratch ∧ t.dies = s.dies ∧
          (∀ k, memGet (tileAt t pos).bank k = if bk ≤ k ∧ k < bk + len then memGet (tileAt s pos).scratch (sc + (k - bk)) else memGet (tileAt s pos).bank k) ∧
          (∀ k, memGet (tileAt t pos).bankP k =
            if bk / 64 ≤ k ∧ k < bk / 64 + len / 64 then memGet (tileAt s pos).scratchP (sc / 64 + (k - bk / 64)) else memGet (tileAt s pos).bankP k)))) ∧
  (∀ (s : State) (pos id n : Nat) (o : AsyncOp), s.arg = .three pos id n → opOf s pos id = some o → o.finished = false → o.held = none →
    n < o.progress ∨ n ∈ o.moved ∨ o.got.isSome = true → exec .engineOperationComplete s = .next s) ∧
  (∀ (s : State) (pos id n : Nat) (o : AsyncOp) (dst src len : Nat), s.arg = .three pos id n → opOf s pos id = some o → o.finished = false → o.held = none →
    o.kind = .copy dst src len → n < unitsOf dst len → o.progress ≤ n → n ∉ o.moved → o.got = none →
    (∀ s1 o1, copyUnit pos dst src len s { o with progress := n } = .next s1 o1 →
      exec .engineOperationComplete s = .next (updOp s1 pos { o1 with progress := o.progress, moved := n :: o.moved, record := o.record })) ∧
    (∀ s1 o1, copyUnit pos dst src len s { o with progress := n } = .wait s1 o1 → exec .engineOperationComplete s = .next s) ∧
    (∀ s1 o1, copyUnit pos dst src len s { o with progress := n } = .fail s1 o1 →
      exec .engineOperationComplete s = .next (endOp s1 pos { o1 with progress := o.progress, record := o.record } (-1) none))) ∧
  (∀ (s s1 : State) (pos id n a v : Nat) (p : Bool) (o : AsyncOp), s.arg = .three pos id n → opOf s pos id = some o → o.finished = false → o.held = none →
    (o.kind.readUnits (tileAt s pos).rnsMode)[n]? = some a → o.started = true → o.read.any (fun r => r.1 == n) = false → opWaits s pos o a 64 false = false →
    engineRead s (opWho s pos o) a 64 = .ok s1 v p → exec .engineOperationComplete s = .next (updOp s1 pos { o with read := (n, v, p) :: o.read })) ∧
  (∀ (s : State) (pos q : Nat) (e : NxDir) (o : AsyncOp), (slotAt s pos o.slot).outs = [] → e.dir < 4 → neighbour pos e.dir = some q → q ≠ pos → sameDomain s pos q = true → dieOf q = dieOf pos →
    (tileAt s q).scratch.wf = true → (tileAt s pos).ops.all (fun p => p.finished || decide (o.id ≤ p.id)) = true → o.progress = 0 → o.moved = [] → o.got = none → o.held = none →
    (∀ r, r < e.rows → e.src + r * e.sstr + e.rowLen ≤ Config.spillOff ∧ e.dst + r * e.dstr + e.rowLen ≤ Config.spillOff) → (e.rowLen ≤ e.dstr ∨ e.rows = 1) →
    ∃ (t : State) (o' : AsyncOp), moveNxch s pos [e] o = .next t o' ∧ o'.landed = o.owed ∧ o'.record = o.record ∧ o'.discarded = o.discarded ∧
    (∀ r c, r < e.rows → c < e.rowLen → memGet (tileAt t q).scratch (e.dst + r * e.dstr + c) = memGet (tileAt s pos).scratch (e.src + r * e.sstr + c)) ∧
    (∀ k, (∀ r, r < e.rows → k < e.dst + r * e.dstr ∨ e.dst + r * e.dstr + e.rowLen ≤ k) → memGet (tileAt t q).scratch k = memGet (tileAt s q).scratch k) ∧
    (∀ p, p ≠ q → tileAt t p = tileAt s p) ∧ t.dies = s.dies) ∧
  (∀ (s : State) (pos id : Nat) (o : AsyncOp) (va : Word), s.arg = .two pos id → opOf s pos id = some o → o.record = some va → withheld o.held = false →
    let n := if o.finished then o.owed else o.landed
    let w := opWho s pos o
    let r := { w with part := recordPart s w va.toNat }
    let answer := engineMem s w va.toNat 16 .atomic (barUpd (barSub n) false)
    (n = 0 → exec .beatSubtraction s = .next s) ∧
    (n ≠ 0 →
      (∀ s1 v p, answer = .ok s1 v p → exec .beatSubtraction s = .next (settleBeats (leaveReplay s1 w.quay w.ag) pos o n)) ∧
      (∀ s1, answer = .wait s1 → exec .beatSubtraction s = .next s1) ∧
      (∀ s1 m, answer = .held s1 m →
        let x := withhold s1 w va.toNat m true o.held
        exec .beatSubtraction s = .next (updOp x.1 pos { o with held := some x.2 })) ∧
      (∀ s1, answer = .bad s1 .barrier → exec .beatSubtraction s = .next (raiseFor (settleBeats s1 pos o n) r 0x15 va)) ∧
      (∀ s1, answer = .bad s1 .poison → exec .beatSubtraction s = .next (raiseFor (settleBeats s1 pos o n) r 0x09 va)) ∧
      (∀ s1 why, answer = .bad s1 why → why ≠ .barrier → why ≠ .poison →
        exec .beatSubtraction s = .next (settleBeats (engineLoss s1 w va.toNat why) pos o n))))

/-- The end of an operation: its token register holds the status and is no longer pending, its lock-table entries are free, and it leaves the tile unless
it still owes beats; a negative status raises its cause at the first read of the token. Nothing else of the slot, and no byte of any memory, changes
(07 R154, R156; 12 R267, R271). An RMMA that runs adds, digit by digit and channel by channel, the products of A, from its stage or from scratch, and
B, from the operand bank, to every element of its accumulator, and ends with the bytes it has read; the next one then starts; the images of RLDA,
RADDS and RSTA are moved whole, header and digits (11 R237, R238, R244 to R246, R254, R257). Where one waits it does nothing, and units that it has read alone
before are used as they were read (07 R140, R157; log entry 106). -/
def Obligations.OperationEnd : Prop :=
  (∀ (s : State) (pos : Nat) (o : AsyncOp) (v : Int) (c : Option (Nat × Word)), o.slot < 4 → 0 < o.tok.toNat → o.tok.toNat < 30 →
     let t := endOp s pos o v c
     let x := slotAt s pos o.slot
     let y := slotAt t pos o.slot
     y.sreg o.tok.toNat = ofInt 64 v ∧ y.sPend.getLsbD o.tok.toNat = false ∧ y.sP.getLsbD o.tok.toNat = false ∧
     (∀ r, r ≠ o.tok.toNat → y.sreg r = x.sreg r ∧ y.sPend.getLsbD r = x.sPend.getLsbD r ∧ y.sP.getLsbD r = x.sP.getLsbD r) ∧
     y.v = x.v ∧ y.p = x.p ∧ y.m = x.m ∧ y.g = x.g ∧ y.pc = x.pc ∧ y.flags = x.flags ∧ y.sstatus = x.sstatus ∧ y.outs = x.outs ∧
     y.tokErr = forgetToken o.tok.toNat x.tokErr ++ (match c with | some (k, tv) => [{ reg := o.tok, cause := k, tval := tv }] | none => []) ∧
     (∀ k, k ≠ o.slot → slotAt t pos k = slotAt s pos k) ∧
     (tileAt t pos).lock = (tileAt s pos).lock.filter (fun e => e.op != o.id) ∧
     (o.owed = 0 → (tileAt t pos).ops = (tileAt s pos).ops.filter (fun p => p.id != o.id)) ∧
     (∀ p, p ≠ pos → tileAt t p = tileAt s p) ∧ t.dies = s.dies ∧
     (tileAt t pos).scratch = (tileAt s pos).scratch ∧ (tileAt t pos).scratchP = (tileAt s pos).scratchP ∧ (tileAt t pos).bank = (tileAt s pos).bank ∧
     (tileAt t pos).acc = (tileAt s pos).acc ∧ (tileAt t pos).stage = (tileAt s pos).stage) ∧
  ((∀ (s : State) (pos : Nat) (o : AsyncOp) (acc : Nat) (stage : Option (Nat × Bool)) (aAddr bOff : Nat) (w au bu : Bool),
     let tl := tileAt s pos
     let mode := tl.rnsMode
     let x := accOf tl acc
     let a := match stage with | some g => (vget AStage.reset tl.stage g.1).data | none => tl.scratch
     let at_ := match stage with | some _ => 0 | none => aAddr
     let psn := match stage with | some g => g.2 | none => unitsPoison tl.scratchP aAddr 1536
     let bytes := if w then 2 else 1
     let depth := if w then 48 else 96
     let cols := columns mode
     let product := fun e => ((List.range depth).map (fun k =>
       intAt a at_ bytes au (e / cols * depth + k) * intAt tl.bank bOff bytes bu (k * cols + e % cols))).foldl (· + ·) 0
     s.arg = .one pos → (rmmas tl).find? (·.started) = some o → o.kind = .rmma acc stage aAddr bOff w au bu → acc < 4 → (w = true → mode = 0) →
     matrixWaits s pos o = false → o.read = [] → (stage = none → inSpill tl aAddr 1536 = false) → armedKind tl ≠ 1 →
     x.cells.wf = true → a.wf = true → tl.bank.wf = true →
     ∃ (u : State) (c : Mem), exec .rmmaComplete s = .next (endOp u pos o (1536 + bSize mode) none) ∧ c.wf = true ∧
       u = setTile s pos (setAcc tl acc { cells := c, beta := x.beta, poison := x.poison || psn || unitsPoison tl.bankP bOff (bSize mode) }) ∧
       ∀ e, e < elements mode → ∀ ch ∈ setChannels mode (elemCell mode e).2,
         let k := 10 * (elemCell mode e).1 + ch
         ((memGet c k).toNat : Int) = ((memGet x.cells k).toNat + product e) % (Config.modulus ch : Int)) ∧
   (∀ (s : State) (pos : Nat) (o : AsyncOp) (os : List AsyncOp), s.arg = .one pos → rmmas (tileAt s pos) = o :: os → (rmmas (tileAt s pos)).all (fun p => !p.started) = true →
     exec .rmmaStart s = .next (updOp s pos { o with started := true })) ∧
   (∀ (s : State) (pos id acc off : Nat) (o : AsyncOp), s.arg = .two pos id → opOf s pos id = some o → matrixWaits s pos o = false → o.read = [] → o.moved = [] →
     let tl := tileAt s pos
     let x := accOf tl acc
     let psn := unitsPoison tl.scratchP off 7744
     inSpill tl off 7744 = false → tl.scratch.wf = true → x.cells.wf = true → acc < 4 →
     (o.kind = .rlda acc off → ∃ c : Mem, c.wf = true ∧ (∀ k, memGet c k = if k < 7680 then memGet tl.scratch (off + 64 + k) else 0) ∧
       exec .accumulatorImageComplete s = .next (endOp (setTile s pos (setAcc tl acc { cells := c, beta := x.beta, poison := psn })) pos o 7744 none)) ∧
     (o.kind = .radds acc off → ∃ c : Mem, c.wf = true ∧
       (∀ k, k < 7680 → (memGet c k).toNat = ((memGet x.cells k).toNat + (memGet tl.scratch (off + 64 + k)).toNat) % Config.modulus (k % 10)) ∧
       exec .accumulatorImageComplete s = .next (endOp (setTile s pos (setAcc tl acc { cells := c, beta := x.beta, poison := x.poison || psn })) pos o 7744 none)) ∧
     (o.kind = .rsta acc off → tl.reta = 15 → tl.retb = 15 → ∃ t, exec .accumulatorImageComplete s = .next (endOp t pos o 7744 none) ∧
       memRead (tileAt t pos).scratch off 64 = x.beta.toNat + 256 * tl.rnsMode.toNat + 65536 * 768 ∧
       (∀ k, k < 7680 → memGet (tileAt t pos).scratch (off + 64 + k) = memGet x.cells k) ∧
       (∀ k, k < off ∨ off + 7744 ≤ k → memGet (tileAt t pos).scratch k = memGet tl.scratch k) ∧
       (tileAt t pos).acc = tl.acc ∧ t.dies = s.dies)) ∧
   (∀ (s : State) (pos id : Nat) (o : AsyncOp), matrixWaits s pos o = true →
     (s.arg = .two pos id → opOf s pos id = some o → exec .accumulatorImageComplete s = .next s) ∧
     (s.arg = .one pos → (rmmas (tileAt s pos)).find? (·.started) = some o → exec .rmmaComplete s = .next s)) ∧
   (∀ (o : AsyncOp) (k i v off : Nat) (p : Bool) (bs : List Byte) (poison : Mem), 64 * (i + 1) ≤ bs.length → bs.length % 64 = 0 →
     o.read.find? (fun r => r.1 == k + i) = some (k + i, v, p) → ((asRead o k bs poison off).1.drop (64 * i)).take 64 = bytesLE 64 v))

/-- What the barrier operations and the ALL-GATHER, BROADCAST, ALL-TO-ALL and integer sums of a collective compute (07 R158, R160, Tables 7-7 and 7-14; 04
R95; 12 R278, Table 12-11). A collective goes on at its members: it waits until every member of the package has entered and may be read, ends with
COLL_MISMATCH where their signatures differ and else with its result, once what the members send has crossed (log entry 95), which each member writes before its
token; the loss of a member ends every collective of its group with −5 and breaks the group, and one that is still pending is not formed: its command ends with
status 4, the model's reading (log entry 77; 12 R280, R281; 22 R413). -/
def Obligations.CollectivesComputeAndEnd : Prop :=
  ((∀ b : Bar, b.gen < 2 ^ 32 → b.exp < 2 ^ 32 → b.arr < 2 ^ 32 → b.beats < 2 ^ 32 → Bar.ofNat b.toNat = b ∧ b.toNat < 2 ^ 128) ∧
   (∀ (old n : Nat) (b : Bar), Bar.ofNat old = b →
     let phase := fun (c : Bar) => if c.arr = c.exp ∧ c.beats = 0 then { c with arr := 0, gen := (c.gen + 1) % 2 ^ 32 } else c
     let put := fun (c : Bar) => Upd.put (phase c).toNat (2 ^ 16 - 1) false
     barUpd barArrive false old false = (if b.arr < b.exp then put { b with arr := b.arr + 1 } else .refuse 0x15) ∧
     barUpd (barAdd n) false old false = (if b.beats + n < 2 ^ 32 then put { b with beats := b.beats + n } else .refuse 0x15) ∧
     barUpd (barSub n) false old false = (if n ≤ b.beats then put { b with beats := b.beats - n } else .refuse 0x15) ∧
     barUpd (barInit n) false old false = put { b with exp := n, arr := 0, beats := 0 }) ∧
   (∀ (d : CollDesc) (parent : Nat → Nat) (tiles : List (Option Tile)) (fresh : Nat) (ins : List (List (Byte × Bool))) (n : Nat), ins.length = n →
     (d.op = 3 → ∃ out, endOfColl d parent tiles fresh ins n = (.result out, []) ∧ ∀ r, out r = ins.flatten) ∧
     (d.op = 4 → ∃ out, endOfColl d parent tiles fresh ins n = (.result out, []) ∧ ∀ r, out r = ins.getD d.root []) ∧
     (d.op = 5 → (∀ x ∈ ins, x.length = n * d.block) → ∃ out, endOfColl d parent tiles fresh ins n = (.result out, []) ∧
       ∀ r j, r < n → j < n → ((out r).drop (j * d.block)).take d.block = ((ins.getD j []).drop (r * d.block)).take d.block)) ∧
   (∀ (d : CollDesc) (own parent : Nat → Nat) (n : Nat), 0 < n → (∀ r, 0 < r → r < n → parent r < r) → d.red = 0 →
     (d.ty = 2 → (∀ r, r < n → own r < 2 ^ 32) → reduceElem d own parent n = ((List.range n).map own).foldl (· + ·) 0 % 2 ^ 32) ∧
     (d.ty = 3 → (∀ r, r < n → own r < 2 ^ 64) → reduceElem d own parent n = ((List.range n).map own).foldl (· + ·) 0 % 2 ^ 64))) ∧
  ((∀ (s : State) (pos id : Nat) (m : CollMember), s.arg = .two pos id → s.colls.find? (fun m => m.agent == .op pos id) = some m →
     (∀ r s1 r1 o, m.res = some r → m.agent.ready s = true → writeOut m.agent m.desc.out (r.bytes.length + 1) s r = .ok s1 r1 → m.agent = .op pos id →
       opOf s1 pos id = some o → exec .collComplete s = .next (endOp (dropMember s1 m) pos o r1.status r1.cause)) ∧
     (∀ g, m.res = none → tblGet? (partAt s m.part).grps m.group = some g →
       let n := g.members.length
       let here := (g.members.filter (fun x => x.pkg == s.pkg.toNat)).length
       let ms := byRank (collOf s m) n
       (ms.length < here → exec .collComplete s = .next s) ∧
       (here ≤ ms.length → ms.all (fun x => x.agent.ready s) = true →
         (signaturesDiffer ms = true → exec .collComplete s = .next (endWith s m n (-3) (fun _ => some (0x11, 0)) false)) ∧
         (∀ s1 s0 ins out cs, signaturesDiffer ms = false → (m.desc.op = 4 → m.desc.root < n) → here = n → gatherColl m.desc n ms (List.range n) s [] = .ok s1 ins →
           (m.desc.ty = 4 → ∀ x ∈ ms, (tileAt s (x.agent.tile s)).synq.length < 8) →
           crossColl s1 g m.desc ms = (s0, true) →
           let s2 := forgetAll s0 ms
           sharedDone s2 m.part g = false →
           endOfColl m.desc (fun r => ((g.members[r]?).map (·.parent)).getD 0)
             ((List.range n).map (fun r => (ms.find? (fun x => x.rank == r)).map (collTile s2))) (s2.fresh + 1) ins n = (.result out, cs) →
           exec .collComplete s = .next (setResults { noteCorrections s2 ms cs with fresh := s2.fresh + 1 + n * (m.desc.inLen 0 n / 7744) } m (fun x =>
             { status := x.desc.outLen n, cause := none, moved := 0, bytes := out x.rank })))))) ∧
   (∀ (s : State) (p g rank : Nat) (e : Group), s.arg = .three p g rank → tblGet? (partAt s p).grps g = some e → rank < e.members.length →
     (e.formed = false → e.broken = false → exec .memberLoss s = .next
       { setPart s p { partAt s p with grps := tblErase (partAt s p).grps g } with mgmt := { s.mgmt with mstatSeq := e.cmdSeq, mstat := 4 } }) ∧
     (e.formed = true ∨ e.broken = true → ∃ t, exec .memberLoss s = .next t ∧ (tblGet? (partAt t p).grps g).map (·.broken) = some true ∧ t.tiles = s.tiles ∧ t.dies = s.dies ∧
       (∀ m ∈ t.colls, m.part = p → m.group = g → m.res ≠ none) ∧
       (∀ m ∈ s.colls, m.part = p → m.group = g → m.res = none →
         ∃ m' ∈ t.colls, m'.agent = m.agent ∧ (m'.res.map (fun r => (r.status, r.cause.map (·.1)))) = some (-5, some 0x12)) ∧
       (∀ m ∈ s.colls, (m.part ≠ p ∨ m.group ≠ g) → m ∈ t.colls))))

/-! ### Residue arithmetic -/

/-- RFWD writes the digits of its values and raises the bound to cover them; RZERO clears an accumulator; RMOV copies one; RBGET reads a bound; RADD and
RSUB work digit by digit and bound their result; a bound above the range limit raises RNS_OVERFLOW and changes nothing; RSTG appends 64 bytes to a
stage (05 R97, R105, R106; 11 R247, R249, R252, R253, R257). -/
def Obligations.ResidueInstructions : Prop :=
  ∀ (g : BitVec 3) (s : State),
    let tl := myTile s
    let mode := tl.rnsMode
    (∀ (d a b : BitVec 5) (w : BitVec 2) (u inc : BitVec 1),
      let i : Instr := .rfwd g d a b w u inc
      let o := operands i s
      let bits := 8 * 2 ^ w.toNat
      let n := 512 / bits
      let e0 := (o.word 1).toNat
      let x := accOf tl d.toNat
      let β := ((List.range n).map (fun q => magExp (rfwdValue (o.vec 0) bits (u == 1) q))).foldl max x.beta.toNat
      i.wf = true → ready i s = true → o.psn 1 = false → x.cells.wf = true → e0 + n ≤ elements mode →
      (β ≤ rangeLimit mode → ∃ c : Mem, c.wf = true ∧
        (∀ q, q < n → holdsValue mode c (e0 + q) (rfwdValue (o.vec 0) bits (u == 1) q)) ∧
        (∀ k, (∀ q, q < n → digitOf mode (e0 + q) k = false) → memGet c k = memGet x.cells k) ∧
        exec i s = .next (goesOn i (stepped
          (setMyTile s (setAcc tl d.toNat { cells := c, beta := BitVec.ofNat 7 β, poison := x.poison || o.psn 0 })) inc b (o.word 1) n))) ∧
      (rangeLimit mode < β → ahead s = false → traps i s 0x0A (BitVec.ofNat 64 β))) ∧
    (∀ a : BitVec 5, ready (.rzero g a) s = true →
      exec (.rzero g a) s = .next (goesOn (.rzero g a) (setMyTile s (setAcc tl a.toNat { cells := [], beta := 0, poison := false })))) ∧
    (∀ d a : BitVec 5, ready (.rmov g d a) s = true →
      exec (.rmov g d a) s = .next (goesOn (.rmov g d a) (setMyTile s (setAcc tl d.toNat (accOf tl a.toNat))))) ∧
    (∀ d a : BitVec 5, ready (.rbget g d a) s = true →
      exec (.rbget g d a) s = .next (goesOn (.rbget g d a) (setS s d ((accOf tl a.toNat).beta.setWidth 64) (accOf tl a.toNat).poison))) ∧
    (∀ (d a b : BitVec 5) (sub : Bool),
      let i : Instr := if sub then .rsub g d a b else .radd g d a b
      let x := accOf tl a.toNat
      let y := accOf tl b.toNat
      let β := if min x.beta.toNat y.beta.toNat = 0 then max x.beta.toNat y.beta.toNat else max x.beta.toNat y.beta.toNat + 1
      ready i s = true → x.cells.wf = true → y.cells.wf = true →
      (β ≤ rangeLimit mode → ∃ c : Mem, c.wf = true ∧ (∀ k, 7680 ≤ k → memGet c k = 0) ∧
        (∀ k, k < 7680 → (((memGet c k).toNat : Nat) : Int) =
          (if sub then ((memGet x.cells k).toNat : Int) - (memGet y.cells k).toNat else ((memGet x.cells k).toNat : Int) + (memGet y.cells k).toNat) %
            (Config.modulus (k % 10) : Int)) ∧
        exec i s = .next (goesOn i (setMyTile s (setAcc tl d.toNat
          { cells := c, beta := BitVec.ofNat 7 β, poison := (accOf tl d.toNat).poison || x.poison || y.poison })))) ∧
      (rangeLimit mode < β → ahead s = false → traps i s 0x0A (BitVec.ofNat 64 β))) ∧
    (∀ (a : BitVec 5) (n : BitVec 1),
      let i : Instr := .rstg g a n
      let o := operands i s
      let x := vget AStage.reset tl.stage n.toNat
      ready i s = true → x.data.wf = true → tl.ops.all (fun p => p.kind.stageOf != some n.toNat) = true → x.fp < 24 → ∃ c : Mem, c.wf = true ∧
        (∀ k, memGet c k = if 64 * x.fp ≤ k ∧ k < 64 * x.fp + 64 then BitVec.ofNat 8 (elem (o.vec 0) 8 (k - 64 * x.fp)) else memGet x.data k) ∧
        exec i s = .next (goesOn i (setMyTile s { tl with stage := vset tl.stage n.toNat { data := c, fp := x.fp + 1, poison := x.poison || o.psn 0 } })))

/-- An element converted forward decodes to the value it was made from, whatever the mode and the set, as long as it lies within the range limit and no
channel is retired (05 R99 to R101). -/
def Obligations.ResidueRoundTrip : Prop :=
  ∀ (t : Tile) (set : Nat) (x : Int), set < 2 → (t.rnsMode = 0 → set = 0) → t.reta = 15 → t.retb = 15 →
    -(2 ^ rangeLimit t.rnsMode : Int) ≤ x → x < 2 ^ rangeLimit t.rnsMode →
    mixedRadix t set ((List.range 10).map (fun c => (x % (Config.modulus c : Int)).toNat)) = .ok x

/-- RREV delivers the values of eight checked elements, RCHK the number corrected, RBND lowers a bound that every value meets and leaves
alone one that is lower already; a correction rewrites its
digit, sets FLAGS.RC and queues one event; an element that no exclusion makes legitimate raises RNS_UNCORRECTABLE in wide mode and RNS_CHANNEL in paired
mode, and nothing changes (05 R101, R102, Table 5-4; 11 R248 to R250). OBLD reads 64 bytes of the operand bank with their poison and OBST writes 64,
in slot 0 of a chart, where the offset is a multiple of 64 within the bank, no locked range refuses it and nothing earlier of the slot is behind; an
offset that is not raises MISALIGN, and one past the end ACCESS (11 R241, R255). -/
def Obligations.ResidueChecksAndOperandBank : Prop :=
  (∀ (g : BitVec 3) (s : State),
     let tl := myTile s
     (∀ (d a b : BitVec 5) (inc : BitVec 1) (l : List (Nat × Int × Option Nat)),
       let i : Instr := .rrev g d a b inc
       let o := operands i s
       let e0 := (o.word 1).toNat
       ready i s = true → o.psn 1 = false → e0 + 8 ≤ elements tl.rnsMode → checkRun tl (accOf tl a.toNat) e0 8 = .ok l → mayCorrect s l = true →
       ∃ v : Vec, (∀ q, q < 8 → ∃ r, l[q]? = some r ∧ elem v 64 q = (ofInt 64 r.2.1).toNat) ∧
         exec i s = .next (goesOn i (stepped (setV (corrected s a.toNat l) d v (accOf tl a.toNat).poison) inc b (o.word 1) 8))) ∧
     (∀ (d a : BitVec 5) (l : List (Nat × Int × Option Nat)), ready (.rchk g d a) s = true →
       checkRun tl (accOf tl a.toNat) 0 (elements tl.rnsMode) = .ok l → mayCorrect s l = true →
       exec (.rchk g d a) s = .next (goesOn (.rchk g d a)
         (setS (corrected s a.toNat l) d (BitVec.ofNat 64 (l.countP (fun r => r.2.2.isSome))) (accOf tl a.toNat).poison))) ∧
     (∀ (a b : BitVec 5) (l : List (Nat × Int × Option Nat)),
       let i : Instr := .rbnd g a b
       let o := operands i s
       let e := (o.word 0).toNat
       let s1 := corrected s a.toNat l
       ready i s = true → o.psn 0 = false → e ≤ (accOf tl a.toNat).beta.toNat → checkRun tl (accOf tl a.toNat) 0 (elements tl.rnsMode) = .ok l →
       (l.all (fun r => decide (r.2.1.natAbs < 2 ^ e)) = true → mayCorrect s l = true →
         exec i s = .next (goesOn i (setMyTile s1 (setAcc (myTile s1) a.toNat { accOf (myTile s1) a.toNat with beta := BitVec.ofNat 7 e })))) ∧
       (l.all (fun r => decide (r.2.1.natAbs < 2 ^ e)) = false → ahead s = false → traps i s 0x0A (o.word 0))) ∧
     (∀ a b : BitVec 5, ready (.rbnd g a b) s = true → (operands (.rbnd g a b) s).psn 0 = false →
       (accOf tl a.toNat).beta.toNat < ((operands (.rbnd g a b) s).word 0).toNat → exec (.rbnd g a b) s = .next (goesOn (.rbnd g a b) s)) ∧
     (∀ (d a : BitVec 5) (e n : Nat), ready (.rchk g d a) s = true → ahead s = false →
       checkRun tl (accOf tl a.toNat) 0 (elements tl.rnsMode) = .error (e, n) → e < 2 ^ 16 →
       traps (.rchk g d a) s (if tl.rnsMode = 0 then 0x0C else 0x0B)
         (BitVec.ofNat 64 (e + (if tl.rnsMode = 0 then n else e % 96 / 48) * 2 ^ 16)))) ∧
  (∀ (g : BitVec 3) (d a : BitVec 5) (store : Bool) (s : State),
     let i : Instr := if store then .obst g d a else .obld g d a
     let o := operands i s
     let x := (o.word 0).toNat
     let tl := myTile s
     let base := Config.localBase + Config.bankOff + x
     ready i s = true → o.psn 0 = false →
     (x % 64 ≠ 0 → ahead s = false → traps i s 0x04 (o.word 0)) ∧
     (x % 64 = 0 → 2 ^ 20 < x + 64 → ahead s = false → traps i s 0x08 (o.word 0)) ∧
     (x % 64 = 0 → x + 64 ≤ 2 ^ 20 → (List.range 64).all (fun k => !refusedBy s store (base + k)) = true → (me s).outs = [] → tl.ops = [] → tl.bank.wf = true →
       tl.bankP.wf = true →
       (store = false → ∃ v : Vec, (∀ k, k < 64 → elem v 8 k = (memGet tl.bank (x + k)).toNat) ∧
         exec i s = .next (goesOn i (setV s d v (memGet tl.bankP (x / 64) != 0)))) ∧
       (store = true → ∃ b p : Mem, b.wf = true ∧ p.wf = true ∧
         (∀ k, memGet b k = if x ≤ k ∧ k < x + 64 then BitVec.ofNat 8 (elem (o.vec 1) 8 (k - x)) else memGet tl.bank k) ∧
         (∀ k, memGet p k = if k = x / 64 then (if o.psn 1 then 1 else 0) else memGet tl.bankP k) ∧
         exec i s = .next (goesOn i (setMyTile s { tl with bank := b, bankP := p })))))

/-! ### The supervisor view -/

/-- WFI suspends the event slot behind it until an event is pending and lets any other slot go on. TLBINV, once the slot's accesses have been performed,
takes every entry that matches from every quay's TLB and leaves no other changed; the reserved page size raises RSVD_FIELD (18 R328, R330, R337; 20 R374).
BINIT, BWB and PWB act on blocks on which no transaction runs and whose messages may set out: PWB and BWB write back, BINIT leaves a block zero (18 R334 to
R336); while saved charts hold operand banks that belong into the blocks, BINIT and PWB wait for their copies (19 R357). The model's readings: that a TLBINV that
names an ASID takes global entries too (log entry 16), that BWB and PWB send the dirty copies of blocks of other packages home (110), that the messages of such
an instruction cross in one instant and are charged two beats each (95), and that a full seal cache makes room first (121). -/
def Obligations.SupervisorInstructions : Prop :=
  ∀ (g : BitVec 3) (s : State),
    (ready (.wfi g) s = true →
      exec (.wfi g) s = .next (
        if (me s).sstatus.getLsbD 4 = true ∧ eventPending s s.cur.pos = false then ended (setMe s { me s with phase := .wfi, pc := (me s).pc + 1 })
        else goesOn (.wfi g) s)) ∧
    (∀ (a b : BitVec 5) (i : Instr), i = .tlbinvPage g a b 3 ∨ i = .tlbinvVa g a 3 → ready i s = true → (operands i s).any (·.poison) = false → ahead s = false →
      traps i s 0x02 (curWord s)) ∧
    (∀ (i : Instr) (page : Option (Nat × Nat)) (asid : Option (BitVec 9)),
      let o := operands i s
      let lg := fun (z : BitVec 2) => if z = 0 then 16 else if z = 1 then 26 else 36
      (i = .tlbinvAll g ∧ page = none ∧ asid = none ∨
        (∃ b, i = .tlbinvAsid g b ∧ page = none ∧ asid = some ((o.word 0).setWidth 9)) ∨
        (∃ a b z, z ≠ 3 ∧ i = .tlbinvPage g a b z ∧ page = some ((o.word 0).toNat % 2 ^ 56, lg z) ∧ asid = some ((o.word 1).setWidth 9)) ∨
        (∃ a z, z ≠ 3 ∧ i = .tlbinvVa g a z ∧ page = some ((o.word 0).toNat % 2 ^ 56, lg z) ∧ asid = none)) →
      ready i s = true → o.any (·.poison) = false →
      let gone := fun (e : TlbEnt) =>
        (match page with
         | some p => e.lg == p.2 && e.vbase / 2 ^ p.2 == p.1 / 2 ^ p.2
         | none => true) &&
        (match asid with
         | some x => e.leaf.getLsbD 5 || e.asid == x
         | none => true)
      let t := invalidateTlbs s { page := page, asid := asid }
      ((me s).outs = [] → exec i s = .next (goesOn i t)) ∧
      (s.vfs.all (fun v => v.2.heldWrites.isEmpty) = true → (∀ q, (quayAt t q).tlb = (quayAt s q).tlb.filter (fun e => !gone e)) ∧ t.dies = s.dies ∧
        ∀ pos k, (slotAt t pos k).s = (slotAt s pos k).s ∧ (slotAt t pos k).pc = (slotAt s pos k).pc ∧ (tileAt t pos).scratch = (tileAt s pos).scratch) ∧
      ((me s).outs ≠ [] → exec i s = .next (stalled s))) ∧
    (∀ (a : BitVec 5) (i : Instr) (s0 : State) (pa key : Nat), i = .binit g a ∨ i = .bwb g a → ready i s = true →
      let va := (operands i s).word 0
      (operands i s).psn 0 = false → va.toNat % 2048 = 0 → va.toNat % 2 ^ 56 < Config.localBase → (me s).outs = [] →
      translate s (slotWho s s.cur.pos s.cur.slot) { r := false, w := true } (va.toNat % 2 ^ 56) = .leaf s0 pa key →
      let s1 := asks s0 s0.cur.pos s0.cur.slot false
      let b := blockOf pa
      let w := fun (x : State) => slotWho x x.cur.pos x.cur.slot
      (i = .bwb g a → homedHere s1 (16 * b) = false → ∀ t turn, bulkTurn s1 (w s1) (blockMsg b) (shareMessages s1 (w s1) (fun k => k == b)) = (t, turn) →
        exec i s = .next (if turn then goesOn i (shareFar t (fun k => k == b)) else stalled t)) ∧
      (homedHere s1 (16 * b) = true → blockQuiet s1 b = false → (entOf s1 b).any (·.frozen) = false → exec i s = .next (stalled s1)) ∧
      (homedHere s1 (16 * b) = true → blockQuiet s1 b = true →
      (i = .binit g a → (entOf s1 b).any (·.frozen) = false →
        (bankBlocked s1 b = true → exec i s = .next (stalled (bankWaits s1 b))) ∧
        (bankBlocked s1 b = false → heldBanks s1 (fun _ => true) = [] →
          ∀ s2 room, (if (entOf s1 b).isSome then (s1, true) else sealRoom s1 b) = (s2, room) →
          (room = false → exec i s = .next (stalled s2)) ∧
          (room = true → ∀ s3 turn, bulkTurn s2 (w s2) (blockMsg b) (initMessages s2 (w s2) b) = (s3, turn) →
            (turn = false → exec i s = .next (stalled s3)) ∧
            (turn = true → ∃ t, exec i s = .next (goesOn i t) ∧
              ∃ e, entOf t b = some e ∧ e.valid = 0xFFFF ∧ e.key = BitVec.ofNat 7 key ∧ (∀ k : Fin 16, e.lines[k] = 0) ∧
              ∀ k, k < 16 → metaOf t (16 * b + k) = { st := .I, xd := false, hint := 0, opkg := 0, odie := 0 })))) ∧
      (i = .bwb g a → ∀ t turn, bulkTurn s1 (w s1) (blockMsg b) (recallMessages s1 (w s1) (blockLines b)) = (t, turn) →
        (turn = false → exec i s = .next (stalled t)) ∧
        (turn = true → exec i s = .next (if blockClean (writeBackBlock t b) b then goesOn i (writeBackBlock t b) else stalled (writeBackBlock t b)))))) ∧
    (∀ p, ready (.pwb g) s = true → (me s).outs = [] → partOf s s.cur.pos = some p → heldBanks s (fun _ => true) = [] →
      let bs := heldBlocks s (ownsKey s p)
      let far := fun (b : Nat) => !homedHere s (16 * b)
      let w := slotWho s s.cur.pos s.cur.slot
      (bs.all (blockQuiet s) = false → exec (.pwb g) s = .next (stalled s)) ∧
      (bs.all (blockQuiet s) = true → ∀ t turn, bulkTurn s w (blockMsg 0) (shareMessages s w far ++ recallMessages s w (bs.flatMap blockLines)) = (t, turn) →
        (turn = false → exec (.pwb g) s = .next (stalled t)) ∧
        (turn = true → let t1 := bs.foldl writeBackBlock (shareFar t far)
          exec (.pwb g) s = .next (if bs.all (blockClean t1) then goesOn (.pwb g) t1 else stalled t1))))

/-- SSAVE writes the 40 units of the slot to its save area, one store after another, and leaves no pass active, unless one of the stores would be refused as
memory stands: then it raises that cause and nothing is stored; SREST of an area whose words are as R333 asks restores
the slot from it; and what an SSAVE wrote, read back, restores every register, flag and special register of the slot but those R333 leaves alone (18 R331 to R333). -/
def Obligations.SaveAndRestore : Prop :=
  (∀ (g : BitVec 3) (s s1 : State), ready (.ssave g) s = true → (me s).sscratch.toNat % 64 = 0 → saveReach s (me s).sscratch = true → slotSettled s = true →
    (List.range 2560).all (fun k => !refusedBy s true ((me s).sscratch.toNat % 2 ^ 56 + k)) = true →
    let us := saveUnits (me s) (csrRead s 0x806) (csrRead s 0x80F) (chartSlot s)
    let answer := inlineStores 0 us (me s).sscratch.toNat 40 s
    (∀ c, storesRefused 0 us (me s).sscratch.toNat s = some c → ahead s = false → traps (.ssave g) s c.cause c.tval) ∧
    (storesRefused 0 us (me s).sscratch.toNat s = none →
    (answer = .inr s1 → exec (.ssave g) s = .next (goesOn (.ssave g) (setMe s1 { me s1 with rep := { (me s1).rep with active := false } }))) ∧
    (answer = .inl (.wait s1) → exec (.ssave g) s = .next (stalled s1)))) ∧
  (∀ (g : BitVec 3) (s s1 : State) (l : List (Nat × Bool)), ready (.srest g) s = true → (me s).sscratch.toNat % 64 = 0 → saveReach s (me s).sscratch = true →
    (me s).outs = [] → nonePending (me s) = true → (List.range 2560).all (fun k => !refusedBy s false ((me s).sscratch.toNat % 2 ^ 56 + k)) = true →
    inlineRead s (me s).sscratch.toNat 40 0 = .ok (s1, l) → (l.take 3).all (fun u => !u.2) = true → areaOk (l.map (·.1)) = true →
    exec (.srest g) s = .next (goesOn (.srest g) (setMe s1 (restoreSlot (me s1) l (chartSlot s1))))) ∧
  (∀ (s : State) (t : Slot) (chart : Bool) (u : Slot), s.cur.slot < 4 → me s = t → chartSlot s = chart → t.flags.toNat < 64 → t.nfc &&& ~~~0xFFB7 = 0 →
    bitsOf t.nfc 2 0 ≤ 4 → t.widf.toNat < 2 ^ 36 → t.sstatus.toNat < 32 → t.sepc.toNat < 2 ^ 13 → t.uepc.toNat < 2 ^ 13 → t.utvec.toNat < 2 ^ 14 →
    t.scause &&& ~~~0x800000000007FFFF = 0 → t.ucause &&& ~~~0x800000000007FFFF = 0 → t.asid.toNat < 512 → t.ptbase &&& ~~~0xFFFFFFFFFE000 = 0 →
    t.rep.resume.toNat < 2 ^ 13 → (∀ k, k < 8 → vget 0 t.g k &&& ~~~0xFFFFFFFFF = 0) →
    let us := (saveUnits t (csrRead s 0x806) (csrRead s 0x80F) chart).map (fun x => (x, false))
    let r := restoreSlot u us chart
    us.length = 40 ∧ areaOk (us.map (·.1)) = true ∧ (∀ k, 0 < k → k < 30 → vget 0 r.s k = vget 0 t.s k ∧ r.sP.getLsbD k = t.sP.getLsbD k) ∧
      (∀ k, k < 31 ∨ (k = 31 ∧ chart = false) → vget 0 r.v k = vget 0 t.v k ∧ r.vP.getLsbD k = t.vP.getLsbD k) ∧ r.g = t.g ∧ r.gP = t.gP ∧
      (∀ k, 0 < k → k < 8 → r.p.getLsbD k = t.p.getLsbD k ∧ r.pP.getLsbD k = t.pP.getLsbD k ∧ r.maskOf k = t.maskOf k ∧ r.maskPoison k = t.maskPoison k) ∧
      r.nfc = t.nfc ∧ r.flags = t.flags ∧ r.seed = t.seed ∧ r.wid = t.wid ∧ r.widf = t.widf ∧ r.unchk = t.unchk ∧ r.utvec = t.utvec ∧ r.uepc = t.uepc ∧
      r.ucause = t.ucause ∧ r.utval = t.utval ∧ r.sepc = t.sepc ∧ r.scause = t.scause ∧ r.stval = t.stval ∧ r.asid = t.asid ∧ r.ptbase = t.ptbase ∧
      (∀ k, k = 1 ∨ k = 2 ∨ k = 3 → r.sstatus.getLsbD k = t.sstatus.getLsbD k) ∧ r.sstatus.getLsbD 0 = u.sstatus.getLsbD 0 ∧
      r.sstatus.getLsbD 4 = u.sstatus.getLsbD 4 ∧ r.rep.count = t.rep.count ∧ r.rep.pass = t.rep.pass ∧ r.rep.idx = t.rep.idx ∧ r.rep.base = t.rep.base ∧
      r.rep.active = t.rep.active ∧ r.rep.resume = t.rep.resume)

/-- An armed injection of KIND 2 or 4 fires at the next comparison of a scalar or a vector instruction: the instruction has its effect, a SHADOW event is
queued and the injection is disarmed; one of KIND 3, or a repetition that disagrees anyway, raises SHADOW_MISMATCH with the word and no register is written
(09 R192; 10 R219; 18 R325; 21 Table 21-2). -/
def Obligations.ShadowInjection : Prop :=
  ∀ (i : Instr) (s : State), ready i s = true → (myTile s).synq.length < 8 → (myTile s).faultinj.getLsbD 63 = true →
    let kind := bitsOf (myTile s).faultinj 62 60
    let fired := fun (vector bad : Bool) => pushSyn (setMyTile s { myTile s with faultinj := bitSet (myTile s).faultinj 63 false })
      { kind := 2, slot := s.cur.slot, part := partOf s s.cur.pos, cycle := s.cycle, addr := BitVec.ofNat 64 s.cur.pc.toNat
        lo := BitVec.ofNat 64 ((curWord s).toNat % 2 ^ 32 + (if vector then 2 ^ 32 else 0) + (if bad then 2 ^ 33 else 0)) }
    (∀ d y, i.wf = true → scalarResult i s (operands i s) = some (d, y, true) →
      (kind = 2 → exec i s = .next (goesOn i (setS (fired false false) d (ofInt 64 y) ((operands i s).any (·.poison))))) ∧
      (kind = 3 → ahead s = false → exec i s = .next (takeTrap (fired false true) s.cur.pos s.cur.slot false 0x1C 0 (curWord s) s.cur.pc.toNat))) ∧
    (∀ (d : BitVec 5) (m : BitVec 3) (y : Nat → Int) (c : Nat → Bool), kind = 4 → (∀ k, laneResult i (operands i s) k = some (d, m, y k, c k)) →
      (lanesOf s m).any c = true →
      let differs := (lanesOf s m).any (fun k => c k && shadowFails i (operands i s) k)
      (differs = true → ahead s = false → exec i s = .next (takeTrap (fired true true) s.cur.pos s.cur.slot false 0x1C 0 (curWord s) s.cur.pc.toNat)) ∧
      (differs = false → ∃ x, isMasked s d m (fun k => ofInt 32 (y k)) x ∧
        exec i s = .next (goesOn i (setV (addUnchk (fired true false) ((lanesOf s m).countP (fun k => !c k))) d x (vecPoison s (operands i s) d m)))))

/-! ### Switches, charts and tasks -/

/-- A transfer is whole or not at all: it is made when every input of its setting holds a word and every target has room; then each input read loses its
head, where the word dequeues, and each target receives the words routed to it, behind those it holds (03 R58, R60). -/
def Obligations.SwitchTransfers : Prop :=
  (∀ (s : State) (pos : Nat) (rs : List Route) (deq : Bool),
    (rs.all (fun r => !(bufOf (switchAt s pos) r.inp).isEmpty && outputRoom s pos r.out) = false → transfer s pos rs deq = none) ∧
    (rs.all (fun r => !(bufOf (switchAt s pos) r.inp).isEmpty && outputRoom s pos r.out) = true → (∀ r ∈ rs, r.inp < 18 ∧ 16 ≤ r.out ∧ r.out < 31) →
      ∃ t, transfer s pos rs deq = some t ∧ t.tiles = s.tiles ∧ t.dies = s.dies ∧ ∀ q b, b < 18 →
        bufOf (switchAt t q) b =
          (bufOf (switchAt s q) b).drop (if deq = true ∧ q = pos ∧ rs.any (fun r => r.inp == b) = true then 1 else 0) ++
            (rs.filter (fun r => outputBuf pos r.out == some (q, b))).map
              (fun r => routed1 pos r ((bufOf (switchAt s pos) r.inp).headD { data := 0, poison := false })))) ∧
  (∀ (s : State) (e : Nat), s.arg = .one e →
    exec .switchTransfer s = .next ((transfer s s.cur.pos (routesOf ((switchAt s s.cur.pos).entry e)) true).getD s))

/-- The switch words: the routing words make one transfer an execution until none is owed, and stay where it is not ready; counters are set, loaded and
tested; the words that read a control word wait for it and dequeue it; WAIT dequeues nothing; IEND counts the iteration and begins the next one below
COUNT (03 R60, R65; 13 R290 to R293). What stops a switch: a word that the decoder rejects, the taken target of a branch outside route memory, a program counter
that passes its last word, an input that does not exist or carries no control words, a poisoned control word; it executes nothing from then on (13 R292,
R294). That the target of an untaken branch does not count, and which of two causes comes first at the last word, is the model's choice (log entry 70). -/
def Obligations.SwitchWords : Prop :=
  (∀ (s : State), switchReady s = true →
     let pos := s.cur.pos
     let w := switchAt s pos
     let pc := w.pc.toNat
     let ctr := fun (c : BitVec 2) => vget 0 w.c c.toNat
     let set := fun (s1 : State) (c : BitVec 2) (v : BitVec 16) => setSwitch s1 pos { switchAt s1 pos with c := vset (switchAt s1 pos).c c.toNat v }
     let took := fun (k : Nat) => setSwitch s pos { w with bufs := vset w.bufs k ((vget [] w.bufs k).drop 1), moved := true }
     let word := fun (k : Nat) => (vget [] w.bufs k).head?
     (∀ (i : Instr) (e n : Nat) (h : Bool), routingForm i w = some (e, n, h) → pc < 8191 →
       let rem := if w.rem = 0 then n else w.rem.toNat
       (rem = 0 → exec i s = .next (switchOn s (pc + 1))) ∧
       (rem ≠ 0 → transfer s pos (routesOf (w.entry e)) (!h || rem == 1) = none → exec i s = .next s) ∧
       (∀ t, rem ≠ 0 → transfer s pos (routesOf (w.entry e)) (!h || rem == 1) = some t →
         let t1 := setSwitch t pos { switchAt t pos with rem := BitVec.ofNat 16 (rem - 1) }
         exec i s = .next (if rem = 1 then setSwitch t1 pos { switchAt t1 pos with pc := BitVec.ofNat 14 (pc + 1) } else t1))) ∧
     (∀ (c : BitVec 2) (v : BitVec 10), pc < 8191 → exec (.setc c v) s = .next (switchOn (set s c (v.setWidth 16)) (pc + 1))) ∧
     (∀ (c : BitVec 2) (v : BitVec 6), pc < 8191 →
       exec (.setch c v) s = .next (switchOn (set s c (BitVec.ofNat 16 (v.toNat * 1024 + (ctr c).toNat % 1024))) (pc + 1))) ∧
     (∀ (c : BitVec 2) (k : BitVec 5), inputExists pos k.toNat = true → controlInput pos k.toNat = true →
       (word k.toNat = none → pc < 8191 → exec (.ldc c k) s = .next s) ∧
       (∀ x, word k.toNat = some x → x.poison = false → pc < 8191 →
         exec (.ldc c k) s = .next (switchOn (set (took k.toNat) c (x.data.setWidth 16)) (pc + 1)))) ∧
     (∀ (i : Instr) (k : BitVec 5) (o : BitVec 7) (zero : Bool) (x : TWord) (target : Nat), i = (if zero then .bcz k o else .bcnz k o) →
       inputExists pos k.toNat = true → controlInput pos k.toNat = true → word k.toNat = some x → x.poison = false → target < 8192 →
       (target : Int) = (if decide (x.data.setWidth 64 = (0 : Word)) = zero then pc + o.toInt else pc + 1) → exec i s = .next (switchOn (took k.toNat) target)) ∧
     (∀ (c : BitVec 2) (o : BitVec 10) (target : Nat), target < 8192 → (target : Int) = (if ctr c = 1 then (pc + 1 : Int) else pc + o.toInt) →
       exec (.dbnz c o) s = .next (switchOn (set s c (ctr c - 1)) target)) ∧
     (∀ (c : BitVec 2) (o : BitVec 10) (target : Nat), target < 8192 → (target : Int) = (if ctr c = 0 then (pc + o.toInt : Int) else pc + 1) →
       exec (.bzc c o) s = .next (switchOn s target)) ∧
     (∀ (o : BitVec 12) (target : Nat), target < 8192 → (target : Int) = pc + o.toInt → exec (.jmp o) s = .next (switchOn s target)) ∧
     (∀ k : BitVec 5, inputExists pos k.toNat = true → pc < 8191 →
       exec (.wait k) s = .next (if (word k.toNat).isSome = true then switchOn s (pc + 1) else s)) ∧
     (∀ (k : BitVec 5) (n : BitVec 7), inputExists pos k.toNat = true → pc < 8191 →
       let rem := if w.rem = 0 then n.toNat + 1 else w.rem.toNat
       exec (.drop k n) s = .next (
         if (word k.toNat).isSome = true then
           let t := setSwitch (took k.toNat) pos { switchAt (took k.toNat) pos with rem := BitVec.ofNat 16 (rem - 1) }
           if rem = 1 then switchOn t (pc + 1) else t
         else s)) ∧
     (w.tab = 1 → exec .iend s = .next (setSwitch s pos { w with phase := .boundary })) ∧
     (∀ b, w.tab = 0 → berthOfPos s pos = some b → w.iter.toNat + 1 < 2 ^ 32 →
       exec .iend s = .next (setSwitch s pos (
         if w.iter.toNat + 1 < b.count then
           { w with
             iter := w.iter + 1, pc := BitVec.ofNat 14 w.rentry.toNat
             phase := if (match b.saveT with | some n => decide (n ≤ w.iter.toNat + 1) | none => false) = true then .boundary else .running }
         else { w with iter := w.iter + 1, phase := .boundary })))) ∧
  ((∀ (i : Instr) (s : State), i.isSwitch = true → switchReady s = false → exec i s = .next s) ∧
   (∀ (s : State) (x : Nat) (e : DecodeError), s.arg = .one x → decodeSwitch x = .error e → switchReady s = true →
     exec .undefinedSwitchWord s = .next (switchStops s (if e = .undefOp then 0x01 else 0x02))) ∧
   (∀ (s : State) (o : BitVec 12), switchReady s = true → ((switchAt s s.cur.pos).pc.toNat + o.toInt < 0 ∨ 8192 ≤ (switchAt s s.cur.pos).pc.toNat + o.toInt) →
     exec (.jmp o) s = .next (switchStops s 0x08)) ∧
   (∀ (i : Instr) (s : State), switchReady s = true →
     let w := switchAt s s.cur.pos
     let pc := w.pc.toNat
     let ctr := fun (c : BitVec 2) => vget 0 w.c c.toNat
     let outside := fun (x : Int) => x < 0 ∨ 8192 ≤ x
     ((∃ c o, i = .dbnz c o ∧ outside (if ctr c = 1 then (pc + 1 : Int) else pc + o.toInt)) ∨
      (∃ c o, i = .bzc c o ∧ outside (if ctr c = 0 then (pc + o.toInt : Int) else pc + 1)) ∨
      (∃ k o zero x, i = (if zero then .bcz k o else .bcnz k o) ∧ inputExists s.cur.pos k.toNat = true ∧ controlInput s.cur.pos k.toNat = true ∧
        (bufOf w k.toNat).head? = some x ∧ x.poison = false ∧
        outside (if decide (x.data.setWidth 64 = (0 : Word)) = zero then (pc + o.toInt : Int) else pc + 1)) ∨
      (8191 ≤ pc ∧
        ((∃ e n, i = .route e n) ∨ (∃ e n, i = .hold e n) ∨ (∃ e c, i = .routec e c) ∨ (∃ c v, i = .setc c v) ∨ (∃ c v, i = .setch c v) ∨
          (∃ c k, i = .ldc c k ∧ inputExists s.cur.pos k.toNat = true ∧ controlInput s.cur.pos k.toNat = true) ∨
          (∃ k, (i = .wait k ∨ ∃ n, i = .drop k n) ∧ inputExists s.cur.pos k.toNat = true)))) →
     exec i s = .next (switchStops s 0x08)) ∧
   (∀ (k : BitVec 5) (o : BitVec 7) (s : State), switchReady s = true → inputExists s.cur.pos k.toNat = true → controlInput s.cur.pos k.toNat = true →
     (bufOf (switchAt s s.cur.pos) k.toNat).head? = none → exec (.bcz k o) s = .next s ∧ exec (.bcnz k o) s = .next s) ∧
   (∀ (i : Instr) (s : State) (k : BitVec 5), switchReady s = true → ((∃ c, i = .ldc c k) ∨ (∃ o, i = .bcz k o) ∨ (∃ o, i = .bcnz k o)) →
     ((inputExists s.cur.pos k.toNat && controlInput s.cur.pos k.toNat) = false → exec i s = .next (switchStops s 0x02)) ∧
     (∀ x, (inputExists s.cur.pos k.toNat && controlInput s.cur.pos k.toNat) = true → (bufOf (switchAt s s.cur.pos) k.toNat).head? = some x → x.poison = true →
       (switchAt s s.cur.pos).pc.toNat < 8191 → exec i s = .next (switchStops s 0x09))) ∧
   (∀ (i : Instr) (s : State) (k : BitVec 5), switchReady s = true → (i = .wait k ∨ ∃ n, i = .drop k n) → inputExists s.cur.pos k.toNat = false →
     exec i s = .next (switchStops s 0x02)))

/-- STEP_SELECT, STEP_INSTALL, STEP_COLLECTIVE, STEP_END and STEP_COMPLETE complete: for every state in which the berth is at an entry of their kind that 02 R33 and
R36 accept, whose bytes it reads (its image, its descriptor), exec answers the next state: SELECT and INSTALL begin a step at every tile, switch and generator
of the berth, INSTALL with its image in the configuration it names, once the operand banks that saved charts hold on its tiles have been copied; a COLLECTIVE
step sets the identifiers to the bases where WRST says so, has every switch take its shadow configuration, enters its collective, with its ranges in the lock
table of the origin tile, goes on with it in each cycle that the budget pays for, and ends with it, but for a negative status or a faulted switch; an END arrives on DONE and frees the berth; a step is complete under the conditions of R35. An entry that is not as 02 R36 asks ends the chart with
ACCESS and the entry's address (02 R29, R33, R35 to R37, R41; 03 R66, R69; 12 R281; 13 R286, R294; 19 R350, R357). -/
def Obligations.ChartSteps : Prop :=
  ∀ (s : State) (id : Nat) (b : Berth), s.arg = .one id → berthOf s id = some b →
    (∀ (s0 : State) (bs : List Byte) (e : StepEnt), b.seq = .fetch → b.held = none → b.saveT = none → b.evict = false →
      seqBytes s (berthWho s b) (memRead b.lrec 0x010 8 + 32 * b.stepIdx) 32 = .ok s0 bs → stepEnt bs = some e →
      let s1 := updBerth s0 b
      let malformed := raiseEvent (freeBerth s1 b) b.part 0x08 (BitVec.ofNat 64 (memRead b.lrec 0x010 8 + 32 * b.stepIdx))
      (e.kind = 2 → e.count ≠ 0 → vget false b.installed e.conf = true → exec .stepSelect s = .next (beginStep s1 b e)) ∧
      (e.kind = 2 → e.count = 0 ∨ vget false b.installed e.conf = false → exec .stepSelect s = .next malformed) ∧
      (∀ s2 xs, e.kind = 1 → e.count ≠ 0 → e.addr % 64 = 0 → readImage s1 b (berthWho s1 b) e.addr = .ok s2 xs →
        (heldBank s2 b.rect.tiles = none →
          exec .stepInstall s = .next (beginStep (installImage (tearTasks s2 b xs) b e.conf xs)
            { b with imgs := vset b.imgs e.conf (BitVec.ofNat 64 e.addr), installed := vset b.installed e.conf true } e)) ∧
        (∀ h, heldBank s2 b.rect.tiles = some h → exec .stepInstall s = .next (copyBank s2 b h))) ∧
      (e.kind = 1 → e.count = 0 ∨ e.addr % 64 ≠ 0 → exec .stepInstall s = .next malformed) ∧
      (∀ s2 ds d p g rank, e.kind = 3 → e.addr % 64 = 0 → descBytes s1 b e.addr = .ok s2 ds →
        collTests s2 (gridPos b.tx b.ty) (BitVec.ofNat 64 e.addr) (ofBytesLE ds) = .ok (d, p, g, rank) →
        let kind : OpKind := .coll d e.addr (tblGet 0 g.seqs rank) rank g.members.length
        let s0 := forget s2 (.berth b.id)
        let s3 := updBerth (mapSwitches (if e.wrst then resetWids s0 b else s0) b enterShadow) { b with seq := .collective, desc := e.addr }
        let s4 := startBerthOp (takeSeq s3 p d.group rank) b d kind
        (g.broken = false → lockRoom (tileAt s2 (gridPos b.tx b.ty)) kind = true →
          exec .stepCollective s = .next { s4 with
            colls := s4.colls ++
              [{ part := p, group := d.group, seq := tblGet 0 g.seqs rank, rank := rank, desc := d, agent := .berth b.id, res := none }] }) ∧
        (g.broken = false → lockRoom (tileAt s2 (gridPos b.tx b.ty)) kind = false → exec .stepCollective s = .next (updBerth s2 b)) ∧
        (g.broken = true → exec .stepCollective s = .next (collStepDone (BitVec.ofNat 64 e.addr) s3 b.id (-5) none))) ∧
      (e.kind = 15 → memRead b.lrec 0x0D0 8 = 0 → exec .stepEnd s = .next (freeBerth s1 b)) ∧
      (∀ s2, e.kind = 15 → arriveDone s1 (berthWho s1 b) b.part (doneOf b.lrec) = .ok s2 () → exec .stepEnd s = .next (freeBerth s2 b)) ∧
      (∀ s2, e.kind = 15 → arriveDone s1 (berthWho s1 b) b.part (doneOf b.lrec) = .wait s2 → exec .stepEnd s = .next s2)) ∧
    (∀ m, b.seq = .collective → s.colls.find? (fun m => m.agent == .berth id) = some m →
      (∀ s1, charge s (some b.part) 4 b.budget.toNat 1 = some s1 → exec .stepCollective s = .next (runColl s1 m (collStepDone (BitVec.ofNat 64 b.desc)))) ∧
      (charge s (some b.part) 4 b.budget.toNat 1 = none → exec .stepCollective s = .next s)) ∧
    (∀ w : Switch, (enterShadow w).pc = w.shEntry.setWidth 14 ∧ (enterShadow w).tab = 1 ∧ (enterShadow w).spc = w.pc ∧ (enterShadow w).sc = w.c ∧
      (∀ k, k < 4 → vget 0 (enterShadow w).c k = 0) ∧ (leaveShadow (enterShadow w)).pc = w.pc ∧ (leaveShadow (enterShadow w)).c = w.c ∧
      (leaveShadow (enterShadow w)).tab = 0) ∧
    (∀ p, p ∈ b.rect.tiles → (slotAt (resetWids s b) p 0).wid = recBases b.lrec ∧ (slotAt (resetWids s b) p 0).pc = (slotAt s p 0).pc) ∧
    (∀ (desc : Word) (v : Int) (c : Option (Nat × Word)),
      let stuck := updBerth s { b with seq := .stuck }
      let faulted := b.rect.positions.any (fun p => (switchAt s p).flt)
      (v < 0 → collStepDone desc s b.id v c = raiseEvent stuck b.part (stepCause v c) desc) ∧
      (0 ≤ v → faulted = true → collStepDone desc s b.id v c = stuck) ∧
      (0 ≤ v → faulted = false →
        collStepDone desc s b.id v c = updBerth (mapSwitches s b leaveShadow) { b with seq := .fetch, stepIdx := b.stepIdx + 1, held := none })) ∧
    (b.seq = .step → b.saveT = none → b.evict = false → stepDone s b = true →
      exec .stepComplete s = .next (updBerth s { b with seq := .fetch, stepIdx := b.stepIdx + 1, still := 0 })) ∧
    berthOf (freeBerth s b) b.id = none ∧
    (∀ (e : StepEnt) (p : Nat), p ∈ b.rect.tiles →
      let t := beginStep s b e
      let c := vget Conf.reset (switchAt s p).confs e.conf
      (slotAt t p 0).pc = c.centry.setWidth 14 ∧ (slotAt t p 0).phase = .running ∧ (tileAt t p).coit = 0 ∧ (tileAt t p).centry = c.centry ∧
        (e.wrst = false → (slotAt t p 0).wid = (slotAt s p 0).wid) ∧ (slotAt t p 0).s = (slotAt s p 0).s ∧ (tileAt t p).acc = (tileAt s p).acc) ∧
    (∀ (e : StepEnt) (p : Nat), p ∈ b.rect.positions →
      let w := switchAt (beginStep s b e) p
      let c := vget Conf.reset (switchAt s p).confs e.conf
      w.pc = c.rentry.setWidth 14 ∧ w.rtab = c.rtab ∧ w.iter = 0 ∧ w.rem = 0 ∧ w.tab = 0 ∧ w.phase = .running ∧ w.bufs = (switchAt s p).bufs ∧
        ∀ k, k < 4 → vget 0 w.c k = 0)

/-- A generator reads the words of its stream in order and pushes them in order into its buffer, charged to the quay-cycle budget; the address of a word
follows its four counters; the quiescence detector raises QUIESCENT once an interval, with the address of the snapshot that it has written or with 0 (02 R53 to
R55; 03 R67, R70; 19 Table 19-2). That the reads of a stream are performed in its order is the model's choice: 03 R69 lets them be performed in any (log entry 100). -/
def Obligations.GeneratorsAndQuiescence : Prop :=
  (∀ (d : GenDesc) (i0 i1 i2 i3 : Nat), i0 < d.c0 → i1 < d.c1 → i2 < d.c2 → i3 < d.c3 →
    (d.addr (i0 + d.c0 * (i1 + d.c1 * (i2 + d.c2 * i3))) : Int) = ((d.base : Int) + 64 * i0 + d.s1 * i1 + d.s2 * i2 + d.s3 * i3) % 2 ^ 56) ∧
  (∀ (s s1 : State) (pos i v : Nat) (b : Berth) (p : Bool), s.arg = .two pos i → berthOfPos s pos = some b →
    let g := vget Gen.reset (quayAt s pos).gens i
    g.ended = false → g.blocked = false → g.held = none → g.issued < g.desc.total → g.issued < g.pushed + 16 →
    genRead s b pos i g (g.desc.addr g.issued) = .ok s1 v p →
    exec .generatorReadIssue s = .next (setGen s1 pos i
      { g with issued := g.issued + 1, arrived := g.arrived ++ [(g.issued, { data := BitVec.ofNat 512 v, poison := p })] })) ∧
  (∀ (s s1 : State) (pos i : Nat) (b : Berth) (x : TWord), s.arg = .two pos i → berthOfPos s pos = some b →
    let g := vget Gen.reset (quayAt s pos).gens i
    g.blocked = false → g.arrived.find? (fun e => e.1 == g.pushed) = some (g.pushed, x) → (bufOf (switchAt s pos) (14 - i)).length < 4 →
    charge s (some b.part) 1 b.budget.toNat 1 = some s1 →
    exec .generatorPush s = .next (pushBuf (setGen s1 pos i
      { g with pushed := g.pushed + 1, arrived := g.arrived.erase (g.pushed, x), ended := decide (g.desc.total ≤ g.pushed + 1) }) pos (14 - i) x)) ∧
  (∀ (s : State) (id : Nat) (b : Berth), s.arg = .one id → berthOf s id = some b → b.held = none → b.seq = .step →
    (partAt s b.part).qtime.toNat ≤ b.still →
    (b.told = true → exec .quiescent s = .next s) ∧
    (b.told = false →
      let a := sblkRead s b.part 0x000 8
      let w := schedWho a.1 b.part (gridPos b.tx b.ty) b.budget.toNat true (.berth b.id)
      let done := { b with told := true, snap := [] }
      (a.2 = 0 → exec .quiescent s = .next (raiseEvent (updBerth w.1 done) b.part 0x14 0)) ∧
      (∀ s1, a.2 ≠ 0 → a.2 % 64 = 0 → isGlobal (BitVec.ofNat 64 a.2) = true → b.snap ≠ [] → writeUnits w.2 b.snap w.1 a.2 = .ok s1 () →
        exec .quiescent s = .next (raiseEvent (updBerth (forget s1 (.berth b.id)) done) b.part 0x14 (BitVec.ofNat 64 a.2)))))

/-- The message that has arrived first is taken once its tile holds none back: it starts at the lowest IDLE slot while no task waits, else it joins the run queue
while that has room and nothing is spilled, else it is spilled, and where 256 are spilled it is held with MSEND_OVERFLOW; an invalid handler discards
it with ACCESS. A queued task starts in turn; a freed queue entry takes the oldest spilled message; a hinted message walks one tile at a time toward
its hint, in x first, behind what has reached a tile before it, and stops at the first tile within its radius that accepts it (02 R42, R45, R46, R48, R49). A task begins with its message: the
payload in s1 to s4 with its poison, the sender in s5, the stack pointer in s29, every other register 0, WID and WIDF of the message, the header's NFC
and SEED, FLAGS and UNCHK 0, the user view, at the word its handler names (02 R42, R50; 19 R347). -/
def Obligations.TaskMessagesAndStart : Prop :=
  ((∀ (s : State) (pos i : Nat) (n : NetMsg), s.arg = .one pos → (tileAt s pos).heldMsg = none →
     s.net.findIdx? (fun n => (n.arrived || n.msg.hinted) && n.pos == pos) = some i → s.net[i]? = some n → n.arrived = true →
     exec .taskMessageTake s = .next (takeMsg { s with net := s.net.eraseIdx i } pos n.msg)) ∧
   (∀ (s : State) (pos : Nat) (m : Msg),
     let t := tileAt s pos
     let e := memRead t.htab (2 * m.hnd.toNat) 2
     let idle := fun k => (vget Slot.reset t.slots k).phase == .idle && (t.berth.isNone || k != 0)
     let free := (List.range 4).any idle
     (e < 2 ^ 15 → takeMsg s pos m = raiseAt s pos 0x08 (m.hnd.setWidth 64)) ∧
     (∀ k, 2 ^ 15 ≤ e → k < 4 → idle k = true → (∀ j, j < k → idle j = false) → t.runq = [] → takeMsg s pos m = startTask s pos k m (BitVec.ofNat 13 e)) ∧
     (2 ^ 15 ≤ e → (free = false ∨ t.runq ≠ []) →
       (t.runq.length < 64 → t.spill = [] → takeMsg s pos m = setTile s pos { t with runq := t.runq ++ [m] }) ∧
       ((64 ≤ t.runq.length ∨ t.spill ≠ []) → t.spill.length < 256 → takeMsg s pos m = setTile s pos { t with spill := t.spill ++ [m] }) ∧
       (256 ≤ t.spill.length → takeMsg s pos m = raiseAt (setTile s pos { t with heldMsg := some m }) pos 0x16 (tileId s.pkg pos)))) ∧
   (∀ (s : State) (i : Nat) (n : NetMsg), s.arg = .one i → s.net[i]? = some n → n.arrived = false → n.msg.hinted = true → firstAt s n.pos = some i →
     let h := gridPos n.msg.tx n.msg.ty
     let near := decide (gridDist n.pos h ≤ n.msg.rad) && accepts (tileAt s n.pos)
     exec .hintedWalkStep s = .next (
       if near || n.pos == h then (if (tileAt s n.pos).heldMsg.isSome then s else takeMsg { s with net := s.net.eraseIdx i } n.pos n.msg)
       else { s with net := s.net.eraseIdx i ++ [{ n with
         pos := if posX n.pos < n.msg.tx then n.pos + 1
           else if n.msg.tx < posX n.pos then n.pos - 1
           else if gridY n.pos < n.msg.ty then gridPos (posX n.pos) (gridY n.pos + 1)
           else gridPos (posX n.pos) (gridY n.pos - 1) }] })) ∧
   (∀ (s : State) (pos k : Nat) (m : Msg) (ms : List Msg) (e : BitVec 13), s.arg = .one pos → idleSlot (tileAt s pos) = some k → (tileAt s pos).runq = m :: ms →
     handlerEntry (tileAt s pos) m.hnd.toNat = some e →
     exec .taskDispatch s = .next (startTask (setTile s pos { tileAt s pos with runq := ms }) pos k m e)) ∧
   (∀ (s : State) (pos : Nat) (m : Msg) (ms : List Msg), s.arg = .one pos → (tileAt s pos).spill = m :: ms → (tileAt s pos).runq.length < 64 →
     exec .spillToQueue s = .next (setTile s pos
       { tileAt s pos with runq := (tileAt s pos).runq ++ [m], spill := ms ++ (tileAt s pos).heldMsg.toList, heldMsg := none }))) ∧
  (∀ (s : State) (pos k p : Nat) (m : Msg) (e : BitVec 13), k < 4 → partOf s pos = some p → m.payload.length ≤ 4 → s.domains.any (fun d => d.id == m.dom && d.boot) = false →
    s.berths.any (fun b => b.id == m.dom && b.boot) = false →
     let d := (dispatchCsrs s p).2
     let t := tileAt s pos
     let x := slotAt (startTask s pos k m e) pos k
     tileAt (dispatchCsrs s p).1 pos = t →
     x.phase = .running ∧ x.pc = e.setWidth 14 ∧ x.isTask = true ∧ x.isChart = false ∧ x.hnd = m.hnd ∧ x.budget = m.budget ∧
       (∀ j w, m.payload[j]? = some w → vget 0 x.s (1 + j) = w.1 ∧ x.sP.getLsbD (1 + j) = w.2) ∧ vget 0 x.s 5 = m.sender ∧
       vget 0 x.s 29 = BitVec.ofNat 64 (Config.localBase + Config.spillOff - k * t.stk.toNat) ∧
       (∀ j, m.payload.length < j → j < 32 → j ≠ 5 → j ≠ 29 → vget 0 x.s j = 0) ∧ (∀ j, j < 32 → vget 0 x.v j = 0) ∧ (∀ j, j < 8 → vget 0 x.g j = 0) ∧ x.p = 0 ∧
       x.wid = m.wid ∧ x.widf = m.widf ∧ x.nfc = t.hNfc ∧ x.seed = t.hSeed ∧ x.flags = 0 ∧ x.unchk = 0 ∧ x.sstatus = 0 ∧
       x.stvec = d.stvec ∧ x.asid = d.asid ∧ x.ptbase = d.ptbase ∧ x.sPend = 0 ∧ x.outs = [] ∧ x.rep.active = false)

/-- What an instruction boundary takes: the oldest failed answer of a slot traps as a synchronous cause; an overrun traps to the supervisor with the
count; the event slot with IE set takes the oldest event of its partition, and waiting events then enter the queue, where no two are equal; a slot SUSPENDED in BARW
or WFI leaves its wait. The last pass of the repeat buffer and DRAINING: the captured word issues
with its stepped registers, and a slot with nothing left becomes IDLE and keeps its registers (02 R51; 08 R177, R178; 12 R424; 18 R318, R326; 19 R351). That a
cause taken while a FENCE holds the slot has the FENCE's own word as EPC, so that it is executed again, is the model's reading (log entry 25). -/
def Obligations.SlotBoundaries : Prop :=
  ∀ (s : State) (pos k : Nat), s.arg = .two pos k → k < 4 →
    let t := slotAt s pos k
    let epc := if t.fence.isSome = true then (t.pc - 1).toNat
      else if t.rep.active = true ∧ t.rep.susp = false then t.rep.base.toNat + t.rep.idx.toNat else t.pc.toNat
    (∀ d ds, t.answers = d :: ds →
      exec .deferredAccessFault s = .next (takeTrap (setSlot s pos k { t with answers := ds }) pos k false d.cause 0 d.tval epc)) ∧
    (overrun t = true → exec .taskOverrun s = .next (takeTrap (setSlot s pos k (leaveWait t)) pos k false 0x1D 0 (BitVec.ofNat 64 t.runCount) epc)) ∧
    (∀ p e es, partOf s pos = some p → (partAt s p).evq = e :: es → t.sstatus.getLsbD 4 = true → t.sstatus.getLsbD 3 = true → t.phase ≠ .idle →
      t.phase.isDraining = false →
      let x := partAt s p
      let a := admitEvents es x.evWait
      exec .eventTake s = .next (takeTrap (setSlot (setPart s p { x with evq := a.1, evWait := a.2 }) pos k (leaveWait t)) pos k true e.cause 0 e.tval epc)) ∧
    (∀ q w : List Event, q.Nodup → q.length ≤ 256 → (admitEvents q w).1.Nodup ∧ (admitEvents q w).1.length ≤ 256 ∧ q <+: (admitEvents q w).1) ∧
    (t.phase.isDraining = true → (tileAt s pos).ops.all (fun o => o.slot != k || o.finished) = true → t.outs = [] → t.replies = [] → t.tokErr = [] →
      exec .drainComplete s = .next (setSlot s pos k t.ended) ∧ t.ended.phase = .idle ∧ t.ended.s = t.s ∧ t.ended.v = t.v ∧ t.ended.p = t.p ∧ t.ended.sPend = 0 ∧
        t.ended.isTask = false ∧ t.ended.isChart = false) ∧
    (∀ i, s.cur.pos = pos → s.cur.slot = k → t.rep.active = true → t.rep.susp = false →
      capturable (codeWord s pos k (t.rep.base.toNat + t.rep.idx.toNat)) = true → passInstr s pos t.rep t.rep.pass.toNat t.rep.idx.toNat = some i →
      let s1 := { s with cur := { s.cur with pass := true, pc := BitVec.ofNat 14 (t.rep.base.toNat + t.rep.idx.toNat) } }
      exec .repeatPass s = exec i s1 ∧ ∃ u, exec .repeatPass s = .next u)

/-! ### Coherence and sealing -/

/-- A request of a cache reaches the home quay of its line, once its beats have crossed: it is held in the comparator in order of arrival, and the oldest begins
when no transaction runs: with holders to ask it begins a transaction that invalidates or recalls each of them, and else it is granted at once and the next
held request of the line begins; an access at the home begins the transaction it needs the same way (06 R126, R127, Table 6-5). A holder that is asked answers
once: a die gives up its copy, or keeps it shared where the request only reads, and its dirty data, from its cache or its write-back buffer, is passed on; the
last answer to come back ends the transaction; an owner on a lost package leaves the line Broken. A dirty copy that leaves a cache goes home through the
write-back buffer, behind a running transaction (06 R126, R128, R129; 19 R350; 21 R387, R389, R394). The model's choices: a holder answers once the store that it
was granted ownership for has been performed (log entry 13), and the beats that requests, invalidations, answers and write-backs put on the hawsers of their
paths, and whom they are charged to (log entry 95). -/
def Obligations.CoherenceTransactions : Prop :=
  let run := fun (s : State) (r : CmpReq) =>
    let d := dieOfLine r.line
    let ts := targetsOf s (metaOf s r.line) r
    if ts = [] then releaseNext (transition s r none) r.line
    else
      { setDie s d { dieAt s d with trans := tblSet (dieAt s d).trans r.line { req := r, awaiting := ts, answer := none } } with
        agenda := s.agenda ++ ts.map (fun x => .event .invalidation (.two r.line x)) }
  ((∀ (s : State) (r : CmpReq) (i : Instr), (i = .coherenceRead ∧ r.kind = .read) ∨ (i = .ownershipRequest ∧ r.kind = .own) →
     s.arg = .three r.line r.pkg r.die → sentReq s r.line r.pkg r.die r.kind = r →
     let l := r.line
     let lost := homedHere s l = false ∧ pkgOfLine l ∈ s.lostPkgs
     let a := reqArrives s r
     (lost → exec i s = .next (served s r)) ∧
     (¬lost → a.2 = false → exec i s = .next (nextCycle a.1 i s.arg)) ∧
     (¬lost → a.2 = true → homedHere s l = false →
       exec i s = .next (if (reqPath s r).all (wayBack a.1 r.die r.oc) then remoteGrant (served a.1 r) r else nextCycle a.1 i s.arg)) ∧
     (a.2 = true → homedHere s l = true →
       let s1 := hold a.1 r
       (transOn s1 l = true ∨ (headOf s1 l).any (·.same r) = false → exec i s = .next s1) ∧
       (transOn s1 l = false → (headOf s1 l).any (·.same r) = true →
         (recordOwed s1 l = true ∨ grantClear s1 r = false → exec i s = .next (nextCycle s1 i s.arg)) ∧
         (recordOwed s1 l = false → grantClear s1 r = true →
           (hasCopy s1 r = true → exec i s = .next (releaseNext (served s1 r) l)) ∧
           (hasCopy s1 r = false →
             (∀ s2 x, fetchLine s1 l (blockKey s1 (blockOfLine l)) false = .ok (s2, x) →
               let s3 := served s2 r
               exec i s = .next (if (metaOf s3 l).st = .broken ∨ (metaOf s3 l).st = .poisoned then releaseNext s3 l else run s3 r)) ∧
             (∀ s2 why, fetchLine s1 l (blockKey s1 (blockOfLine l)) false = .error (s2, why) →
               exec i s = .next (if why = .busy then nextCycle s2 i s.arg else releaseNext (served s2 r) l))))))) ∧
   (∀ (s : State) (l : Nat) (write : Bool), s.arg = .one l → homedHere s l = true → transOn s l = false → needsTrans (metaOf s l).st write = true →
     let i : Instr := if write then .homeStoreOrAtomic else .homeLoad
     let kind : ReqKind := if write then .homeStore else .homeLoad
     (headOf s l = none → exec i s = .next (run s { line := l, kind := kind, pkg := s.pkg.toNat, die := dieOfLine l })) ∧
     (∀ r, headOf s l = some r → r.kind = kind → exec i s = .next (run s r)) ∧
     (∀ r, headOf s l = some r → r.kind ≠ kind → exec i s = .next s)) ∧
   (∀ (s : State) (r : CmpReq) (a : Option (BitVec 1024 × Bool)), r.die < 8 →
     let l := r.line
     let m := metaOf s l
     let t := transition s r a
     let mine := r.pkg = s.pkg.toNat
     (m.st = .broken ∨ m.st = .poisoned → t = s) ∧
     (r.kind = .own → m.st ≠ .broken → m.st ≠ .poisoned → ∀ s1 v p, ownData s r a = some (s1, v, p) →
       metaOf t l = { st := .M, xd := false, hint := 0, opkg := BitVec.ofNat 8 r.pkg, odie := BitVec.ofNat 3 r.die } ∧
       (mine → tblGet? (dieAt t r.die).rdc l = some { st := .M, data := v, poison := p, owed := owedBy r, orig := r.orig })) ∧
     (r.kind = .read → m.st = .I → ∀ s1 v, homeData s l = some (s1, v) →
       metaOf t l = { st := .E, xd := false, hint := 0, opkg := BitVec.ofNat 8 r.pkg, odie := BitVec.ofNat 3 r.die } ∧
       (mine → tblGet? (dieAt t r.die).rdc l = some { st := .E, data := v, poison := false, owed := none, orig := r.orig })) ∧
     (r.kind = .read → m.st = .S → ∀ s1 v, homeData s l = some (s1, v) →
       metaOf t l = addSharer s m r.pkg ∧ (mine → tblGet? (dieAt t r.die).rdc l = some { st := .S, data := v, poison := false, owed := none, orig := r.orig })) ∧
     (r.kind = .read → (m.st = .E ∨ m.st = .M) → a = none → ∀ s1 v, homeData s l = some (s1, v) →
       metaOf t l = addSharer s (ownerShares s m) r.pkg ∧ (mine → tblGet? (dieAt t r.die).rdc l = some { st := .S, data := v, poison := false, owed := none, orig := r.orig })) ∧
     (∀ v p, r.kind = .read → (m.st = .M ∨ m.st = .E ∨ m.st = .O) → a = some (v, p) →
       metaOf t l = addSharer s { m with st := .O } r.pkg ∧ (mine → tblGet? (dieAt t r.die).rdc l = some { st := .S, data := v, poison := p, owed := none, orig := r.orig })) ∧
     (r.kind = .homeLoad → (m.st = .M ∨ m.st = .E ∨ m.st = .O) → a = none → (metaOf t l).st = .S) ∧
     (r.kind = .homeStore → m.st ≠ .broken → m.st ≠ .poisoned → a = none → (metaOf t l).st = .I)) ∧
   (∀ (s : State) (pkg : Nat) (m : LineMeta), let m' := addSharer s m pkg
     (pkg = s.pkg.toNat → m' = { m with xd := true }) ∧ (pkg ≠ s.pkg.toNat → m' = { m with hint := m.hint ||| (1#16 <<< (pkg / 16)) }))) ∧
  ((∀ (s : State) (l t : Nat), s.arg = .two l t →
     let d := dieOfLine l
     let owed := decide (t < 8) && (tblGet? (dieAt s t).rdc l).any (owedLive s)
     (homedHere s l = false → exec .invalidation s = .next (if owed then nextCycle s .invalidation (.two l t) else farInvalidate s l t)) ∧
     (∀ x, homedHere s l = true → tblGet? (dieAt s d).trans l = some x →
       (t ∈ x.flying → exec .invalidation s = .next (answerMoves s l t x)) ∧
       (t ∉ x.flying → t ∉ x.awaiting → exec .invalidation s = .next s) ∧
       (t ∉ x.flying → t ∈ x.awaiting →
         let lost := 256 ≤ t ∧ t - 256 ∈ s.lostPkgs
         (lost → exec .invalidation s = .next (breakLine s l 3)) ∧
         (¬lost → targetPath s x.req d t = none → exec .invalidation s = .next (nextCycle s .invalidation (.two l t))) ∧
         (∀ path s1 there, ¬lost → targetPath s x.req d t = some path →
           travel s (x.req.who (.inval l t)) d path l (beatUnits path 1) = (s1, there) →
           (there = false ∨ owed = true → exec .invalidation s = .next (nextCycle s1 .invalidation (.two l t))) ∧
           (there = true → owed = false → t < 8 →
             (∀ c, tblGet? (dieAt s t).rdc l = some c →
               let x1 := { x with
                 awaiting := x.awaiting.erase t, flying := x.flying ++ [t], answer := if c.st = .M ∨ c.st = .O then some (c.data, c.poison) else x.answer }
               ∃ u, exec .invalidation s = .next (answerMoves u l t x1) ∧ tblGet? (dieAt u d).trans l = some x1 ∧
                 tblGet? (dieAt u t).rdc l =
                   (if x.req.kind = .own ∨ x.req.kind = .homeStore then tblGet? (tblErase (dieAt s t).rdc l) l
                    else some { c with st := if (c.st = .M ∨ c.st = .O) ∧ x.req.kind = .read then .O else .S })) ∧
             (∀ b, tblGet? (dieAt s t).rdc l = none → tblGet? (dieAt s t).wbuf l = some b →
               let x1 := { x with awaiting := x.awaiting.erase t, flying := x.flying ++ [t], answer := some (b.data, b.poison) }
               ∃ u, exec .invalidation s = .next (answerMoves u l t x1) ∧ tblGet? (dieAt u d).trans l = some x1 ∧ tblGet? (dieAt u t).wbuf l = some b)))))) ∧
   (∀ (s s1 : State) (l t : Nat) (x : Trans) (there : Bool), t < 8 →
     let d := dieOfLine l
     let x1 := { x with flying := x.flying.erase t }
     travel s (x.req.who (.answer l t)) t (if t = d then [] else [d]) l (if t = d then [] else [(0, 1)]) = (s1, there) →
     answerMoves s l t x =
       if there = false then nextCycle s1 .invalidation (.two l t)
       else
         let s2 := setTrans (dropBeats s1 (.answer l t) l) l x1
         if x1.awaiting = [] ∧ x1.flying = [] then later s2 .transactionEnd (.one l) else s2) ∧
   (∀ (s : State) (l : Nat) (x : Trans), s.arg = .one l → tblGet? (dieAt s (dieOfLine l)).trans l = some x →
     exec .transactionEnd s = .next (
       if x.awaiting ≠ [] ∨ x.flying ≠ [] then s
       else if grantClear s x.req = true then releaseNext (transition (dropTrans s l) x.req x.answer) l
       else nextCycle s .transactionEnd (.one l))) ∧
   (∀ (s : State) (l d : Nat), d < 8 → s.arg = .two d l →
     (∀ x, tblGet? (dieAt s d).rdc l = some x → owedLive s x = true → exec .rdcEviction s = .next s) ∧
     (∀ x, tblGet? (dieAt s d).rdc l = some x → owedLive s x = false → x.st = .M ∨ x.st = .O →
       exec .rdcEviction s = .next (later (setDie s d { dieAt s d with
         rdc := tblErase (dieAt s d).rdc l, wbuf := tblSet (dieAt s d).wbuf l { data := x.data, dirty := true, poison := x.poison, orig := x.orig } })
         .writeBackAcknowledgement (.two d l))) ∧
     (∀ x, tblGet? (dieAt s d).rdc l = some x → owedLive s x = false → x.st ≠ .M → x.st ≠ .O →
       exec .rdcEviction s = .next (setDie s d { dieAt s d with rdc := tblErase (dieAt s d).rdc l })) ∧
     (∀ b, tblGet? (dieAt s d).wbuf l = some b →
       let way := if b.orig.part = none then some [] else pathTo s b.orig.part b.orig.oc d l
       (way = none → exec .writeBackAcknowledgement s = .next (nextCycle s .writeBackAcknowledgement (.two d l))) ∧
       (∀ path s1 there, way = some path → travel s (b.orig.who d l) d path l (beatUnits path 3) = (s1, there) →
         let goes := there = true ∧ wayBack s1 d b.orig.oc path = true ∧ (homedHere s l = false ∨ (tblGet? (dieAt s (dieOfLine l)).trans l).isNone = true)
         (¬goes → exec .writeBackAcknowledgement s = .next (nextCycle s1 .writeBackAcknowledgement (.two d l))) ∧
         (goes →
           let s2 := dropBeats s1 (.wback d l) l
           let s3 := if homedHere s l then writeBack s2 s.pkg.toNat d l b else s2
           exec .writeBackAcknowledgement s = .next (setDie s3 d { dieAt s3 d with wbuf := tblErase (dieAt s3 d).wbuf l }))))))

/-- The cipher of a block is its own inverse, and a dirty block whose entry leaves the seal cache is sealed under its key with its count raised by one, or
under the next generation from 0: opened again under the same key it verifies and holds the same lines (06 R133 to R137). A block is opened for an
access only under the key slot it was sealed with and with its tag, and with the reserved bytes of its seal metadata zero: where one does not fit, its entry is marked failed; a block that
would wrap with no next generation is frozen and its owner told; while a back-off blocks the bank of a block, nothing of it is opened or sealed. A dirty line leaves
the L2 for its block's entry (06 R120, R122, R134 to R138; 21 R391). -/
def Obligations.SealedBlocks : Prop :=
  ((∀ (ke : BitVec 256) (b n : Nat) (bs : List Byte), bs.length = 2048 → cryptBlock ke b n (cryptBlock ke b n bs) = bs ∧ (cryptBlock ke b n bs).length = 2048) ∧
   (∀ (s : State) (b : Nat) (e : ScEnt) (ks : BitVec 256 × BitVec 256), s.arg = .one b → entOf s b = some e → e.failed = false → e.frozen = false → e.dirty ≠ 0 → e.valid = 0xFFFF →
     e.filled = true → bankBlocked s b = false → (dieAt s (dieOfBlock b)).dram.wf = true → (dieAt s (dieOfBlock b)).sc.length ≤ 131072 →
     let n : BitVec 32 := if e.count = 0xFFFFFFFF then 0 else e.count + 1
     let g : BitVec 1 := if e.count = 0xFFFFFFFF then e.gen ^^^ 1 else e.gen
     keysOf s e.key.toNat g = some ks →
     ∃ t, exec .sealCacheEviction s = .next t ∧ t.keys = s.keys ∧ t.tiles = s.tiles ∧
       (tblGet SealMeta.reset (dieAt t (dieOfBlock b)).sealMeta b).count = n ∧
       (tblGet SealMeta.reset (dieAt t (dieOfBlock b)).sealMeta b).key.toNat = g.toNat * 128 + e.key.toNat ∧
       entOf t b = none ∧
       (∀ k, k / 2048 ≠ b % 2 ^ 25 → memGet (dieAt t (dieOfBlock b)).dram k = memGet (dieAt s (dieOfBlock b)).dram k) ∧
       (∀ d, d ≠ dieOfBlock b → dieAt t d = dieAt s d) ∧
       ∃ f, entOf (fillBlock t b e.key.toNat) b = some f ∧ f.lines = e.lines ∧ f.valid = 0xFFFF ∧ f.failed = false ∧ f.count = n ∧ f.gen = g)) ∧
  ((∀ (s : State) (b k : Nat), s.arg = .two b k → k < 128 →
     exec .sealCacheFill s = .next (fillBlock s b k) ∧
     (entOf s b = none → (dieAt s (dieOfBlock b)).sc.length < 131072 → bankBlocked s b = true → fillBlock s b k = bankWaits s b) ∧
     (entOf s b = none → badLines s b = [] → (dieAt s (dieOfBlock b)).sc.length < 131072 → bankBlocked s b = false →
       let sm := tblGet SealMeta.reset (dieAt s (dieOfBlock b)).sealMeta b
       let g : BitVec 1 := sm.key.extractLsb' 7 1
       (sm.key.toNat % 128 ≠ k ∨ sm.cut = true ∨ keysOf s k g = none ∨ sm.rsv ≠ 0 ∨ (∃ ks, keysOf s k g = some ks ∧ tagOf ks.2 (dramBlock s b) b sm.count.toNat sm.key.toNat ≠ sm.tag) →
         (entOf (fillBlock s b k) b).map (·.failed) = some true) ∧
       (∀ ks, sm.key.toNat % 128 = k → sm.cut = false → keysOf s k g = some ks → sm.rsv = 0 → tagOf ks.2 (dramBlock s b) b sm.count.toNat sm.key.toNat = sm.tag →
         ∃ f, entOf (fillBlock s b k) b = some f ∧ f.failed = false ∧ f.valid = 0xFFFF ∧ f.dirty = 0 ∧ f.count = sm.count ∧ f.key.toNat = k ∧ f.gen = g ∧
           ∀ i, i < 16 → vget 0 f.lines i = BitVec.ofNat 1024 (ofBytesLE (((cryptBlock ks.1 b sm.count.toNat (dramBlock s b)).drop (128 * i)).take 128))))) ∧
   (∀ (s : State) (b : Nat) (e : ScEnt), s.arg = .one b → entOf s b = some e → e.failed = false → e.frozen = false → e.dirty ≠ 0 → e.valid = 0xFFFF → e.filled = true → bankBlocked s b = false →
     e.count = 0xFFFFFFFF →
     keysOf s e.key.toNat (e.gen ^^^ 1) = none →
     exec .sealCacheEviction s = .next (
       if 64 ≤ frozenCount s (dieOfBlock b) then s
       else
         match (tblGet KeySlot.reset s.keys e.key.toNat).owner with
         | some p => raiseEvent (setEnt s b { e with frozen := true }) p 0x10 (BitVec.ofNat 64 (b * 2048))
         | none => setEnt s b { e with frozen := true })) ∧
   (∀ (s : State) (b : Nat) (e : ScEnt), s.arg = .one b → entOf s b = some e → e.failed = false → e.frozen = false → e.dirty ≠ 0 → bankBlocked s b = true →
     exec .sealCacheEviction s = .next (bankWaits s b)) ∧
   (∀ (s : State) (l : Nat) (x : LineBuf), s.arg = .one l → tblGet? (dieAt s (dieOfLine l)).l2 l = some x →
     let s1 := setDie s (dieOfLine l) { dieAt s (dieOfLine l) with l2 := tblErase (dieAt s (dieOfLine l)).l2 l }
     (x.dirty = false → exec .l2Eviction s = .next s1) ∧
     (∀ e, x.dirty = true → entOf s (blockOfLine l) = some e →
       ∃ t, exec .l2Eviction s = .next t ∧ ∃ f, entOf t (blockOfLine l) = some f ∧ vget 0 f.lines (l % 16) = x.data ∧ f.dirty.getLsbD (l % 16) = true ∧ f.valid.getLsbD (l % 16) = true ∧
         (∀ i, i ≠ l % 16 → vget 0 f.lines i = vget 0 e.lines i ∧ f.dirty.getLsbD i = e.dirty.getLsbD i) ∧ f.count = e.count ∧ f.key = e.key) ∧
     (x.dirty = true → entOf s (blockOfLine l) = none → (dieAt s (dieOfLine l)).sc.length < 131072 →
       let sm := tblGet SealMeta.reset (dieAt s (dieOfLine l)).sealMeta (blockOfLine l)
       ∃ t, exec .l2Eviction s = .next t ∧ ∃ f, entOf t (blockOfLine l) = some f ∧ vget 0 f.lines (l % 16) = x.data ∧ f.filled = false ∧ f.count = sm.count ∧
         f.gen = sm.key.extractLsb' 7 1 ∧ f.key = sm.key.setWidth 7)))

/-! ### The scheduler -/

/-- A scheduling pass goes through the records of queues 3 to 0, oldest first: a record whose waits are not met is passed over, the first eligible one is
placed, or asks for the saves that would make room, and ends the pass; a chart takes the lowest-numbered rectangle that is free, and its tiles become
its own (19 R343 to R346). The task code of work that has been placed is read under DASID and DPTBASE and stands in every tile of it before anything
of it starts; a read that fails releases the work with its cause. A grid whose tasks have all ended arrives on DONE and dissolves; a new budget period
refills every budget to its LIMIT (19 R347 to R349, R425). -/
def Obligations.SchedulingAndDispatch : Prop :=
  ((∀ (s : State) (p : Nat), s.arg = .one p →
     ((partAt s p).st ≠ .running ∨ (∃ b ∈ s.berths, b.part = p ∧ b.saving = true) → exec .schedulingPass s = .next s) ∧
     ((partAt s p).st = .running → (∀ b ∈ s.berths, b.part = p → b.saving = false) →
       let x := partAt s p
       let order := [3, 2, 1, 0].flatMap (fun q => ((vget [] x.queues q).mapIdx (fun i l => (q, i, l))).filter (fun y => y.2.2.placed.isNone))
       (order = [] ∨ passDue s p = false → exec .schedulingPass s = .next s) ∧
       (passDue s p = true → exec .schedulingPass s = .next (passOver p order s)) ∧
       (∀ q i l rest, passDue s p = true → order = (q, i, l) :: rest →
         (∀ s1 pa, waitsMet s p l = .notMet s1 pa → withheld l.held = true ∨ l.wait.isSome = true → exec .schedulingPass s = .next (passOver p rest s1)) ∧
         (l.held = none →
           (∀ s1 pa, l.wait = none → waitsMet s p l = .notMet s1 pa →
             exec .schedulingPass s = .next (passOver p rest (setRecord s1 p q i { l with wait := pa, held := none }))) ∧
           (∀ s1, waitsMet s p l = .wait s1 → exec .schedulingPass s = .next s1) ∧
           (∀ s1 va m, waitsMet s p l = .held s1 va m →
             let y := withhold s1 (waitWho s1 p l).2 va m false none
             exec .schedulingPass s = .next (passOver p rest (setRecord y.1 p q i { l with held := some y.2 }))) ∧
           (∀ s1 va, waitsMet s p l = .failed s1 va → exec .schedulingPass s = .next (raiseEvent (dropRecord s1 p q i) p 0x08 va)) ∧
           (∀ s1 s2, waitsMet s p l = .met s1 → place s1 p l = some s2 →
             exec .schedulingPass s = .next (setRecord s2 p q i { l with held := none, placed := some s1.nextWork })) ∧
           (∀ s1, waitsMet s p l = .met s1 → place s1 p l = none →
             exec .schedulingPass s = .next (passEnds (passStops (setRecord s1 p q i { l with held := none }) p q i { l with held := none }) p)))))) ∧
   (∀ (s : State) (p w h : Nat) (r : Rect), findRect s p w h = some r →
     r.w = w ∧ r.h = h ∧ r.tx < 128 ∧ r.ty < 64 ∧ rectFree s p r = true ∧
     (∀ x y, x < 128 → y < 64 → 128 * y + x < 128 * r.ty + r.tx → rectFree s p ⟨x, y, w, h⟩ = false) ∧
     (∀ q ∈ r.tiles, partOf s q = some p ∧ (dieAt s (dieOf q)).gated = false ∧ (tileAt s q).berth = none ∧
       ∀ d, (tileAt s q).dom = some d → (∀ b ∈ s.berths, b.id ≠ d) ∧ ∀ x ∈ s.domains, x.id ≠ d) ∧ r.tx + w ≤ 128 ∧ r.ty + h ≤ 64) ∧
   (∀ (s : State) (p : Nat) (l : Launch) (r : Rect),
     let t := newBerth s p l r
     t.nextWork = s.nextWork + 1 ∧ (partAt t p).pendDispatch = (partAt s p).pendDispatch ++ [s.nextWork] ∧
     (∀ q ∈ r.tiles, (tileAt t q).berth = some s.nextWork ∧ (tileAt t q).dom = some s.nextWork ∧ (tileAt t q).slots = (tileAt s q).slots ∧
       (tileAt t q).scratch = (tileAt s q).scratch) ∧
     (∀ q, q ∉ r.tiles → tileAt t q = tileAt s q) ∧ t.dies = s.dies ∧ ∃ b, t.berths = s.berths ++ [b] ∧ b.id = s.nextWork ∧ b.part = p ∧ b.rect = r ∧ b.lrec = l.lrec ∧ b.resume = l.saved)) ∧
  ((∀ (s : State) (p id : Nat) (ids : List Nat) (r : Rect) (l : Mem), s.arg = .one p → (partAt s p).pendDispatch = id :: ids → workOf s id = some (r, l) → workHeld s id = none →
     let c := dispatchCsrs s p
     let w := schedWho c.1 p (gridPos r.tx r.ty) (memRead l 2 1 % 16) false (workAgent s id)
     let va := memRead l 0x018 8
     let len := 4 * memRead l 0x022 2
     (∀ s1 code, seqBytes w.1 w.2 va len = .ok s1 code →
       exec .dispatch s = .next (popDispatch (dispatched (r.tiles.foldl (fun s q => setTile s q (loadTile l code (tileAt s q))) s1) id c.2) p)) ∧
     (∀ s1, seqBytes w.1 w.2 va len = .wait s1 → exec .dispatch s = .next s1) ∧
     (∀ s1 a m wr, seqBytes w.1 w.2 va len = .held s1 a m wr →
       let y := withhold s1 w.2 a m wr none
       exec .dispatch s = .next (holdWork y.1 id (some y.2))) ∧
     (∀ s1 cause a, seqBytes w.1 w.2 va len = .bad s1 cause a →
       exec .dispatch s = .next (raiseEvent (releaseWork (popDispatch s1 p) id r) p cause (BitVec.ofNat 64 a)))) ∧
   (∀ (l : Mem) (code : List Byte) (t : Tile), t.imem.wf = true →
     let u := loadTile l code t
     u.imem.wf = true ∧ u.slots = t.slots ∧ u.scratch = t.scratch ∧ u.bank = t.bank ∧
     (∀ k, memGet u.imem k = if 4 * memRead l 0x020 2 ≤ k ∧ k < 4 * memRead l 0x020 2 + code.length then code.getD (k - 4 * memRead l 0x020 2) 0 else memGet t.imem k)) ∧
   (∀ (s : State) (id : Nat) (d : Domain), s.arg = .one id → s.domains.find? (fun d => d.id == id) = some d →
     (domainDone s d = false → exec .taskGridEnd s = .next s) ∧
     (d.dispatched = true → d.held = none → domainDone s d = true →
       (d.dead = true → exec .taskGridEnd s = .next (releaseWork s id ⟨d.tx, d.ty, d.w, d.h⟩)) ∧
       (d.dead = false →
         let w := schedWho s d.part (gridPos d.tx d.ty) d.budget.toNat true (.domain id)
         let done := BitVec.ofNat 64 (memRead d.lrec 0x0D0 8)
         (done = 0 → exec .taskGridEnd s = .next (releaseWork w.1 id ⟨d.tx, d.ty, d.w, d.h⟩)) ∧
         (done ≠ 0 →
           let answer := memAccess w.1 w.2 done.toNat 16 .atomic (barUpd barArrive false)
           (∀ s1 v q, answer = .ok s1 v q → exec .taskGridEnd s = .next (releaseWork s1 id ⟨d.tx, d.ty, d.w, d.h⟩)) ∧
           (∀ s1, answer = .wait s1 → exec .taskGridEnd s = .next s1) ∧
           (∀ s1 m, answer = .held s1 m →
             let y := withhold s1 w.2 done.toNat m true none
             exec .taskGridEnd s = .next (holdWork y.1 id (some y.2))) ∧
           (∀ s1 why, answer = .bad s1 why → exec .taskGridEnd s = .next (releaseWork (raiseEvent s1 d.part why.cause done) id ⟨d.tx, d.ty, d.w, d.h⟩)))))) ∧
   (∀ s : State, ∃ t, exec .budgetPeriod s = .next t ∧ t = { s with parts := t.parts } ∧ t.parts.map (·.1) = s.parts.map (·.1) ∧
     ∀ p k, tblGet? (partAt t p).budget k = (tblGet? (partAt s p).budget k).map (fun e => { e with left := e.limit.toNat })))

/-- A save writes the units of its record one after another once the chart has stopped, and its end frees the berth, queues the resume record and raises
PREEMPT with the header's address; an eviction begins when an access has been withheld for DRAINLIM cycles; banks that are in the way of a resume are
copied into their records, its save record and its images are read back, and the chart starts with what they hold; a read that fails keeps the record
(19 R352 to R358). A command of the supervisor is acted on once, by the OP it holds, and ACK then holds its SEQ and its status: OP 1 requests a save
of the chart at the origin, OP 2 ends the chart or grid there, OP 3 discards a saved chart with its resume record, after a save in progress there, and any other OP
is answered with 3 (19 R359, Table 19-6). The model's readings and choices: what a record and its images hold at a save (log entry 73), the answer 1 of OP 1
for a chart that has not started (71, 113), and the ACK of OP 2 before what it ends has drained (119). -/
def Obligations.SavesResumesAndCommands : Prop :=
  (∀ (s : State) (id : Nat) (b : Berth), s.arg = .one id → berthOf s id = some b →
     (b.saving = false ∨ b.held ≠ none ∨ (b.cap = 0 ∧ captureReady s b = false) → exec .capture s = .next s) ∧
     (b.saving = true → b.held = none → (b.cap = 0 → captureReady s b = true) →
       (saveUnit s b b.cap (Config.freeVec s.fresh).toNat = none → ∃ t, exec .capture s = .next (raiseEvent t b.part 0x1A (BitVec.ofNat 64 (headAddr b.rect b.pool))) ∧
         berthOf t id = none ∧ (partAt t b.part).saved = (partAt s b.part).saved ++ [savedOf s b] ∧
         let q := memRead b.lrec 1 1 % 4
         vget [] (partAt t b.part).queues q = { lrec := b.lrec, saved := some b.id, boot := false, held := none } :: vget [] (partAt s b.part).queues q) ∧
       (∀ va v, saveUnit s b b.cap (Config.freeVec s.fresh).toNat = some (va, v) →
         let w := schedWho (nextFresh s) b.part (gridPos b.tx b.ty) b.budget.toNat true (.berth b.id)
         let store := memAccess w.1 w.2 va 64 .store (fun _ _ => .put v (fullMask 64) false)
         (∀ s1 y p, store = .ok s1 y p → exec .capture s = .next (updBerth s1 { b with held := none, cap := b.cap + 1 })) ∧
         (∀ s1, store = .wait s1 → exec .capture s = .next s1) ∧
         (∀ s1 m, store = .held s1 m →
           let y := withhold s1 w.2 va m true none
           exec .capture s = .next (updBerth y.1 { b with held := some y.2 })) ∧
         (∀ s1 why, store = .bad s1 why → exec .capture s = .next (updBerth s1 { b with held := none, cap := b.cap + 1 })))) ∧
     (drainExpired s b = false → exec .drainLimitExpiry s = .next s) ∧
     (b.seq = .step → drainExpired s b = true → (∀ x ∈ s.berths, x.part = b.part → x.saving = false) →
       let r := requestSave s b true
       exec .drainLimitExpiry s = .next (if r.2 || b.noPool then r.1 else raiseEvent (updBerth r.1 { b with noPool := true }) b.part 0x1A 0)) ∧
     (∀ x, resumedOf s b = some x → b.seq = .starting → b.dispatched = true → b.held = none → slotsIdle s b = true →
       let w := schedWho s b.part (gridPos b.tx b.ty) b.budget.toNat true (.berth id)
       let read := readImages b (berthWho s b) x.imgs [0, 1, 2, 3] s []
       (∀ h, bankInWay s b x = some h → exec .resume s = .next (copyBank s b h)) ∧
       (∀ y, bankInWay s b x = none → nextPart x b.rect b.cap = some y →
         (∀ s1 bs, seqBytes w.1 w.2 y.va y.len = .ok s1 bs →
           exec .resume s = .next (updBerth (setSaved (forget s1 (.berth id)) b.part (y.apply bs)) { b with held := none, cap := y.cap })) ∧
         (∀ s1, seqBytes w.1 w.2 y.va y.len = .wait s1 → exec .resume s = .next s1) ∧
         (∀ s1 a m wr, seqBytes w.1 w.2 y.va y.len = .held s1 a m wr →
           let z := withhold s1 w.2 a m wr none
           exec .resume s = .next (updBerth z.1 { b with held := some z.2 })) ∧
         (∀ s1 c a, seqBytes w.1 w.2 y.va y.len = .bad s1 c a → exec .resume s = .next (resumeFails x s1 { b with held := none } c a))) ∧
       (bankInWay s b x = none → nextPart x b.rect b.cap = none →
         (∀ s1 xs, read = .ok s1 xs →
           let s2 := dropSaved (forget s1 (.berth id)) b.part x.id
           exec .resume s = .next (restoreChart s2 (xs.foldl (fun s e => installImage s { b with held := none } e.1 e.2) s2) { b with held := none } x (xs.flatMap (·.2)))) ∧
         (∀ s1, read = .wait s1 → exec .resume s = .next s1) ∧
         (∀ s1 c a, read = .bad s1 c a → exec .resume s = .next (resumeFails x s1 { b with held := none } c a))))) ∧
  (∀ (s : State) (p : Nat) (c : Cmd), s.arg = .one p → newCmd s p = some c →
     (c.op = 1 →
       (chartAt s p c = none → exec .cmdPreemptionSave s = .next (ackCmd s p c 1)) ∧
       (∀ b, chartAt s p c = some b →
         (b.saving = true → exec .cmdPreemptionSave s = .next (ackCmd s p c 2)) ∧
         (b.saving = false → b.dispatched = false ∨ b.seq = .starting → exec .cmdPreemptionSave s = .next (ackCmd s p c 1)) ∧
         (b.saving = false → b.dispatched = true → b.seq ≠ .starting → (∃ x ∈ s.berths, x.part = p ∧ x.saving = true) → exec .cmdPreemptionSave s = .next s) ∧
         (b.saving = false → b.dispatched = true → b.seq ≠ .starting → (∀ x ∈ s.berths, x.part = p → x.saving = false) →
           let r := requestSave s b false
           (r.2 = true → exec .cmdPreemptionSave s = .next (ackCmd r.1 p c 0)) ∧
           (r.2 = false → exec .cmdPreemptionSave s = .next (ackCmd (nextFresh (raiseEvent r.1 p 0x1A 0)) p c (Config.freeWord r.1.fresh).toNat))))) ∧
     (c.op = 2 →
       (∀ b, chartAt s p c = some b → b.saving = true → exec .cmdEndWork s = .next s) ∧
       (∀ b, chartAt s p c = some b → b.saving = false → exec .cmdEndWork s = .next (ackCmd (cutChart s b) p c 0)) ∧
       (∀ d, chartAt s p c = none → s.domains.find? (fun d => d.part == p && d.tx == c.tx && d.ty == c.ty && !d.dead) = some d →
         exec .cmdEndWork s = .next (ackCmd (cutGrid s d) p c 0)) ∧
       (chartAt s p c = none → s.domains.all (fun d => d.part != p || d.tx != c.tx || d.ty != c.ty || d.dead) = true →
         exec .cmdEndWork s = .next (ackCmd s p c 1))) ∧
     (c.op = 3 →
       let a := sblkRead s p 0xD0 8
       let x := partAt a.1 p
       (savingAt a.1 p a.2 = true → exec .cmdDiscardSave s = .next a.1) ∧
       (savingAt a.1 p a.2 = false → x.saved.all (fun y => y.header.toNat != a.2) = true → exec .cmdDiscardSave s = .next (ackCmd a.1 p c 1)) ∧
       (∀ y, savingAt a.1 p a.2 = false → x.saved.find? (fun y => y.header.toNat == a.2) = some y → (∀ b ∈ a.1.berths, b.part = p → b.resume ≠ some y.id) →
         exec .cmdDiscardSave s = .next (ackCmd (dropSaved (setPart a.1 p { x with queues := x.queues.map (fun q => q.filter (fun l => l.saved != some y.id)) }) p y.id) p c 0))) ∧
     (c.op = 0 ∨ 3 < c.op → exec .cmdUnknownOp s = .next (ackCmd s p c 3)) ∧
     (∀ n, ackCmd s p c n = sblkWrite (setPart s p { partAt s p with cmdSeq := BitVec.ofNat 32 c.seq }) p 0xC8 8 (c.seq * 2 ^ 32 + n % 256)))

/-! ### Errors, ports and power -/

/-- The package enters the viral state once, on a fatal source that a die detects: the record stands in the die's log with FATAL, the source on every die,
every context has ended, nothing is scheduled, and every port that was UP has sent its notice; a fault of power or clock, an uncorrectable word of a
base die, a hawser that does not retrain, a watchdog and a lost flit whose header is not recovered are such sources (21 R388, R392, R393, Table 21-4).
A lost flit whose header is recovered loses only its data: static words of a boundary link, a reply, a message and an atomic arrive poisoned, a line becomes Poisoned, a
scratch unit is poisoned, and a line whose coherence message is lost becomes Broken. A replayed flit adds to its path's record (21 R381, R388, Tables
21-2, 21-6 and 21-7). The model's choices: that an atomic's operation word is poisoned with its operand, that words are poisoned where they stand, and what
a poisoned control word of a launch leads to (log entry 88), and the places of records that no rule names (31). -/
def Obligations.ViralStateAndLinkErrors : Prop :=
  ((∀ (s : State) (d : Nat) (i : Instr) (src : Nat), d < 8 →
     (i = .powerOrClockFault ∧ s.arg = .one d ∧ src = 4) ∨ (i = .baseDieUncorrectable ∧ s.arg = .one d ∧ src = 2) ∨ (i = .hawserRetrainFailure ∧ s.arg = .one d ∧ src = 3) ∨
       (∃ f, i = .linkFlitLost ∧ s.arg = .flit d false f ∧ src = 1) →
     (s.viral = true → exec i s = .next s) ∧
     (s.viral = false → ∃ t, exec i s = .next t ∧ t = enterViral s d src ∧ t.viral = true ∧ t.agenda = s.agenda.filter Activity.outlives ∧
       t.deferred = s.deferred.filter Activity.outlives ∧ t.mgmt.mstatSeq = s.mgmt.seq ∧ (s.mgmt.seq ≠ s.mgmt.mstatSeq → t.mgmt.mstat = 6) ∧ t.bills = [] ∧ t.berths = [] ∧ t.domains = [] ∧ t.net = [] ∧ t.colls = [] ∧ t.hawsers = [] ∧ t.fetched = [] ∧
       (∀ p k, (slotAt t p k).phase = .idle ∧ (slotAt t p k).outs = []) ∧
       (∀ p, (switchAt t p).phase = .idle ∧ (tileAt t p).ops = [] ∧ (tileAt t p).scratch = (tileAt s p).scratch) ∧
       (∀ e, e < 8 → (dieAt t e).viralBit = true ∧ (dieAt t e).fsrc = (if (dieAt s e).fsrc = 0 then src else (dieAt s e).fsrc) ∧ (dieAt t e).dram = (dieAt s e).dram ∧
         (∀ b, let x := tblGet SealMeta.reset (dieAt s e).sealMeta b
           let y := tblGet SealMeta.reset (dieAt t e).sealMeta b
           y = { x with cut := y.cut } ∧ (x.cut = true → y.cut = true))) ∧
       (∀ j, j < 12 → (portAt t j).st = if (portAt s j).st = .up then .notice else (portAt s j).st) ∧
       ((dieAt s d).log.length < 256 →
         ∃ r, (dieAt t d).log = (dieAt s d).log ++ [r] ∧ r.kind = 0x0C ∧ r.fl = 2 ∧ r.count = 1 ∧ r.cycle = s.cycle ∧ r.addr = 0 ∧ r.lo.toNat = src))) ∧
   (∀ s : State, (s.viral = true → exec .watchdogExpiry s = .next (nextFresh s)) ∧
     (s.viral = false → ∃ t d, exec .watchdogExpiry s = .next t ∧ d < 8 ∧ t = enterViral (nextFresh s) d 5 ∧ t.viral = true))) ∧
  ((∀ (s : State) (d : Nat) (f : LostFlit), s.arg = .flit d true f → s.viral = false →
     (∀ pos code n, f = .staticWords pos code n →
       (12 ≤ code ∨ boundarySide pos (code / 3) = false → exec .linkFlitLost s = .next s) ∧
       (code < 12 → boundarySide pos (code / 3) = true → ∃ t, exec .linkFlitLost s = .next t ∧ t.tiles = s.tiles ∧
         let ws := bufOf (switchAt s pos) code
         let us := bufOf (switchAt t pos) code
         us.length = ws.length ∧ (∀ i, i < ws.length - n → us[i]? = ws[i]?) ∧ ∀ i x, ws.length - n ≤ i → us[i]? = some x → x.poison = true)) ∧
     (∀ l, f = .lineData l →
       (homedHere s l = false → exec .linkFlitLost s = .next s) ∧
       (homedHere s l = true → ∃ t, exec .linkFlitLost s = .next t ∧ (metaOf t l).st = (if (metaOf s l).st = .broken then .broken else .poisoned) ∧
         ((metaOf s l).st = .poisoned ∨ (metaOf s l).st = .broken → t = s))) ∧
     (∀ e l x, f = .lineReply e l → e < 8 → tblGet? (dieAt s e).rdc l = some x →
       exec .linkFlitLost s = .next (setRdc s e l { x with poison := true })) ∧
     (∀ p g r, f = .collective p g r → ∃ t, exec .linkFlitLost s = .next t ∧ t = { s with colls := t.colls } ∧
       t.colls = s.colls.map (fun m => if m.part = p ∧ m.group = g ∧ m.rank = r then { m with poison := true } else m)) ∧
     (∀ p q i l, f = .launch p q i → (vget [] (partAt s p).queues q)[i]? = some l → l.placed = none →
       ∃ v, exec .linkFlitLost s = .next (nextFresh (raiseEvent (setPart s p
         { partAt s p with queues := vset (partAt s p).queues q ((vget [] (partAt s p).queues q).eraseIdx i) }) p 0x09 v))) ∧
     (∀ l c, f = .coherence l c → exec .linkFlitLost s = .next (if homedHere s l then breakLine s l c else dropCopies s l)) ∧
     (∀ i, f = .taskMessage i → ∃ t, exec .linkFlitLost s = .next t ∧ t = { s with net := t.net } ∧ t.net.length = s.net.length ∧
       (∀ j, j ≠ i → t.net[j]? = s.net[j]?) ∧
       (∀ n, s.net[i]? = some n → t.net[i]? = some { n with msg := { n.msg with payload := n.msg.payload.map (fun w => (w.1, true)) } })) ∧
     (∀ pos k n, f = .reply pos k n → k < 4 → ∃ t, exec .linkFlitLost s = .next t ∧
       (∀ j (r : Reply), (slotAt s pos k).replies[j]? = some r → (slotAt t pos k).replies[j]? = some { r with poison := r.poison || j == n }) ∧
       (slotAt t pos k).replies.length = (slotAt s pos k).replies.length ∧ (slotAt t pos k).s = (slotAt s pos k).s) ∧
     (∀ pos u, f = .scratchBeat pos u → (tileAt s pos).scratchP.wf = true → ∃ t, exec .linkFlitLost s = .next t ∧
       (∀ j, memGet (tileAt t pos).scratchP j = if j = u then 1 else memGet (tileAt s pos).scratchP j) ∧ (tileAt t pos).scratch = (tileAt s pos).scratch) ∧
     (∀ pos k id a rd op v p, f = .atomicOperand pos k id → accessOf s pos k id = some a → a.kind = .atom rd op p v p →
       exec .linkFlitLost s = .next (updAccess s pos k { a with kind := .atom rd op true v true })) ∧
     (∀ pos k id a, f = .atomicOperand pos k id → accessOf s pos k id = some a → exec .linkFlitLost s = .next (updAccess s pos k { a with kind := a.kind.poisoned }))) ∧
   (∀ (s : State) (d kind index : Nat), d < 8 → s.arg = .three d kind index →
     let lo : Word := BitVec.ofNat 64 (kind % 16 + index % 2 ^ 16 * 2 ^ 8)
     ∃ t, exec .linkFlitReplay s = .next t ∧ t.tiles = s.tiles ∧
       (∀ a r b, (dieAt s d).log = a ++ r :: b → r.kind = 0x08 → r.lo = lo → (∀ x ∈ a, x.kind ≠ 0x08 ∨ x.lo ≠ lo) →
         (dieAt t d).log = a ++ { r with count := min 65535 (r.count + 1) } :: b) ∧
       ((∀ x ∈ (dieAt s d).log, x.kind ≠ 0x08 ∨ x.lo ≠ lo) → (dieAt s d).log.length < 248 →
         ∃ r, (dieAt t d).log = (dieAt s d).log ++ [r] ∧ r.kind = 0x08 ∧ r.count = 1 ∧ r.lo = lo ∧ r.cycle = s.cycle) ∧
       ((∀ x ∈ (dieAt s d).log, x.kind ≠ 0x08 ∨ x.lo ≠ lo) → 248 ≤ (dieAt s d).log.length →
         (dieAt t d).log = (dieAt s d).log ∧ (dieAt t d).logLost = min 65535 ((dieAt s d).logLost + 1))) ∧
   (∀ (s : State) (pos : Nat) (e : SynEvent) (es : List SynEvent), s.arg = .one pos → pos < 9472 → (tileAt s pos).synq = e :: es → (dieAt s (dieOf pos)).log.length < 248 → e.kind ≠ 0x0C →
     ∃ t r, exec .syndromeQueueMove s = .next t ∧ (tileAt t pos).synq = es ∧ (tileAt t pos).slots = (tileAt s pos).slots ∧
       (dieAt t (dieOf pos)).log = (dieAt s (dieOf pos)).log ++ [r] ∧ r.kind = e.kind ∧ r.count = 1 ∧ r.cycle = e.cycle ∧ r.addr = e.addr ∧ r.lo = e.lo ∧
       t.recs = s.recs ++ (match e.part with | some p => [(p, if partOf s (placePos r.place) = some p then r else { r with place := 0 })] | none => [])))

/-- A port goes from DOWN to TRAINING, from there to UP with the peer it has learnt, and back; when an UP port goes DOWN and no other reaches its peer,
that package is lost: its lines leave the caches, the outstanding loads of them complete poisoned, and the collectives it takes part in lose a member
(21 R394; 22 R410). A row whose activations reach their limit backs its bank off: a free bank issues its owed refreshes with the mitigation where 8
are owed, and a blocked one queues at most 4; each adds to the bank's record. A die that has been idle for 600,000 cycles with nothing placed on it is
gated, its dirty L2 lines first going into its seal cache, and loses the storage of its tiles and switches, but not DRAM nor the seal cache, when it
wakes; LOGCLR clears the logs (21 R384, R391; 23 R418, R419). The model's readings: that a package is reached while a port retrains that had met it, so that it is
lost when that port goes DOWN, or meets another (log entry 74), and that the refreshes which a back-off finds owed are a free number (121). -/
def Obligations.PortsPackagesAndPower : Prop :=
  ((∀ (s : State) (j : Nat), s.arg = .one j →
     let p := portAt s j
     (p.st = .down → s.viral = false → exec .portTrainingStart s = .next (setPort s j { p with st := .training, known := false })) ∧
     (p.st ≠ .down ∨ s.viral = true → exec .portTrainingStart s = .next s) ∧
     (p.st = .up → exec .portRetrain s = .next (setPort s j { p with st := .training })) ∧ (p.st ≠ .up → exec .portRetrain s = .next s) ∧
     (p.st = .down ∨ p.st = .notice → exec .portDown s = .next s) ∧
     (p.st = .training ∨ p.st = .up →
       let s1 := setPort s j { p with st := .down, known := false }
       exec .portDown s = .next (if p.known = true ∧ reaches s1 p.peerPkg.toNat = false then later s1 .packageLost (.one p.peerPkg.toNat) else s1))) ∧
   (∀ (s : State) (pkg : Nat), reaches s pkg = s.ports.toList.any (fun p => (p.st == .up || p.st == .training) && p.known && p.peerPkg.toNat == pkg)) ∧
   (∀ (s : State) (j pkg port : Nat), s.arg = .three j pkg port →
     let p := portAt s j
     let s1 := setPort s j { st := .up, peerPkg := BitVec.ofNat 8 pkg, peerPort := BitVec.ofNat 4 port, known := true }
     (p.st ≠ .training ∨ s.viral = true → exec .portTrainingComplete s = .next s) ∧
     (p.st = .training → s.viral = false →
       exec .portTrainingComplete s = .next (if p.known = true ∧ reaches s1 p.peerPkg.toNat = false then later s1 .packageLost (.one p.peerPkg.toNat) else s1))) ∧
   (∀ (s : State) (pkg : Nat), s.arg = .one pkg →
     (s.viral = true ∨ pkg = s.pkg.toNat ∨ pkg ∈ s.lostPkgs → exec .packageLost s = .next s) ∧
     (s.viral = false → pkg ≠ s.pkg.toNat → pkg ∉ s.lostPkgs →
       exec .packageLost s = .next (loseMembers pkg (loseLoads pkg ((List.range 8).foldl (discardFrom pkg) { s with lostPkgs := pkg :: s.lostPkgs })))) ∧
     (∀ d e l, d < 8 → pkgOfLine l = pkg → tblGet? (dieAt ((List.range 8).foldl (discardFrom pkg) s) d).rdc l = none ∧
       (dieAt ((List.range 8).foldl (discardFrom pkg) s) e).dram = (dieAt s e).dram))) ∧
  ((∀ (s : State) (d b : Nat), d < 8 → s.arg = .two d b →
     let x := tblGet Bank.reset (dieAt s d).banks b
     let busy := s.cycle.toNat < x.until_ ∨ 0 < x.queued ∨ x.awaited s = true
     (busy → x.queued < 4 →
       exec .rowActivationBackoff s = .next (setDie s d { dieAt s d with banks := tblSet (dieAt s d).banks b { x with queued := x.queued + 1 } })) ∧
     (busy → 4 ≤ x.queued → exec .rowActivationBackoff s = .next (backoffMerged s d b)) ∧
     (¬busy → ∃ t owed n, exec .rowActivationBackoff s = .next t ∧ t.tiles = s.tiles ∧ (dieAt t d).dram = (dieAt s d).dram ∧ owed ≤ 8 ∧
       n ≤ (if owed = 8 then 1920 else 480) ∧
       tblGet Bank.reset (dieAt t d).banks b = { x with owed := if owed = 8 then 0 else owed, until_ := s.cycle.toNat + n } ∧
       ((dieAt s d).log.length < 248 → (∃ r ∈ (dieAt t d).log, r.kind = 0x0A ∧ bitsOf r.lo 7 0 = b % 256)))) ∧
   (∀ (s : State) (d : Nat), d < 8 → s.arg = .one d →
     ((dieAt s d).gated = true ∨ (dieAt s d).idle < 600000 ∨ dieIdle s d = false → exec .powerGate s = .next s) ∧
     ((dieAt s d).gated = false → 600000 ≤ (dieAt s d).idle → dieIdle s d = true →
       let s1 := ((dieAt s d).l2.map (·.1)).foldl evictLine s
       exec .powerGate s = .next (setDie s1 d { dieAt s1 d with gated := true })) ∧
     ((dieAt s d).gated = false → exec .dieWake s = .next s) ∧
     ((dieAt s d).gated = true → ∃ t, exec .dieWake s = .next t ∧
       dieAt t d = { dieAt s d with gated := false, waking := false, idle := 0 } ∧ (∀ e, e ≠ d → dieAt t e = dieAt s e) ∧
       (∀ p, dieOf p ≠ d → tileAt t p = tileAt s p ∧ switchAt t p = switchAt s p) ∧
       (∀ p, dieOf p = d → (tileAt t p).scratch = [] ∧ (tileAt t p).bank = [] ∧ (tileAt t p).imem = [] ∧ (∀ k, slotAt t p k = Slot.reset) ∧
         switchAt t p = Switch.reset ∧ (tileAt t p).reta = (tileAt s p).reta ∧ (tileAt t p).retb = (tileAt s p).retb))) ∧
   (∀ s : State, (∀ v h, s.arg ≠ .region v h) → ∃ t, exec .logClear s = .next t ∧ t.tiles = s.tiles ∧ t.parts = s.parts ∧
     ∀ d, (dieAt t d).log = [] ∧ (dieAt t d).logLost = 0 ∧ (dieAt t d).fsrc = 0 ∧ (dieAt t d).dram = (dieAt s d).dram ∧ (dieAt t d).viralBit = (dieAt s d).viralBit))

/-! ### Management, host and reset -/

/-- A command of the management region that is the next of its sequence either ends with the lowest status among the refusals that hold, changing nothing
else, or has its whole effect and ends with status 0 (a BLOCK_INIT once the operand banks whose records lie there are copied); the key, partition, mode, route, group-drop, block and attestation commands, and the OPs that
are not in the table (22 R395 to R405, R411 to R414). A command whose SEQ is not the next is ignored, waits behind one that has not ended, is answered
with 6 in the viral state unless it attests, and every ended command shows its SEQ and its status in MSTAT (22 R395, R396; 21 R393). PART_START queues
the boot record that it reads as a launch window would and sets the partition RUNNING, once both its key slots seal; GROUP_FORM installs its entry as
pending, which is formed when every package holds it, or removed with status 4 after the limit (22 R403, R412, R413). The model's readings: the refusals of
PART_START (log entry 76), what BLOCK_INIT, GROUP_FORM and MODE_SET do with frozen blocks, unreadable entries and groups that the mode does not have (78), that a
pending group which loses a member ends with 4 (77), and that a PART of ATTEST from 24 to 254 is refused (80). -/
def Obligations.ManagementCommands : Prop :=
  (∀ (i : Instr) (s : State) (c : MgmtCmd) (l : List (Bool × Nat)) (t : State), s.arg = .mgmt c → mgmtRule i s c = some (l, t) →
     mgmtReady s c (i = .attestReport ∨ i = .attestIdentity) = true →
     (∀ n, lowestStatus l n → exec i s = .next (endCmd s c n)) ∧
     (unrefused l → mgmtRuns i s c = true → exec i s = .next (endCmd t c 0))) ∧
  (∀ (s : State) (c : MgmtCmd) (l : List (Bool × Nat)) (t s1 : State), s.arg = .mgmt c → mgmtRule .blockInit s c = some (l, t) → mgmtReady s c false = true → unrefused l →
     let pa := (c.q.getD 0 0).toNat
     let n := (c.q.getD 1 0).toNat
     let copy := copyBanks (fun x _ => decide (pa / 2 ^ 16 ≤ x / 2 ^ 16 ∧ x / 2 ^ 16 ≤ (pa + 2048 * n - 1) / 2 ^ 16)) (heldBanks s (fun _ => true)).length s
     (copy = .wait s1 → exec .blockInit s = .next (nextCycle s1 .blockInit s.arg)) ∧
     (∀ va m w, copy = .held s1 va m w → exec .blockInit s = .next (nextCycle s1 .blockInit s.arg)) ∧
     (∀ s2, blocksBegun s c = some (s2, false) → exec .blockInit s = .next (nextCycle s2 .blockInit s.arg))) ∧
  (∀ (i : Instr) (s : State) (c : MgmtCmd) (l : List (Bool × Nat)) (t : State), i = .keyDrop ∨ i = .partDestroy → s.arg = .mgmt c → mgmtRule i s c = some (l, t) →
     mgmtReady s c false = true → unrefused l → (keyBlocksBack i s c).2 = false → exec i s = .next (nextCycle (keyBlocksBack i s c).1 i s.arg)) ∧
  ((∀ (i : Instr) (s : State) (c : MgmtCmd) (l : List (Bool × Nat)) (t : State), s.arg = .mgmt c → mgmtRule i s c = some (l, t) → s.ctl.boot = 3 →
     (c.seq ≠ s.mgmt.seq + 1 → cmdWaits s (c.seq - 1) = false → exec i s = .next s) ∧
     (c.seq = s.mgmt.seq + 1 → s.mgmt.seq ≠ s.mgmt.mstatSeq ∨ s.ctl.ck = 1 ∨ s.ctl.ck = 2 → exec i s = .next (nextCycle s i s.arg)) ∧
     (c.seq = s.mgmt.seq + 1 → s.mgmt.seq = s.mgmt.mstatSeq → s.ctl.ck ≠ 1 → s.ctl.ck ≠ 2 → s.viral = true → i ≠ .attestReport → i ≠ .attestIdentity →
       exec i s = .next (endCmd s c 6))) ∧
   (∀ (s : State) (c : MgmtCmd) (n : Nat),
     (endCmd s c n).mgmt.seq = c.seq ∧ (endCmd s c n).mgmt.mstatSeq = c.seq ∧ (endCmd s c n).mgmt.mstat = BitVec.ofNat 8 n ∧ (endCmd s c n).tiles = s.tiles ∧ (endCmd s c n).parts = s.parts)) ∧
  ((∀ (s : State) (c : MgmtCmd), s.arg = .mgmt c → c.op = 0x05 → mgmtReady s c false = true →
     let p := c.part.toNat
     let x := partAt s p
     let va := (c.q.getD 0 0).toNat
     let w := schedWho s p (schedPos s p) 0 false .hw
     (24 ≤ p ∨ x.st = .none → exec .partStart s = .next (endCmd s c 4)) ∧
     (p < 24 → x.st = .running → exec .partStart s = .next (endCmd s c 2)) ∧
     (p < 24 → x.st = .created → sealing s x.tkey.toNat = false ∨ sealing s x.errKey.toNat = false → exec .partStart s = .next (endCmd s c 2)) ∧
     (p < 24 → x.st = .created → sealing s x.tkey.toNat = true → sealing s x.errKey.toNat = true →
       (va % 64 ≠ 0 ∨ isGlobal (BitVec.ofNat 64 va) = false ∨ Config.localBase < va % 2 ^ 56 + 384 → exec .partStart s = .next (endCmd s c 2)) ∧
       (va % 64 = 0 → isGlobal (BitVec.ofNat 64 va) = true → va % 2 ^ 56 + 384 ≤ Config.localBase →
         (∀ s1 r, seqBytes w.1 w.2 va 384 = .ok s1 r → queueBoot (forget s1 .hw) p r = none → exec .partStart s = .next (endCmd (forget s1 .hw) c 2)) ∧
         (∀ s1 u a, seqBytes w.1 w.2 va 384 = .bad s1 u a → exec .partStart s = .next (endCmd (forget s1 .hw) c 2)) ∧
         (∀ s1, seqBytes w.1 w.2 va 384 = .wait s1 → exec .partStart s = .next (nextCycle s1 .partStart s.arg)) ∧
         (∀ s1 a m r, seqBytes w.1 w.2 va 384 = .held s1 a m r → exec .partStart s = .next (nextCycle (notHeld s1 w.2 a m r) .partStart s.arg))) ∧
       (∀ s1 r s2, va % 64 = 0 → isGlobal (BitVec.ofNat 64 va) = true → va % 2 ^ 56 + 384 ≤ Config.localBase → seqBytes w.1 w.2 va 384 = .ok s1 r → queueBoot (forget s1 .hw) p r = some s2 →
         exec .partStart s = .next (endCmd s2 c 0) ∧ (partAt s2 p).st = .running ∧
         ∃ e, vget [] (partAt s2 p).queues (le r 1 1 % 4) = vget [] (partAt s1 p).queues (le r 1 1 % 4) ++ [e] ∧ e.boot = true ∧ e.saved = none))) ∧
   (∀ (s s1 s2 : State) (c : MgmtCmd) (h b : List Byte), s.arg = .mgmt c → c.op = 0x09 → mgmtReady s c false = true →
     let p := c.part.toNat
     let g := (c.q.getD 0 0).toNat % 256
     let pa := (c.q.getD 1 0).toNat
     let x := partAt s p
     let n := le h 2 2
     let ms := (List.range n).map (memberOf b)
     (24 ≤ p ∨ x.st = .none → exec .groupForm s = .next (endCmd s c 4)) ∧
     (p < 24 → x.st ≠ .none → groupBusy s p g = true → exec .groupForm s = .next (endCmd s c 1)) ∧
     (p < 24 → x.st ≠ .none → groupBusy s p g = false → ∀ u, bytesTurn s pa 64 x.tkey.toNat = some u → exec .groupForm s = .next (nextCycle u .groupForm s.arg)) ∧
     (p < 24 → x.st ≠ .none → groupBusy s p g = false → bytesTurn s pa 64 x.tkey.toNat = none → hwBytes 2 s pa 64 x.tkey.toNat [] = some (s1, h) →
       ∀ u, bytesTurn s1 (pa + 64) (16 * min n 1024) x.tkey.toNat = some u → exec .groupForm s = .next (nextCycle u .groupForm s.arg)) ∧
     (p < 24 → x.st ≠ .none → groupBusy s p g = false → bytesTurn s pa 64 x.tkey.toNat = none → bytesTurn s1 (pa + 64) (16 * min n 1024) x.tkey.toNat = none → hwBytes 2 s pa 64 x.tkey.toNat [] = some (s1, h) → 2 ≤ n → n ≤ 1024 →
       hwBytes 140 s1 (pa + 64) (16 * n) x.tkey.toNat h = some (s2, b) → le b 0 1 = g → (∀ e, epochOf x g = some e → e < le b 4 4) →
       (∀ r, r < n → memberOk s ms r (memberOf b r) = true) →
       ∃ t, exec .groupForm s = .next t ∧ t.mgmt.seq = c.seq ∧ t.mgmt.mstatSeq = s2.mgmt.mstatSeq ∧
         tblGet? (partAt t p).grps g = some
           { epoch := BitVec.ofNat 32 (le b 4 4), members := ms, formed := false, broken := false, seqs := [], since := s.cycle.toNat, cmdSeq := c.seq })) ∧
   (∀ (s : State) (p g : Nat), s.arg = .two p g →
     (pendingGroup s p g = none → exec .groupFormed s = .next s ∧ exec .groupFormTimeout s = .next s) ∧
     (∀ e, pendingGroup s p g = some e →
       (∃ t, exec .groupFormed s = .next t ∧ tblGet? (partAt t p).grps g = some { e with formed := true, seqs := [] } ∧ t.mgmt.mstatSeq = e.cmdSeq ∧ t.mgmt.mstat = 0) ∧
       (s.cycle.toNat < e.since + Config.groupFormLimit → exec .groupFormTimeout s = .next s) ∧
       (e.since + Config.groupFormLimit ≤ s.cycle.toNat →
         ∃ t, exec .groupFormTimeout s = .next t ∧ (partAt t p).grps = tblErase (partAt s p).grps g ∧ t.mgmt.mstatSeq = e.cmdSeq ∧ t.mgmt.mstat = 4))))

/-- The host's apertures: an access of a wrong shape, or of a function that is not enabled, is unsupported; a read answers its bytes, or aborts where the
address, the translation, the block, the line or poison refuses it, a write that is refused is discarded, and neither is ever held; the launch window
queues a record and counts it with its status; a watch fires its vector once for each change of generation. The registers of a function's region and of
the management region are read and written under their access codes: APBASE, WATCH1 to WATCH3 and PAW are written but for their reserved bits, and
DSYNSTAT.VIRAL clears by a 1 while LOST is replaced (00 R6; 21 Table 21-4; 22 R406, R408, R409, Tables 22-1, 22-8; 21 R393; 19 R341). How the host accesses
registers, and what an unpopulated address of the physical aperture answers, is the model's choice (log entry 105), and so is the form of the MSI-X table (122);
the statuses of window writes (66), the shapes of accesses and their order (82), and that the first read of a watch fires nothing (83) are its readings. -/
def Obligations.HostAccesses : Prop :=
  (∀ (s : State) (vf : Nat) (h : HostAccess), s.arg = .host vf h →
    let fail := answer s (if h.write then .done else .completerAbort)
    let va := (vfAt s vf).apbase.toNat + h.off
    let w := schedWho s (vf / 4) (schedPos s (vf / 4)) 0 false (.host vf)
    let mem := memAccess w.1 w.2 va h.size (if h.write then .store else .load) (hostUpd h)
    (s.viral = true → exec .vaptAccess s = .next fail ∧ exec .paptAccess s = .next fail) ∧
    (s.viral = false → vfEnabled s vf = false ∨ hostShape h (2 ^ 20) = false → exec .vaptAccess s = .next (answer s .unsupported)) ∧
    (s.viral = false → vfEnabled s vf = true → hostShape h (2 ^ 20) = true →
      (isGlobal (BitVec.ofNat 64 va) = false → exec .vaptAccess s = .next fail) ∧
      (∀ u, isGlobal (BitVec.ofNat 64 va) = true → sblkTurn s (vf / 4) false = some u → exec .vaptAccess s = .next (putOff u .vaptAccess (isVapt vf))) ∧
      (isGlobal (BitVec.ofNat 64 va) = true → sblkTurn s (vf / 4) false = none →
        (∀ s1 v p, mem = .ok s1 v p → h.write = false → exec .vaptAccess s = .next (answer s1 (if p then .completerAbort else .data (bytesLE h.size v)))) ∧
        (∀ s1 v p, mem = .ok s1 v p → h.write = true → exec .vaptAccess s = .next (answer s1 .done)) ∧
        (∀ s1, mem = .wait s1 → exec .vaptAccess s = .next (putOff s1 .vaptAccess (isVapt vf))) ∧
        (∀ s1 m, mem = .held s1 m → exec .vaptAccess s = .next (answer (notHeld s1 w.2 va m h.write) (if h.write then .done else .completerAbort))) ∧
        (∀ s1 b, mem = .bad s1 b → exec .vaptAccess s = .next (answer s1 (if h.write then .done else .completerAbort))))) ∧
    (s.viral = false → s.ctl.boot ≠ 3 ∨ s.mgmt.paw.getLsbD 0 = false ∨ hostShape h (2 ^ 16) = false → exec .paptAccess s = .next (answer s .unsupported)) ∧
    (s.viral = false → s.ctl.boot = 3 → s.mgmt.paw.getLsbD 0 = true → hostShape h (2 ^ 16) = true →
      let pa := s.mgmt.paw.toNat / 2 ^ 16 % 2 ^ 36 * 2 ^ 16 + h.off
      let phys := physAccess s (paptWho s) pa h.size (s.mgmt.paw.toNat / 2 ^ 8 % 2 ^ 7) (if h.write then .store else .load) (hostUpd h)
      (populated s none pa = false → exec .paptAccess s = .next fail) ∧
      (populated s none pa = true →
        (∀ s1 v p, phys = .ok s1 v p → exec .paptAccess s = .next (answer s1 (if h.write then .done else if p then .completerAbort else .data (bytesLE h.size v)))) ∧
        (∀ s1, phys = .wait s1 → exec .paptAccess s = .next (putOff s1 .paptAccess isPapt)) ∧
        (∀ s1 m, phys = .held s1 m → exec .paptAccess s = .next (answer s1 (if h.write then .done else .completerAbort))) ∧
        (∀ s1 b, phys = .bad s1 b → exec .paptAccess s = .next (answer s1 (if h.write then .done else .completerAbort)))))) ∧
  (∀ (s : State) (vf va : Nat), s.arg = .two vf va → s.viral = false → s.ctl.ck ≠ 1 →
    let p := vf / 4
    let w := schedWho s p (schedPos s p) 0 false (.host vf)
    let freed := fun (s : State) => forget (if (vfAt s vf).heldWrites.isEmpty then leaveReplay s w.2.quay w.2.ag else s) w.2.ag
    (vfEnabled s vf = false → exec .launchWindowWrite s = .next (answer s .unsupported)) ∧
    (vfEnabled s vf = true → va % 64 ≠ 0 → exec .launchWindowWrite s = .next (windowDone s vf (-64))) ∧
    (∀ u, vfEnabled s vf = true → va % 64 = 0 → isGlobal (BitVec.ofNat 64 va) = true → va % 2 ^ 56 + 384 ≤ Config.localBase → sblkTurn s p false = some u →
      exec .launchWindowWrite s = .next (putOff u .launchWindowWrite (isWindow vf))) ∧
    (vfEnabled s vf = true → va % 64 = 0 → isGlobal (BitVec.ofNat 64 va) = true → va % 2 ^ 56 + 384 ≤ Config.localBase → sblkTurn s p false = none →
      (∀ s1 r, seqBytes w.1 w.2 va 384 = .ok s1 r →
        exec .launchWindowWrite s = .next (windowDone (enqueue (freed s1) p r).1 vf (enqueue (freed s1) p r).2)) ∧
      (∀ s1 c a, seqBytes w.1 w.2 va 384 = .bad s1 c a → exec .launchWindowWrite s = .next (windowDone (freed s1) vf (-64))) ∧
      (∀ s1, seqBytes w.1 w.2 va 384 = .wait s1 → exec .launchWindowWrite s = .next (putOff s1 .launchWindowWrite (isWindow vf))) ∧
      (∀ s1 a m r, seqBytes w.1 w.2 va 384 = .held s1 a m r →
        let y := withhold (forget s1 w.2.ag) w.2 a m r none
        (y.2.retry = true → exec .launchWindowWrite s = .next (putOff y.1 .launchWindowWrite (isWindow vf))) ∧
        (y.2.retry = false → ∃ t, exec .launchWindowWrite s = .next t ∧
          (vfAt t vf).heldWrites = (vfAt s1 vf).heldWrites ++ [BitVec.ofNat 64 va] ∧ (vfAt t vf).served = (vfAt s1 vf).served)))) ∧
  (∀ (s : State) (vf : Nat) (v : Int), (vfAt (windowDone s vf v) vf).served = (vfAt s vf).served + 1 ∧ (vfAt (windowDone s vf v) vf).status = ofInt 32 v ∧
    (vfAt (windowDone s vf v) vf).apbase = (vfAt s vf).apbase) ∧
  (∀ (s : State) (vf k : Nat), s.arg = .two vf k → vfEnabled s vf = true → s.viral = false → 0 < k → k ≤ 3 →
    (∀ u, sblkTurn s (vf / 4) false = some u → exec .watchVector s = .next u) ∧
    (∀ s1 g?, sblkTurn s (vf / 4) false = none → watched s vf k = (s1, g?) → ∃ t, exec .watchVector s = .next t ∧
      let x := vfAt s1 vf
      let y := vfAt t vf
      let changed := match g?, vget none x.seen (k - 1) with | some g, some old => old != g | _, _ => false
      let n := vget 0 x.due (k - 1) + (if changed then 1 else 0)
      let masked := (vget MsixEnt.reset x.msix k).ctrl.getLsbD 0
      vget none y.seen (k - 1) = (match g? with | some g => some g | none => vget none x.seen (k - 1)) ∧ vget 0 y.due (k - 1) = n - 1 ∧
        t.irqs = s1.irqs ++ (if 0 < n ∧ masked = false then [(vf, k)] else []) ∧ (0 < n → masked = true → y.pending.getLsbD k = true))) ∧
  ((∀ (s : State) (vf : Nat) (h : HostAccess), s.arg = .region vf h →
     (s.viral = true → exec .vaptAccess s = .next (answer s (if h.write then .done else .completerAbort))) ∧
     (s.viral = false → vfEnabled s vf = false ∨ hostShape h 0x82000 = false → exec .vaptAccess s = .next (answer s .unsupported)) ∧
     (s.viral = false → vfEnabled s vf = true → hostShape h 0x82000 = true →
       (h.write = false → exec .vaptAccess s = .next (answer s (.data (regionBytes (vfWord (vfAt s vf)) h)))) ∧
       (h.write = true → exec .vaptAccess s = .next (answer (regionWrite (setVfWord vf) h s) .done)) ∧
       (h.write = true → h.size = 8 → h.data.length = 8 → ∃ t, exec .vaptAccess s = .next t ∧
         let v := BitVec.ofNat 64 (ofBytesLE h.data)
         (h.off = 0x010 → (vfAt t vf).apbase = under 0xFFFFFFFFF00000 (vfAt s vf).apbase v ∧ (vfAt t vf).watch = (vfAt s vf).watch) ∧
         (∀ k, k < 3 → h.off = 0x018 + 8 * k → vget 0 (vfAt t vf).watch k = v ∧ vget none (vfAt t vf).seen k = none ∧ (vfAt t vf).apbase = (vfAt s vf).apbase) ∧
         (∀ k, k < 4 → h.off = 0x80000 + 16 * k → (vget MsixEnt.reset (vfAt t vf).msix k).addr = under 0xFFFFFFFFFFFFFFFC (vget MsixEnt.reset (vfAt s vf).msix k).addr v ∧
           t.agenda = s.agenda) ∧
         (∀ k, k < 4 → h.off = 0x80008 + 16 * k → (vget MsixEnt.reset (vfAt t vf).msix k).data = v.setWidth 32 ∧
           (vget MsixEnt.reset (vfAt t vf).msix k).ctrl.getLsbD 0 = v.getLsbD 32 ∧
           ((vfAt s vf).pending.getLsbD k = true → v.getLsbD 32 = false → t.irqs = s.irqs ++ [(vf, k)] ∧ (vfAt t vf).pending.getLsbD k = false) ∧
           ((vfAt s vf).pending.getLsbD k = false → t.irqs = s.irqs)) ∧
         (h.off = 0x000 → Activity.event .launchWindowWrite (.two vf v.toNat) ∈ t.agenda)))) ∧
   (∀ (s : State) (vf : Nat) (h : HostAccess), s.arg = .region vf h →
     (hostShape h 0x10000 = false → exec .paptAccess s = .next (answer s .unsupported)) ∧
     (hostShape h 0x10000 = true →
       (h.write = false → exec .paptAccess s = .next (answer s (.data (regionBytes (mgmtWord s) h)))) ∧
       (h.write = true → exec .paptAccess s = .next (answer (regionWrite setMgmtWord h s) .done)) ∧
       (h.write = true → h.size = 8 → h.data.length = 8 → s.ctl.boot = 3 → ∃ t, exec .paptAccess s = .next t ∧
         let v := BitVec.ofNat 64 (ofBytesLE h.data)
         (h.off = 0x110 → t.mgmt.paw = under 0xFFFFFFFFF7F01 s.mgmt.paw v) ∧
         (∀ d, d < 8 → h.off = 0x200 + 8 * d → (dieAt t d).viralBit = ((dieAt s d).viralBit && !(v.getLsbD 63)) ∧ (dieAt t d).logLost = bitsOf v 39 24 ∧
           (dieAt t d).log = (dieAt s d).log ∧ (dieAt t d).fsrc = (dieAt s d).fsrc)))))

/-- Whole-package reset, by whichever of its four events, clears every tile, switch, quay, cache, key slot, partition and port, and any viral state, and
keeps DRAM with its sidebands, the syndrome logs and the non-volatile store; its phases then verify the firmware, train, and start the lattice clock;
a function-level reset of a virtual function resets only that function's region (23 R416, R417, Table 23-3). A checkpoint is saved only without
running contexts, outside the viral state and into a list that holds it: its number rises and every line and block is written back, and when it
completes the image stands with that number; a restore is refused unless it comes before the first management command and the image's number is the
package's and its header's checks hold, and then DRAM, metadata, keys and partitions are the image's (23 R420 to R422); a write of PCTL starts what CKGO and CKDIR
name (R415, Table 23-1). The model's choices: the flash slots' images, the reset state with its phases done and the image as one value of the state (log entry
85), the layout of the bundle, and the order of a save's tests (105); what a function-level reset keeps is its reading (83). -/
def Obligations.ResetsAndCheckpoints : Prop :=
  ((∀ (i : Instr) (s : State), i = .perstAssert ∨ i = .hotReset ∨ i = .packageResetRequest ∨ i = .pf0FunctionLevelReset →
     ∃ t, exec i s = .next t ∧ t.cycle = 0 ∧ t.tiles = [] ∧ t.switches = [] ∧ t.quays = [] ∧ t.parts = [] ∧ t.keys = [] ∧ t.berths = [] ∧ t.domains = [] ∧ t.net = [] ∧ t.colls = [] ∧
       t.viral = false ∧ t.pmode = 0 ∧ t.agenda = [] ∧ t.deferred = [] ∧ t.ctl.boot = 0 ∧ t.ctl.ck = 0 ∧ t.ctl.ckerr = 0 ∧ t.ctl.fresh = true ∧ t.ctl.minVersion = s.ctl.minVersion ∧ t.ctl.ckn = s.ctl.ckn ∧
       t.pkg = 0 ∧ t.hawsers = [] ∧ t.bills = [] ∧ t.fetched = [] ∧ t.mgmt.seq = 0 ∧ t.mgmt.mstat = 0 ∧ t.mgmt.leaf = s.mgmt.leaf ∧ t.mgmt.leavesLeft = s.mgmt.leavesLeft ∧ t.image = s.image ∧
       (∀ p k, slotAt t p k = Slot.reset) ∧ (∀ j, (portAt t j).st = .down) ∧
       ∀ d, let x := dieAt t d; let y := dieAt s d
         x.dram = y.dram ∧ x.line = y.line ∧ x.sealMeta = y.sealMeta ∧ x.ecc = y.ecc ∧ x.log = y.log ∧ x.logLost = y.logLost ∧ x.fsrc = y.fsrc ∧ x.viralBit = y.viralBit ∧
           x.sc = [] ∧ x.l2 = [] ∧ x.rdc = [] ∧ x.wbuf = [] ∧ x.cmp = [] ∧ x.trans = [] ∧ x.gated = false) ∧
   (∀ s : State,
     let f := s.ctl.flash[0]
     let g := s.ctl.flash[1]
     let ok := fun (x : FlashImg) => x.signed = true ∧ s.ctl.minVersion ≤ x.version
     let runs := fun (x : FlashImg) => { s with ctl := { s.ctl with boot := 2, minVersion := x.version, fwdig := x.digest } }
     (s.ctl.boot = 0 → exec .resetPhaseComplete s = .next { s with ctl := { s.ctl with boot := 1 } }) ∧
     (s.ctl.boot = 1 → ok f → exec .resetPhaseComplete s = .next (runs f)) ∧
     (s.ctl.boot = 1 → ¬ok f → ok g → exec .resetPhaseComplete s = .next (runs g)) ∧
     (s.ctl.boot = 1 → ¬ok f → ¬ok g → exec .resetPhaseComplete s = .next { s with ctl := { s.ctl with boot := 4 } }) ∧
     (s.ctl.boot = 2 → exec .resetPhaseComplete s = .next { s with ctl := { s.ctl with boot := 3 }, pkg := s.ctl.pkgid, testMode := s.ctl.test })) ∧
   (∀ (s : State) (vf : Nat), s.arg = .one vf → ∃ t, exec .vfFunctionLevelReset s = .next t ∧ t = { s with vfs := t.vfs } ∧
     vfAt t vf = { Vf.reset with heldWrites := (vfAt s vf).heldWrites } ∧ ∀ v, v ≠ vf → vfAt t v = vfAt s v)) ∧
  ((∀ (s : State) (vf : Nat) (h : HostAccess), s.arg = .region vf h → h.write = true → h.off = 0 → h.size = 8 → h.data.length = 8 →
     let v := BitVec.ofNat 64 (ofBytesLE h.data)
     ∃ t, exec .logClear s = .next t ∧ (v.getLsbD 0 = true → t.ctl.boot = 0) ∧
       (v.getLsbD 0 = false → t.ctl.pkgid.toNat = bitsOf v 55 48 ∧ t.ctl.test = v.getLsbD 4 ∧ t.ctl.ckdir = v.getLsbD 3 ∧
         (v.getLsbD 1 = true → ∀ d, (dieAt t d).log = []) ∧ (v.getLsbD 2 = false → t.agenda = s.agenda) ∧
         (v.getLsbD 2 = true → v.getLsbD 3 = true → t.agenda = s.agenda ++ [.event .checkpointRestore .none]) ∧
         (v.getLsbD 2 = true → v.getLsbD 3 = false → ∃ l, t.agenda = s.agenda ++ [.event .checkpointSave (.ckList l)]))) ∧
   (∀ (s : State) (l : CkList), s.arg = .ckList l → s.ctl.ckdir = true ∨ s.ctl.ck = 1 ∨ s.ctl.ck = 2 → exec .checkpointSave s = .next s) ∧
   (∀ (s : State) (l : CkList), s.arg = .ckList l → s.ctl.ckdir = false → s.ctl.ck ≠ 1 → s.ctl.ck ≠ 2 →
     (s.viral = true → exec .checkpointSave s = .next (setCk s 4 5)) ∧
     (s.viral = false → s.ctl.boot ≠ 3 ∨ anyRunning s = true → exec .checkpointSave s = .next (setCk s 4 1)) ∧
     (s.viral = false → s.ctl.boot = 3 → anyRunning s = false →
       let ok := l.wellFormed = true ∧ s.ctl.cklist.toNat % 4096 = 0 ∧ imageLen ≤ l.total
       (¬ok → exec .checkpointSave s = .next (setCk s 4 2)) ∧
       (ok → exec .checkpointSave s = .next { s with ctl := { s.ctl with ck := 1, ckerr := 0, ckn := s.ctl.ckn + 1 } }))) ∧
   (∀ s : State,
     (s.ctl.ckdir = false ∨ s.ctl.ck = 1 ∨ s.ctl.ck = 2 → exec .checkpointRestore s = .next s) ∧
     (s.ctl.ckdir = true → s.ctl.ck ≠ 1 → s.ctl.ck ≠ 2 →
       (s.viral = true → exec .checkpointRestore s = .next (setCk s 4 5)) ∧
       (s.viral = false → s.ctl.boot ≠ 3 ∨ s.ctl.fresh = false → exec .checkpointRestore s = .next (setCk s 4 1)) ∧
       (s.viral = false → s.ctl.boot = 3 → s.ctl.fresh = true →
         (s.image = none → exec .checkpointRestore s = .next (setCk s 4 3)) ∧
         (∀ x, s.image = some x → exec .checkpointRestore s = .next (if imageSound x = false then setCk s 4 3 else if x.ckn = s.ctl.ckn then setCk s 2 0 else setCk s 4 4)))) ∧
     (s.ctl.ck = 1 → let r := flushAll s
       exec .checkpointComplete s = .next (if r.2 then setCk { r.1 with image := some (imageOf r.1) } 3 0 else r.1)) ∧
     (∀ x, s.ctl.ck = 2 → s.image = some x → ∃ t, exec .checkpointComplete s = .next t ∧ t.ctl.ck = 3 ∧
       (let b := cryptBundle x.ckn.toNat x.bundle
        t.keys = bundleKeys b ∧ t.pmode = le b (128 * 136) 1 ∧ t.parts = bundleParts b) ∧
       ∀ d, d < 8 → (dieAt t d).dram = vget [] x.dram d ∧ (dieAt t d).sealMeta = vget [] x.sealMeta d ∧ (dieAt t d).line = vget [] x.line d ∧ (dieAt t d).sc = [] ∧ (dieAt t d).l2 = [] ∧ (dieAt t d).rdc = []) ∧
     (s.ctl.ck ≠ 1 → s.ctl.ck ≠ 2 → exec .checkpointComplete s = .next s)) ∧
   (∀ s : State, let x := imageOf s
     let b := cryptBundle x.ckn.toNat x.bundle
     imageSound x = true ∧ x.ckn = s.ctl.ckn ∧ (∀ d, d < 8 → vget [] x.dram d = (dieAt s d).dram ∧ vget [] x.sealMeta d = (dieAt s d).sealMeta) ∧
       b = plainBundle s ∧ (s.pmode < 256 → le b (128 * 136) 1 = s.pmode) ∧
       (∀ k, k < 128 → (keyAt s k).owner.all (· < 255) = true →
         let y := tblGet KeySlot.reset (bundleKeys b) k
         y.owner = (keyAt s k).owner ∧ y.inst0 = (keyAt s k).inst0 ∧ y.inst1 = (keyAt s k).inst1 ∧ y.cg = (keyAt s k).cg ∧
           ((keyAt s k).users.Nodup → (∀ u ∈ (keyAt s k).users, u < 24) → ∀ u, u ∈ y.users ↔ u ∈ (keyAt s k).users)) ∧
       (∀ p, p < 24 → (partAt s p).st = .none → tblGet? (bundleParts b) p = none) ∧
       (∀ p, p < 24 → (partAt s p).st ≠ .none → ∃ y, tblGet? (bundleParts b) p = some y ∧ y.st = .created ∧ y.saved = [] ∧ y.grps = [] ∧
         y.groups = (partAt s p).groups ∧ y.tkey = (partAt s p).tkey ∧ y.errKey = (partAt s p).errKey ∧ y.sblk = (partAt s p).sblk ∧ y.errq = (partAt s p).errq)))

/-! ### Frames and whole-machine rules -/

/-- The instructions that compute on registers change no byte of memory, no other slot and nothing of partitions, charts, links and switches but the port
buffers they read and write; of their own slot they change no register but their destinations (and a repeat's token at its end), no special register,
and no exception register unless they trap; they clear no flag (08 R164, R167; 09 R194; 10 R215). The instructions that issue an access change no byte
of memory when they issue: their store is made when the access is performed; they change no register but a repeat's token, and add at most their one
access to the slot's, behind all others unless they are a pass (07 R140, R145; 12 R262 to R265, R275). The instructions that compute on accumulators change no byte of memory, no other tile and no
other slot; an accumulator that they do not name, and every stage but that of RSTG, stay as they were (11 R247 to R253). -/
def Obligations.FramesOfSlotInstructions : Prop :=
  (∀ (i : Instr) (s t : State), onRegisters i = true → exec i s = .next t →
     sameMemory s t ∧ sameElsewhere s t ∧ sameSpecial s t ∧ onlyTraps s t ∧
     (∀ p, (tileAt t p).acc = (tileAt s p).acc ∧ (tileAt t p).stage = (tileAt s p).stage) ∧
     (me t).outs = (me s).outs ∧ (me t).replies = (me s).replies ∧
     ∀ r : Reg, ¬written i s r → readReg (me t) r = readReg (me s) r) ∧
  (∀ (i : Instr) (s t : State), issuesAccess i = true → exec i s = .next t →
     sameMemory s t ∧ sameElsewhere s t ∧ sameSpecial s t ∧ onlyTraps s t ∧
     (∀ p, (tileAt t p).acc = (tileAt s p).acc ∧ (tileAt t p).stage = (tileAt s p).stage) ∧
     ((me t).outs = (me s).outs ∨ ∃ a l r, (me s).outs = l ++ r ∧ (me t).outs = l ++ a :: r ∧ a.stage = .issued ∧ (s.cur.pass = false → r = [])) ∧ (me t).replies = (me s).replies ∧
     ∀ r : Reg, ¬(s.cur.pass = true ∧ r = ⟨.s, (me s).rep.tok.toNat⟩) → readReg (me t) r = readReg (me s) r) ∧
  (∀ (i : Instr) (s t : State), onAccumulators i = true → exec i s = .next t →
     sameMemory s t ∧ sameElsewhere s t ∧ sameSpecial s t ∧ onlyTraps s t ∧
     (∀ p, p ≠ s.cur.pos → tileAt t p = tileAt s p) ∧
     (∀ a, a < 4 → (⟨.a, a⟩ : Reg) ∉ srcsOf i ++ dstsOf i → accOf (myTile t) a = accOf (myTile s) a) ∧
     (majorOf i ≠ 0x24 → (myTile t).stage = (myTile s).stage) ∧
     ∀ r : Reg, r.file ≠ .a → ¬written i s r → (∀ d a b w u, i ≠ .rfwd (guardOf i) d a b w u 1 ∨ r ≠ ⟨.s, b.toNat⟩) →
       (∀ d a b, i ≠ .rrev (guardOf i) d a b 1 ∨ r ≠ ⟨.s, b.toNat⟩) → readReg (me t) r = readReg (me s) r)

/-- No core instruction that a slot executes in the user view writes a supervisor register, of any slot or partition, a key slot, or anything of the
management function; and the slot stays in the user view, its supervisor exception registers as they were, unless it enters the supervisor's handler
at STVEC (18 R315, R316, R327). -/
def Obligations.UserViewIsConfined : Prop :=
  ∀ (i : Instr) (s t : State), i.isCore = true → (me s).sstatus.getLsbD 0 = false → exec i s = .next t →
    sameSupervision s t ∧
    ((me t).sstatus = (me s).sstatus ∧ (me t).sepc = (me s).sepc ∧ (me t).scause = (me s).scause ∧ (me t).stval = (me s).stval ∨
      (me t).sstatus = statusAtEntry (me s).sstatus ∧ (me t).pc = ((me s).stvec.setWidth 13).setWidth 14)

/-- Every memory of the package keeps its canonical form in every step: addresses rise strictly and no default byte is listed, so that equal contents are
equal data (the form is the model's representation of the storage of 06, log entry 2). -/
def Obligations.MemoriesStayCanonical : Prop :=
 ∀ s t : State, tidy s = true → step s = .next t → tidy t = true

/-- The package right after reset, its phases done: BOOT 3, CYCLE 0, every slot IDLE with NFC at its reset value, every partition in NONE, mode 0 with no
group owned, every port DOWN, no key installed, every memory and its poison, every table, DRAM and its sidebands zero, every cache empty, no accumulator with a
bound (04 Table 4-3; 23 R416, R417, Table 23-3; what no rule gives a reset value is the model's choice, log entries 1 and 85). At BOOT 4 no tile and no switch
issues: a step that would have one issue is the fault firmwareRejected, the model's choice (log entry 85). Every memory is in canonical form
after reset (the model's representation, log entry 2). -/
def Obligations.ResetState : Prop :=
  (let s := State.reset
   s.ctl.boot = 3 ∧ s.cycle = 0 ∧ s.pmode = 0 ∧ s.viral = false ∧ s.berths = [] ∧ s.domains = [] ∧
     (∀ p k, (slotAt s p k).phase = .idle ∧ (slotAt s p k).nfc = 0xE400 ∧ (slotAt s p k).flags = 0 ∧ (slotAt s p k).sstatus = 0 ∧ (slotAt s p k).outs = []) ∧
     (∀ p a, (∀ x, memGet (tileAt s p).scratch x = 0 ∧ memGet (tileAt s p).scratchP x = 0 ∧ memGet (tileAt s p).bank x = 0 ∧
         memGet (tileAt s p).bankP x = 0 ∧ memGet (tileAt s p).imem x = 0 ∧ memGet (tileAt s p).htab x = 0 ∧ memGet (switchAt s p).rmem x = 0) ∧
       (∀ t : Fin 4, (tileAt s p).dtab[t].valid = false ∧ ∀ x, memGet (tileAt s p).dtab[t].data x = 0) ∧
       (accOf (tileAt s p) a).cells = [] ∧ (accOf (tileAt s p) a).beta = 0 ∧ (tileAt s p).rnsMode = 0 ∧ (tileAt s p).reta = 15 ∧ (tileAt s p).retb = 15) ∧
     (∀ d, (∀ x, memGet (dieAt s d).dram x = 0) ∧ (∀ l, metaOf s l = { st := .I, xd := false, hint := 0, opkg := 0, odie := 0 } ∧ symbolsOf s l = []) ∧
       (∀ b, tblGet SealMeta.reset (dieAt s d).sealMeta b = SealMeta.reset ∧ (SealMeta.reset.count = 0 ∧ SealMeta.reset.tag = 0 ∧ SealMeta.reset.key = 0)) ∧
       (dieAt s d).sc = [] ∧ (dieAt s d).l2 = [] ∧ (dieAt s d).rdc = [] ∧ (dieAt s d).wbuf = [] ∧ (dieAt s d).log = []) ∧
     (∀ p, (partAt s p).st = .none) ∧ (∀ g, groupOwner s g = none) ∧ (∀ j, (portAt s j).st = .down) ∧
     (∀ k g, keysOf s k g = none ∧ (keyAt s k).owner = none) ∧
     (∀ (s' : State) (a : Activity) (as : List Activity), s'.agenda = a :: as → a.issues = true → s'.ctl.boot = 4 → step s' = .fault .firmwareRejected)) ∧
  (tidy State.reset = true)
end

