-- ==== Sys2Proof/Laws/State.lean ====
section
/-!
SUPPORT. What each update of the state leaves of each field: one lemma per update and field.
-/
namespace Sys2Proof.Machine

open Sys2Proof

@[simp] theorem setTile_cycle (s : State) (pos : Nat) (t : Tile) : (setTile s pos t).cycle = s.cycle := rfl
@[simp] theorem setTile_agenda (s : State) (pos : Nat) (t : Tile) : (setTile s pos t).agenda = s.agenda := rfl
@[simp] theorem setTile_deferred (s : State) (pos : Nat) (t : Tile) : (setTile s pos t).deferred = s.deferred := rfl
@[simp] theorem setTile_arg (s : State) (pos : Nat) (t : Tile) : (setTile s pos t).arg = s.arg := rfl
@[simp] theorem setTile_cur (s : State) (pos : Nat) (t : Tile) : (setTile s pos t).cur = s.cur := rfl
@[simp] theorem setTile_fresh (s : State) (pos : Nat) (t : Tile) : (setTile s pos t).fresh = s.fresh := rfl
@[simp] theorem setTile_pkg (s : State) (pos : Nat) (t : Tile) : (setTile s pos t).pkg = s.pkg := rfl
@[simp] theorem setTile_testMode (s : State) (pos : Nat) (t : Tile) : (setTile s pos t).testMode = s.testMode := rfl
@[simp] theorem setTile_viral (s : State) (pos : Nat) (t : Tile) : (setTile s pos t).viral = s.viral := rfl
@[simp] theorem setTile_pmode (s : State) (pos : Nat) (t : Tile) : (setTile s pos t).pmode = s.pmode := rfl
@[simp] theorem setTile_switches (s : State) (pos : Nat) (t : Tile) : (setTile s pos t).switches = s.switches := rfl
@[simp] theorem setTile_quays (s : State) (pos : Nat) (t : Tile) : (setTile s pos t).quays = s.quays := rfl
@[simp] theorem setTile_dies (s : State) (pos : Nat) (t : Tile) : (setTile s pos t).dies = s.dies := rfl
@[simp] theorem setTile_parts (s : State) (pos : Nat) (t : Tile) : (setTile s pos t).parts = s.parts := rfl
@[simp] theorem setTile_keys (s : State) (pos : Nat) (t : Tile) : (setTile s pos t).keys = s.keys := rfl
@[simp] theorem setTile_berths (s : State) (pos : Nat) (t : Tile) : (setTile s pos t).berths = s.berths := rfl
@[simp] theorem setTile_domains (s : State) (pos : Nat) (t : Tile) : (setTile s pos t).domains = s.domains := rfl
@[simp] theorem setTile_nextWork (s : State) (pos : Nat) (t : Tile) : (setTile s pos t).nextWork = s.nextWork := rfl
@[simp] theorem setTile_net (s : State) (pos : Nat) (t : Tile) : (setTile s pos t).net = s.net := rfl
@[simp] theorem setTile_colls (s : State) (pos : Nat) (t : Tile) : (setTile s pos t).colls = s.colls := rfl
@[simp] theorem setTile_ports (s : State) (pos : Nat) (t : Tile) : (setTile s pos t).ports = s.ports := rfl
@[simp] theorem setTile_lostPkgs (s : State) (pos : Nat) (t : Tile) : (setTile s pos t).lostPkgs = s.lostPkgs := rfl
@[simp] theorem setTile_ctl (s : State) (pos : Nat) (t : Tile) : (setTile s pos t).ctl = s.ctl := rfl
@[simp] theorem setTile_mgmt (s : State) (pos : Nat) (t : Tile) : (setTile s pos t).mgmt = s.mgmt := rfl
@[simp] theorem setTile_vfs (s : State) (pos : Nat) (t : Tile) : (setTile s pos t).vfs = s.vfs := rfl
@[simp] theorem setTile_irqs (s : State) (pos : Nat) (t : Tile) : (setTile s pos t).irqs = s.irqs := rfl
@[simp] theorem setTile_hostOut (s : State) (pos : Nat) (t : Tile) : (setTile s pos t).hostOut = s.hostOut := rfl
@[simp] theorem setTile_image (s : State) (pos : Nat) (t : Tile) : (setTile s pos t).image = s.image := rfl
@[simp] theorem setTile_recs (s : State) (pos : Nat) (t : Tile) : (setTile s pos t).recs = s.recs := rfl
@[simp] theorem setTile_hawsers (s : State) (pos : Nat) (t : Tile) : (setTile s pos t).hawsers = s.hawsers := rfl
@[simp] theorem setTile_bills (s : State) (pos : Nat) (t : Tile) : (setTile s pos t).bills = s.bills := rfl
@[simp] theorem setTile_fetched (s : State) (pos : Nat) (t : Tile) : (setTile s pos t).fetched = s.fetched := rfl

@[simp] theorem setSlot_cycle (s : State) (pos k : Nat) (x : Slot) : (setSlot s pos k x).cycle = s.cycle := rfl
@[simp] theorem setSlot_agenda (s : State) (pos k : Nat) (x : Slot) : (setSlot s pos k x).agenda = s.agenda := rfl
@[simp] theorem setSlot_deferred (s : State) (pos k : Nat) (x : Slot) : (setSlot s pos k x).deferred = s.deferred := rfl
@[simp] theorem setSlot_arg (s : State) (pos k : Nat) (x : Slot) : (setSlot s pos k x).arg = s.arg := rfl
@[simp] theorem setSlot_cur (s : State) (pos k : Nat) (x : Slot) : (setSlot s pos k x).cur = s.cur := rfl
@[simp] theorem setSlot_fresh (s : State) (pos k : Nat) (x : Slot) : (setSlot s pos k x).fresh = s.fresh := rfl
@[simp] theorem setSlot_pkg (s : State) (pos k : Nat) (x : Slot) : (setSlot s pos k x).pkg = s.pkg := rfl
@[simp] theorem setSlot_testMode (s : State) (pos k : Nat) (x : Slot) : (setSlot s pos k x).testMode = s.testMode := rfl
@[simp] theorem setSlot_viral (s : State) (pos k : Nat) (x : Slot) : (setSlot s pos k x).viral = s.viral := rfl
@[simp] theorem setSlot_pmode (s : State) (pos k : Nat) (x : Slot) : (setSlot s pos k x).pmode = s.pmode := rfl
@[simp] theorem setSlot_switches (s : State) (pos k : Nat) (x : Slot) : (setSlot s pos k x).switches = s.switches := rfl
@[simp] theorem setSlot_quays (s : State) (pos k : Nat) (x : Slot) : (setSlot s pos k x).quays = s.quays := rfl
@[simp] theorem setSlot_dies (s : State) (pos k : Nat) (x : Slot) : (setSlot s pos k x).dies = s.dies := rfl
@[simp] theorem setSlot_parts (s : State) (pos k : Nat) (x : Slot) : (setSlot s pos k x).parts = s.parts := rfl
@[simp] theorem setSlot_keys (s : State) (pos k : Nat) (x : Slot) : (setSlot s pos k x).keys = s.keys := rfl
@[simp] theorem setSlot_berths (s : State) (pos k : Nat) (x : Slot) : (setSlot s pos k x).berths = s.berths := rfl
@[simp] theorem setSlot_domains (s : State) (pos k : Nat) (x : Slot) : (setSlot s pos k x).domains = s.domains := rfl
@[simp] theorem setSlot_nextWork (s : State) (pos k : Nat) (x : Slot) : (setSlot s pos k x).nextWork = s.nextWork := rfl
@[simp] theorem setSlot_net (s : State) (pos k : Nat) (x : Slot) : (setSlot s pos k x).net = s.net := rfl
@[simp] theorem setSlot_colls (s : State) (pos k : Nat) (x : Slot) : (setSlot s pos k x).colls = s.colls := rfl
@[simp] theorem setSlot_ports (s : State) (pos k : Nat) (x : Slot) : (setSlot s pos k x).ports = s.ports := rfl
@[simp] theorem setSlot_lostPkgs (s : State) (pos k : Nat) (x : Slot) : (setSlot s pos k x).lostPkgs = s.lostPkgs := rfl
@[simp] theorem setSlot_ctl (s : State) (pos k : Nat) (x : Slot) : (setSlot s pos k x).ctl = s.ctl := rfl
@[simp] theorem setSlot_mgmt (s : State) (pos k : Nat) (x : Slot) : (setSlot s pos k x).mgmt = s.mgmt := rfl
@[simp] theorem setSlot_vfs (s : State) (pos k : Nat) (x : Slot) : (setSlot s pos k x).vfs = s.vfs := rfl
@[simp] theorem setSlot_irqs (s : State) (pos k : Nat) (x : Slot) : (setSlot s pos k x).irqs = s.irqs := rfl
@[simp] theorem setSlot_hostOut (s : State) (pos k : Nat) (x : Slot) : (setSlot s pos k x).hostOut = s.hostOut := rfl
@[simp] theorem setSlot_image (s : State) (pos k : Nat) (x : Slot) : (setSlot s pos k x).image = s.image := rfl
@[simp] theorem setSlot_recs (s : State) (pos k : Nat) (x : Slot) : (setSlot s pos k x).recs = s.recs := rfl
@[simp] theorem setSlot_hawsers (s : State) (pos k : Nat) (x : Slot) : (setSlot s pos k x).hawsers = s.hawsers := rfl
@[simp] theorem setSlot_bills (s : State) (pos k : Nat) (x : Slot) : (setSlot s pos k x).bills = s.bills := rfl
@[simp] theorem setSlot_fetched (s : State) (pos k : Nat) (x : Slot) : (setSlot s pos k x).fetched = s.fetched := rfl

@[simp] theorem setSwitch_cycle (s : State) (pos : Nat) (w : Switch) : (setSwitch s pos w).cycle = s.cycle := rfl
@[simp] theorem setSwitch_agenda (s : State) (pos : Nat) (w : Switch) : (setSwitch s pos w).agenda = s.agenda := rfl
@[simp] theorem setSwitch_deferred (s : State) (pos : Nat) (w : Switch) : (setSwitch s pos w).deferred = s.deferred := rfl
@[simp] theorem setSwitch_arg (s : State) (pos : Nat) (w : Switch) : (setSwitch s pos w).arg = s.arg := rfl
@[simp] theorem setSwitch_cur (s : State) (pos : Nat) (w : Switch) : (setSwitch s pos w).cur = s.cur := rfl
@[simp] theorem setSwitch_fresh (s : State) (pos : Nat) (w : Switch) : (setSwitch s pos w).fresh = s.fresh := rfl
@[simp] theorem setSwitch_pkg (s : State) (pos : Nat) (w : Switch) : (setSwitch s pos w).pkg = s.pkg := rfl
@[simp] theorem setSwitch_testMode (s : State) (pos : Nat) (w : Switch) : (setSwitch s pos w).testMode = s.testMode := rfl
@[simp] theorem setSwitch_viral (s : State) (pos : Nat) (w : Switch) : (setSwitch s pos w).viral = s.viral := rfl
@[simp] theorem setSwitch_pmode (s : State) (pos : Nat) (w : Switch) : (setSwitch s pos w).pmode = s.pmode := rfl
@[simp] theorem setSwitch_tiles (s : State) (pos : Nat) (w : Switch) : (setSwitch s pos w).tiles = s.tiles := rfl
@[simp] theorem setSwitch_quays (s : State) (pos : Nat) (w : Switch) : (setSwitch s pos w).quays = s.quays := rfl
@[simp] theorem setSwitch_dies (s : State) (pos : Nat) (w : Switch) : (setSwitch s pos w).dies = s.dies := rfl
@[simp] theorem setSwitch_parts (s : State) (pos : Nat) (w : Switch) : (setSwitch s pos w).parts = s.parts := rfl
@[simp] theorem setSwitch_keys (s : State) (pos : Nat) (w : Switch) : (setSwitch s pos w).keys = s.keys := rfl
@[simp] theorem setSwitch_berths (s : State) (pos : Nat) (w : Switch) : (setSwitch s pos w).berths = s.berths := rfl
@[simp] theorem setSwitch_domains (s : State) (pos : Nat) (w : Switch) : (setSwitch s pos w).domains = s.domains := rfl
@[simp] theorem setSwitch_nextWork (s : State) (pos : Nat) (w : Switch) : (setSwitch s pos w).nextWork = s.nextWork := rfl
@[simp] theorem setSwitch_net (s : State) (pos : Nat) (w : Switch) : (setSwitch s pos w).net = s.net := rfl
@[simp] theorem setSwitch_colls (s : State) (pos : Nat) (w : Switch) : (setSwitch s pos w).colls = s.colls := rfl
@[simp] theorem setSwitch_ports (s : State) (pos : Nat) (w : Switch) : (setSwitch s pos w).ports = s.ports := rfl
@[simp] theorem setSwitch_lostPkgs (s : State) (pos : Nat) (w : Switch) : (setSwitch s pos w).lostPkgs = s.lostPkgs := rfl
@[simp] theorem setSwitch_ctl (s : State) (pos : Nat) (w : Switch) : (setSwitch s pos w).ctl = s.ctl := rfl
@[simp] theorem setSwitch_mgmt (s : State) (pos : Nat) (w : Switch) : (setSwitch s pos w).mgmt = s.mgmt := rfl
@[simp] theorem setSwitch_vfs (s : State) (pos : Nat) (w : Switch) : (setSwitch s pos w).vfs = s.vfs := rfl
@[simp] theorem setSwitch_irqs (s : State) (pos : Nat) (w : Switch) : (setSwitch s pos w).irqs = s.irqs := rfl
@[simp] theorem setSwitch_hostOut (s : State) (pos : Nat) (w : Switch) : (setSwitch s pos w).hostOut = s.hostOut := rfl
@[simp] theorem setSwitch_image (s : State) (pos : Nat) (w : Switch) : (setSwitch s pos w).image = s.image := rfl
@[simp] theorem setSwitch_recs (s : State) (pos : Nat) (w : Switch) : (setSwitch s pos w).recs = s.recs := rfl
@[simp] theorem setSwitch_hawsers (s : State) (pos : Nat) (w : Switch) : (setSwitch s pos w).hawsers = s.hawsers := rfl
@[simp] theorem setSwitch_bills (s : State) (pos : Nat) (w : Switch) : (setSwitch s pos w).bills = s.bills := rfl
@[simp] theorem setSwitch_fetched (s : State) (pos : Nat) (w : Switch) : (setSwitch s pos w).fetched = s.fetched := rfl

@[simp] theorem setQuay_cycle (s : State) (pos : Nat) (q : Quay) : (setQuay s pos q).cycle = s.cycle := rfl
@[simp] theorem setQuay_agenda (s : State) (pos : Nat) (q : Quay) : (setQuay s pos q).agenda = s.agenda := rfl
@[simp] theorem setQuay_deferred (s : State) (pos : Nat) (q : Quay) : (setQuay s pos q).deferred = s.deferred := rfl
@[simp] theorem setQuay_arg (s : State) (pos : Nat) (q : Quay) : (setQuay s pos q).arg = s.arg := rfl
@[simp] theorem setQuay_cur (s : State) (pos : Nat) (q : Quay) : (setQuay s pos q).cur = s.cur := rfl
@[simp] theorem setQuay_fresh (s : State) (pos : Nat) (q : Quay) : (setQuay s pos q).fresh = s.fresh := rfl
@[simp] theorem setQuay_pkg (s : State) (pos : Nat) (q : Quay) : (setQuay s pos q).pkg = s.pkg := rfl
@[simp] theorem setQuay_testMode (s : State) (pos : Nat) (q : Quay) : (setQuay s pos q).testMode = s.testMode := rfl
@[simp] theorem setQuay_viral (s : State) (pos : Nat) (q : Quay) : (setQuay s pos q).viral = s.viral := rfl
@[simp] theorem setQuay_pmode (s : State) (pos : Nat) (q : Quay) : (setQuay s pos q).pmode = s.pmode := rfl
@[simp] theorem setQuay_tiles (s : State) (pos : Nat) (q : Quay) : (setQuay s pos q).tiles = s.tiles := rfl
@[simp] theorem setQuay_switches (s : State) (pos : Nat) (q : Quay) : (setQuay s pos q).switches = s.switches := rfl
@[simp] theorem setQuay_dies (s : State) (pos : Nat) (q : Quay) : (setQuay s pos q).dies = s.dies := rfl
@[simp] theorem setQuay_parts (s : State) (pos : Nat) (q : Quay) : (setQuay s pos q).parts = s.parts := rfl
@[simp] theorem setQuay_keys (s : State) (pos : Nat) (q : Quay) : (setQuay s pos q).keys = s.keys := rfl
@[simp] theorem setQuay_berths (s : State) (pos : Nat) (q : Quay) : (setQuay s pos q).berths = s.berths := rfl
@[simp] theorem setQuay_domains (s : State) (pos : Nat) (q : Quay) : (setQuay s pos q).domains = s.domains := rfl
@[simp] theorem setQuay_nextWork (s : State) (pos : Nat) (q : Quay) : (setQuay s pos q).nextWork = s.nextWork := rfl
@[simp] theorem setQuay_net (s : State) (pos : Nat) (q : Quay) : (setQuay s pos q).net = s.net := rfl
@[simp] theorem setQuay_colls (s : State) (pos : Nat) (q : Quay) : (setQuay s pos q).colls = s.colls := rfl
@[simp] theorem setQuay_ports (s : State) (pos : Nat) (q : Quay) : (setQuay s pos q).ports = s.ports := rfl
@[simp] theorem setQuay_lostPkgs (s : State) (pos : Nat) (q : Quay) : (setQuay s pos q).lostPkgs = s.lostPkgs := rfl
@[simp] theorem setQuay_ctl (s : State) (pos : Nat) (q : Quay) : (setQuay s pos q).ctl = s.ctl := rfl
@[simp] theorem setQuay_mgmt (s : State) (pos : Nat) (q : Quay) : (setQuay s pos q).mgmt = s.mgmt := rfl
@[simp] theorem setQuay_vfs (s : State) (pos : Nat) (q : Quay) : (setQuay s pos q).vfs = s.vfs := rfl
@[simp] theorem setQuay_irqs (s : State) (pos : Nat) (q : Quay) : (setQuay s pos q).irqs = s.irqs := rfl
@[simp] theorem setQuay_hostOut (s : State) (pos : Nat) (q : Quay) : (setQuay s pos q).hostOut = s.hostOut := rfl
@[simp] theorem setQuay_image (s : State) (pos : Nat) (q : Quay) : (setQuay s pos q).image = s.image := rfl
@[simp] theorem setQuay_recs (s : State) (pos : Nat) (q : Quay) : (setQuay s pos q).recs = s.recs := rfl
@[simp] theorem setQuay_hawsers (s : State) (pos : Nat) (q : Quay) : (setQuay s pos q).hawsers = s.hawsers := rfl
@[simp] theorem setQuay_bills (s : State) (pos : Nat) (q : Quay) : (setQuay s pos q).bills = s.bills := rfl
@[simp] theorem setQuay_fetched (s : State) (pos : Nat) (q : Quay) : (setQuay s pos q).fetched = s.fetched := rfl

@[simp] theorem setDie_cycle (s : State) (d : Nat) (x : Die) : (setDie s d x).cycle = s.cycle := rfl
@[simp] theorem setDie_agenda (s : State) (d : Nat) (x : Die) : (setDie s d x).agenda = s.agenda := rfl
@[simp] theorem setDie_deferred (s : State) (d : Nat) (x : Die) : (setDie s d x).deferred = s.deferred := rfl
@[simp] theorem setDie_arg (s : State) (d : Nat) (x : Die) : (setDie s d x).arg = s.arg := rfl
@[simp] theorem setDie_cur (s : State) (d : Nat) (x : Die) : (setDie s d x).cur = s.cur := rfl
@[simp] theorem setDie_fresh (s : State) (d : Nat) (x : Die) : (setDie s d x).fresh = s.fresh := rfl
@[simp] theorem setDie_pkg (s : State) (d : Nat) (x : Die) : (setDie s d x).pkg = s.pkg := rfl
@[simp] theorem setDie_testMode (s : State) (d : Nat) (x : Die) : (setDie s d x).testMode = s.testMode := rfl
@[simp] theorem setDie_viral (s : State) (d : Nat) (x : Die) : (setDie s d x).viral = s.viral := rfl
@[simp] theorem setDie_pmode (s : State) (d : Nat) (x : Die) : (setDie s d x).pmode = s.pmode := rfl
@[simp] theorem setDie_tiles (s : State) (d : Nat) (x : Die) : (setDie s d x).tiles = s.tiles := rfl
@[simp] theorem setDie_switches (s : State) (d : Nat) (x : Die) : (setDie s d x).switches = s.switches := rfl
@[simp] theorem setDie_quays (s : State) (d : Nat) (x : Die) : (setDie s d x).quays = s.quays := rfl
@[simp] theorem setDie_parts (s : State) (d : Nat) (x : Die) : (setDie s d x).parts = s.parts := rfl
@[simp] theorem setDie_keys (s : State) (d : Nat) (x : Die) : (setDie s d x).keys = s.keys := rfl
@[simp] theorem setDie_berths (s : State) (d : Nat) (x : Die) : (setDie s d x).berths = s.berths := rfl
@[simp] theorem setDie_domains (s : State) (d : Nat) (x : Die) : (setDie s d x).domains = s.domains := rfl
@[simp] theorem setDie_nextWork (s : State) (d : Nat) (x : Die) : (setDie s d x).nextWork = s.nextWork := rfl
@[simp] theorem setDie_net (s : State) (d : Nat) (x : Die) : (setDie s d x).net = s.net := rfl
@[simp] theorem setDie_colls (s : State) (d : Nat) (x : Die) : (setDie s d x).colls = s.colls := rfl
@[simp] theorem setDie_ports (s : State) (d : Nat) (x : Die) : (setDie s d x).ports = s.ports := rfl
@[simp] theorem setDie_lostPkgs (s : State) (d : Nat) (x : Die) : (setDie s d x).lostPkgs = s.lostPkgs := rfl
@[simp] theorem setDie_ctl (s : State) (d : Nat) (x : Die) : (setDie s d x).ctl = s.ctl := rfl
@[simp] theorem setDie_mgmt (s : State) (d : Nat) (x : Die) : (setDie s d x).mgmt = s.mgmt := rfl
@[simp] theorem setDie_vfs (s : State) (d : Nat) (x : Die) : (setDie s d x).vfs = s.vfs := rfl
@[simp] theorem setDie_irqs (s : State) (d : Nat) (x : Die) : (setDie s d x).irqs = s.irqs := rfl
@[simp] theorem setDie_hostOut (s : State) (d : Nat) (x : Die) : (setDie s d x).hostOut = s.hostOut := rfl
@[simp] theorem setDie_image (s : State) (d : Nat) (x : Die) : (setDie s d x).image = s.image := rfl
@[simp] theorem setDie_recs (s : State) (d : Nat) (x : Die) : (setDie s d x).recs = s.recs := rfl
@[simp] theorem setDie_hawsers (s : State) (d : Nat) (x : Die) : (setDie s d x).hawsers = s.hawsers := rfl
@[simp] theorem setDie_bills (s : State) (d : Nat) (x : Die) : (setDie s d x).bills = s.bills := rfl
@[simp] theorem setDie_fetched (s : State) (d : Nat) (x : Die) : (setDie s d x).fetched = s.fetched := rfl

@[simp] theorem setPart_cycle (s : State) (p : Nat) (x : Part) : (setPart s p x).cycle = s.cycle := rfl
@[simp] theorem setPart_agenda (s : State) (p : Nat) (x : Part) : (setPart s p x).agenda = s.agenda := rfl
@[simp] theorem setPart_deferred (s : State) (p : Nat) (x : Part) : (setPart s p x).deferred = s.deferred := rfl
@[simp] theorem setPart_arg (s : State) (p : Nat) (x : Part) : (setPart s p x).arg = s.arg := rfl
@[simp] theorem setPart_cur (s : State) (p : Nat) (x : Part) : (setPart s p x).cur = s.cur := rfl
@[simp] theorem setPart_fresh (s : State) (p : Nat) (x : Part) : (setPart s p x).fresh = s.fresh := rfl
@[simp] theorem setPart_pkg (s : State) (p : Nat) (x : Part) : (setPart s p x).pkg = s.pkg := rfl
@[simp] theorem setPart_testMode (s : State) (p : Nat) (x : Part) : (setPart s p x).testMode = s.testMode := rfl
@[simp] theorem setPart_viral (s : State) (p : Nat) (x : Part) : (setPart s p x).viral = s.viral := rfl
@[simp] theorem setPart_pmode (s : State) (p : Nat) (x : Part) : (setPart s p x).pmode = s.pmode := rfl
@[simp] theorem setPart_tiles (s : State) (p : Nat) (x : Part) : (setPart s p x).tiles = s.tiles := rfl
@[simp] theorem setPart_switches (s : State) (p : Nat) (x : Part) : (setPart s p x).switches = s.switches := rfl
@[simp] theorem setPart_quays (s : State) (p : Nat) (x : Part) : (setPart s p x).quays = s.quays := rfl
@[simp] theorem setPart_dies (s : State) (p : Nat) (x : Part) : (setPart s p x).dies = s.dies := rfl
@[simp] theorem setPart_keys (s : State) (p : Nat) (x : Part) : (setPart s p x).keys = s.keys := rfl
@[simp] theorem setPart_berths (s : State) (p : Nat) (x : Part) : (setPart s p x).berths = s.berths := rfl
@[simp] theorem setPart_domains (s : State) (p : Nat) (x : Part) : (setPart s p x).domains = s.domains := rfl
@[simp] theorem setPart_nextWork (s : State) (p : Nat) (x : Part) : (setPart s p x).nextWork = s.nextWork := rfl
@[simp] theorem setPart_net (s : State) (p : Nat) (x : Part) : (setPart s p x).net = s.net := rfl
@[simp] theorem setPart_colls (s : State) (p : Nat) (x : Part) : (setPart s p x).colls = s.colls := rfl
@[simp] theorem setPart_ports (s : State) (p : Nat) (x : Part) : (setPart s p x).ports = s.ports := rfl
@[simp] theorem setPart_lostPkgs (s : State) (p : Nat) (x : Part) : (setPart s p x).lostPkgs = s.lostPkgs := rfl
@[simp] theorem setPart_ctl (s : State) (p : Nat) (x : Part) : (setPart s p x).ctl = s.ctl := rfl
@[simp] theorem setPart_mgmt (s : State) (p : Nat) (x : Part) : (setPart s p x).mgmt = s.mgmt := rfl
@[simp] theorem setPart_vfs (s : State) (p : Nat) (x : Part) : (setPart s p x).vfs = s.vfs := rfl
@[simp] theorem setPart_irqs (s : State) (p : Nat) (x : Part) : (setPart s p x).irqs = s.irqs := rfl
@[simp] theorem setPart_hostOut (s : State) (p : Nat) (x : Part) : (setPart s p x).hostOut = s.hostOut := rfl
@[simp] theorem setPart_image (s : State) (p : Nat) (x : Part) : (setPart s p x).image = s.image := rfl
@[simp] theorem setPart_recs (s : State) (p : Nat) (x : Part) : (setPart s p x).recs = s.recs := rfl
@[simp] theorem setPart_hawsers (s : State) (p : Nat) (x : Part) : (setPart s p x).hawsers = s.hawsers := rfl
@[simp] theorem setPart_bills (s : State) (p : Nat) (x : Part) : (setPart s p x).bills = s.bills := rfl
@[simp] theorem setPart_fetched (s : State) (p : Nat) (x : Part) : (setPart s p x).fetched = s.fetched := rfl

@[simp] theorem setMe_cycle (s : State) (x : Slot) : (setMe s x).cycle = s.cycle := rfl
@[simp] theorem setMe_agenda (s : State) (x : Slot) : (setMe s x).agenda = s.agenda := rfl
@[simp] theorem setMe_deferred (s : State) (x : Slot) : (setMe s x).deferred = s.deferred := rfl
@[simp] theorem setMe_arg (s : State) (x : Slot) : (setMe s x).arg = s.arg := rfl
@[simp] theorem setMe_cur (s : State) (x : Slot) : (setMe s x).cur = s.cur := rfl
@[simp] theorem setMe_fresh (s : State) (x : Slot) : (setMe s x).fresh = s.fresh := rfl
@[simp] theorem setMe_pkg (s : State) (x : Slot) : (setMe s x).pkg = s.pkg := rfl
@[simp] theorem setMe_testMode (s : State) (x : Slot) : (setMe s x).testMode = s.testMode := rfl
@[simp] theorem setMe_viral (s : State) (x : Slot) : (setMe s x).viral = s.viral := rfl
@[simp] theorem setMe_pmode (s : State) (x : Slot) : (setMe s x).pmode = s.pmode := rfl
@[simp] theorem setMe_switches (s : State) (x : Slot) : (setMe s x).switches = s.switches := rfl
@[simp] theorem setMe_quays (s : State) (x : Slot) : (setMe s x).quays = s.quays := rfl
@[simp] theorem setMe_dies (s : State) (x : Slot) : (setMe s x).dies = s.dies := rfl
@[simp] theorem setMe_parts (s : State) (x : Slot) : (setMe s x).parts = s.parts := rfl
@[simp] theorem setMe_keys (s : State) (x : Slot) : (setMe s x).keys = s.keys := rfl
@[simp] theorem setMe_berths (s : State) (x : Slot) : (setMe s x).berths = s.berths := rfl
@[simp] theorem setMe_domains (s : State) (x : Slot) : (setMe s x).domains = s.domains := rfl
@[simp] theorem setMe_nextWork (s : State) (x : Slot) : (setMe s x).nextWork = s.nextWork := rfl
@[simp] theorem setMe_net (s : State) (x : Slot) : (setMe s x).net = s.net := rfl
@[simp] theorem setMe_colls (s : State) (x : Slot) : (setMe s x).colls = s.colls := rfl
@[simp] theorem setMe_ports (s : State) (x : Slot) : (setMe s x).ports = s.ports := rfl
@[simp] theorem setMe_lostPkgs (s : State) (x : Slot) : (setMe s x).lostPkgs = s.lostPkgs := rfl
@[simp] theorem setMe_ctl (s : State) (x : Slot) : (setMe s x).ctl = s.ctl := rfl
@[simp] theorem setMe_mgmt (s : State) (x : Slot) : (setMe s x).mgmt = s.mgmt := rfl
@[simp] theorem setMe_vfs (s : State) (x : Slot) : (setMe s x).vfs = s.vfs := rfl
@[simp] theorem setMe_irqs (s : State) (x : Slot) : (setMe s x).irqs = s.irqs := rfl
@[simp] theorem setMe_hostOut (s : State) (x : Slot) : (setMe s x).hostOut = s.hostOut := rfl
@[simp] theorem setMe_image (s : State) (x : Slot) : (setMe s x).image = s.image := rfl
@[simp] theorem setMe_recs (s : State) (x : Slot) : (setMe s x).recs = s.recs := rfl
@[simp] theorem setMe_hawsers (s : State) (x : Slot) : (setMe s x).hawsers = s.hawsers := rfl
@[simp] theorem setMe_bills (s : State) (x : Slot) : (setMe s x).bills = s.bills := rfl
@[simp] theorem setMe_fetched (s : State) (x : Slot) : (setMe s x).fetched = s.fetched := rfl

@[simp] theorem setMyTile_cycle (s : State) (t : Tile) : (setMyTile s t).cycle = s.cycle := rfl
@[simp] theorem setMyTile_agenda (s : State) (t : Tile) : (setMyTile s t).agenda = s.agenda := rfl
@[simp] theorem setMyTile_deferred (s : State) (t : Tile) : (setMyTile s t).deferred = s.deferred := rfl
@[simp] theorem setMyTile_arg (s : State) (t : Tile) : (setMyTile s t).arg = s.arg := rfl
@[simp] theorem setMyTile_cur (s : State) (t : Tile) : (setMyTile s t).cur = s.cur := rfl
@[simp] theorem setMyTile_fresh (s : State) (t : Tile) : (setMyTile s t).fresh = s.fresh := rfl
@[simp] theorem setMyTile_pkg (s : State) (t : Tile) : (setMyTile s t).pkg = s.pkg := rfl
@[simp] theorem setMyTile_testMode (s : State) (t : Tile) : (setMyTile s t).testMode = s.testMode := rfl
@[simp] theorem setMyTile_viral (s : State) (t : Tile) : (setMyTile s t).viral = s.viral := rfl
@[simp] theorem setMyTile_pmode (s : State) (t : Tile) : (setMyTile s t).pmode = s.pmode := rfl
@[simp] theorem setMyTile_switches (s : State) (t : Tile) : (setMyTile s t).switches = s.switches := rfl
@[simp] theorem setMyTile_quays (s : State) (t : Tile) : (setMyTile s t).quays = s.quays := rfl
@[simp] theorem setMyTile_dies (s : State) (t : Tile) : (setMyTile s t).dies = s.dies := rfl
@[simp] theorem setMyTile_parts (s : State) (t : Tile) : (setMyTile s t).parts = s.parts := rfl
@[simp] theorem setMyTile_keys (s : State) (t : Tile) : (setMyTile s t).keys = s.keys := rfl
@[simp] theorem setMyTile_berths (s : State) (t : Tile) : (setMyTile s t).berths = s.berths := rfl
@[simp] theorem setMyTile_domains (s : State) (t : Tile) : (setMyTile s t).domains = s.domains := rfl
@[simp] theorem setMyTile_nextWork (s : State) (t : Tile) : (setMyTile s t).nextWork = s.nextWork := rfl
@[simp] theorem setMyTile_net (s : State) (t : Tile) : (setMyTile s t).net = s.net := rfl
@[simp] theorem setMyTile_colls (s : State) (t : Tile) : (setMyTile s t).colls = s.colls := rfl
@[simp] theorem setMyTile_ports (s : State) (t : Tile) : (setMyTile s t).ports = s.ports := rfl
@[simp] theorem setMyTile_lostPkgs (s : State) (t : Tile) : (setMyTile s t).lostPkgs = s.lostPkgs := rfl
@[simp] theorem setMyTile_ctl (s : State) (t : Tile) : (setMyTile s t).ctl = s.ctl := rfl
@[simp] theorem setMyTile_mgmt (s : State) (t : Tile) : (setMyTile s t).mgmt = s.mgmt := rfl
@[simp] theorem setMyTile_vfs (s : State) (t : Tile) : (setMyTile s t).vfs = s.vfs := rfl
@[simp] theorem setMyTile_irqs (s : State) (t : Tile) : (setMyTile s t).irqs = s.irqs := rfl
@[simp] theorem setMyTile_hostOut (s : State) (t : Tile) : (setMyTile s t).hostOut = s.hostOut := rfl
@[simp] theorem setMyTile_image (s : State) (t : Tile) : (setMyTile s t).image = s.image := rfl
@[simp] theorem setMyTile_recs (s : State) (t : Tile) : (setMyTile s t).recs = s.recs := rfl
@[simp] theorem setMyTile_hawsers (s : State) (t : Tile) : (setMyTile s t).hawsers = s.hawsers := rfl
@[simp] theorem setMyTile_bills (s : State) (t : Tile) : (setMyTile s t).bills = s.bills := rfl
@[simp] theorem setMyTile_fetched (s : State) (t : Tile) : (setMyTile s t).fetched = s.fetched := rfl

@[simp] theorem stalled_cycle (s : State) : (stalled s).cycle = s.cycle := rfl
@[simp] theorem stalled_agenda (s : State) : (stalled s).agenda = s.agenda := rfl
@[simp] theorem stalled_deferred (s : State) : (stalled s).deferred = s.deferred := rfl
@[simp] theorem stalled_arg (s : State) : (stalled s).arg = s.arg := rfl
@[simp] theorem stalled_fresh (s : State) : (stalled s).fresh = s.fresh := rfl
@[simp] theorem stalled_pkg (s : State) : (stalled s).pkg = s.pkg := rfl
@[simp] theorem stalled_testMode (s : State) : (stalled s).testMode = s.testMode := rfl
@[simp] theorem stalled_viral (s : State) : (stalled s).viral = s.viral := rfl
@[simp] theorem stalled_pmode (s : State) : (stalled s).pmode = s.pmode := rfl
@[simp] theorem stalled_tiles (s : State) : (stalled s).tiles = s.tiles := rfl
@[simp] theorem stalled_switches (s : State) : (stalled s).switches = s.switches := rfl
@[simp] theorem stalled_quays (s : State) : (stalled s).quays = s.quays := rfl
@[simp] theorem stalled_dies (s : State) : (stalled s).dies = s.dies := rfl
@[simp] theorem stalled_parts (s : State) : (stalled s).parts = s.parts := rfl
@[simp] theorem stalled_keys (s : State) : (stalled s).keys = s.keys := rfl
@[simp] theorem stalled_berths (s : State) : (stalled s).berths = s.berths := rfl
@[simp] theorem stalled_domains (s : State) : (stalled s).domains = s.domains := rfl
@[simp] theorem stalled_nextWork (s : State) : (stalled s).nextWork = s.nextWork := rfl
@[simp] theorem stalled_net (s : State) : (stalled s).net = s.net := rfl
@[simp] theorem stalled_colls (s : State) : (stalled s).colls = s.colls := rfl
@[simp] theorem stalled_ports (s : State) : (stalled s).ports = s.ports := rfl
@[simp] theorem stalled_lostPkgs (s : State) : (stalled s).lostPkgs = s.lostPkgs := rfl
@[simp] theorem stalled_ctl (s : State) : (stalled s).ctl = s.ctl := rfl
@[simp] theorem stalled_mgmt (s : State) : (stalled s).mgmt = s.mgmt := rfl
@[simp] theorem stalled_vfs (s : State) : (stalled s).vfs = s.vfs := rfl
@[simp] theorem stalled_irqs (s : State) : (stalled s).irqs = s.irqs := rfl
@[simp] theorem stalled_hostOut (s : State) : (stalled s).hostOut = s.hostOut := rfl
@[simp] theorem stalled_image (s : State) : (stalled s).image = s.image := rfl
@[simp] theorem stalled_recs (s : State) : (stalled s).recs = s.recs := rfl
@[simp] theorem stalled_hawsers (s : State) : (stalled s).hawsers = s.hawsers := rfl
@[simp] theorem stalled_bills (s : State) : (stalled s).bills = s.bills := rfl
@[simp] theorem stalled_fetched (s : State) : (stalled s).fetched = s.fetched := rfl

@[simp] theorem setTile_tiles (s : State) (pos : Nat) (t : Tile) : (setTile s pos t).tiles = tblSet s.tiles pos t := rfl
@[simp] theorem setSwitch_switches (s : State) (pos : Nat) (w : Switch) : (setSwitch s pos w).switches = tblSet s.switches pos w := rfl
@[simp] theorem setQuay_quays (s : State) (pos : Nat) (q : Quay) : (setQuay s pos q).quays = tblSet s.quays pos q := rfl
@[simp] theorem setPart_parts (s : State) (p : Nat) (x : Part) : (setPart s p x).parts = tblSet s.parts p x := rfl
@[simp] theorem stalled_stalled (s : State) : (stalled s).cur.stalled = true := rfl
@[simp] theorem stalled_pos (s : State) : (stalled s).cur.pos = s.cur.pos := rfl
@[simp] theorem stalled_slot (s : State) : (stalled s).cur.slot = s.cur.slot := rfl

end Sys2Proof.Machine
end

