-- ==== Sys2Proof/Laws/Table.lean ====
section
/-!
SUPPORT. Memories and tables: what a read gives after a write, and that every write keeps the canonical form.
-/
namespace Sys2Proof.Machine

open Sys2Proof

/-! ### Tables -/

/-- The key that was set holds the value that was set. -/
@[simp] theorem tblGet?_set_same {α : Type} (t : Tbl α) (a : Nat) (v : α) : tblGet? (tblSet t a v) a = some v := by
  induction t with
  | nil => simp [tblSet, tblGet?]
  | cons e t ih =>
    obtain ⟨k, w⟩ := e
    by_cases h : a = k
    · simp [tblSet, tblGet?, h]
    · by_cases h2 : a < k
      · simp [tblSet, tblGet?, h, h2]
      · simp [tblSet, tblGet?, h, h2, ih]

/-- Every other key keeps its value. -/
theorem tblGet?_set_other {α : Type} (t : Tbl α) (a b : Nat) (v : α) (h : b ≠ a) : tblGet? (tblSet t a v) b = tblGet? t b := by
  induction t with
  | nil => simp [tblSet, tblGet?, h]
  | cons e t ih =>
    obtain ⟨k, w⟩ := e
    by_cases h1 : a = k
    · subst h1
      simp [tblSet, tblGet?, h]
    · by_cases h2 : a < k
      · by_cases h3 : b < a
        · have hk : b < k := Nat.lt_trans h3 h2
          have hne : b ≠ k := Nat.ne_of_lt hk
          simp [tblSet, tblGet?, h, h1, h2, h3, hk, hne]
        · simp [tblSet, tblGet?, h, h1, h2, h3]
      · by_cases h3 : b = k
        · simp [tblSet, tblGet?, h1, h2, h3]
        · by_cases h4 : b < k
          · simp [tblSet, tblGet?, h1, h2, h3, h4]
          · simp [tblSet, tblGet?, h1, h2, h3, h4, ih]

@[simp] theorem tblGet_set_same {α : Type} (d : α) (t : Tbl α) (a : Nat) (v : α) : tblGet d (tblSet t a v) a = v := by
  simp [tblGet]

theorem tblGet_set_other {α : Type} (d : α) (t : Tbl α) (a b : Nat) (v : α) (h : b ≠ a) :
    tblGet d (tblSet t a v) b = tblGet d t b := by
  simp [tblGet, tblGet?_set_other _ _ _ _ h]

/-! ### Vectors -/

@[simp] theorem vget_vset_same {α : Type} {n : Nat} (d : α) (v : Vector α n) (i : Nat) (x : α) (h : i < n) :
    vget d (vset v i x) i = x := by
  simp [vget, vset, Vector.getD, h]

theorem vget_vset_other {α : Type} {n : Nat} (d : α) (v : Vector α n) (i j : Nat) (x : α) (h : j ≠ i) :
    vget d (vset v i x) j = vget d v j := by
  by_cases hj : j < n
  · simp [vget, vset, Vector.getD, hj, Ne.symm h]
  · simp [vget, vset, Vector.getD, hj]

/-! ### Memories -/

theorem memWfFrom_tail (lo : Option Nat) (k : Nat) (c : Byte) (m : Mem) (hw : memWfFrom lo ((k, c) :: m) = true) :
    memWfFrom (some k) m = true := by
  cases lo <;> simp [memWfFrom] at hw <;> exact hw.2

theorem memWfFrom_head (lo : Option Nat) (k : Nat) (c : Byte) (m : Mem) (hw : memWfFrom lo ((k, c) :: m) = true) : c ≠ memDefault := by
  cases lo <;> simp [memWfFrom] at hw
  · exact hw.1
  · exact hw.1.2

/-- A write of one byte and a read of one byte. -/
theorem memGet_set (m : Mem) (a b : Nat) (v : Byte) (lo : Option Nat) (hw : memWfFrom lo m = true) :
    memGet (memSet m a v) b = if b = a then v else memGet m b := by
  induction m generalizing lo with
  | nil =>
    by_cases hv : v = memDefault
    · by_cases hb : b = a <;> simp [memSet, memCons, memGet, hv, hb]
    · by_cases hb : b = a
      · simp [memSet, memCons, memGet, hv, hb]
      · by_cases hl : b < a <;> simp [memSet, memCons, memGet, hv, hb, hl]
  | cons e m ih =>
    obtain ⟨k, c⟩ := e
    have hw' := memWfFrom_tail lo k c m hw
    have below : ∀ x, x ≤ k → memGet m x = memDefault := by
      intro x hx
      cases m with
      | nil => rfl
      | cons f m =>
        obtain ⟨j, y⟩ := f
        simp [memWfFrom] at hw'
        have hlt : x < j := by omega
        have hne : x ≠ j := by omega
        simp [memGet, hne, hlt]
    by_cases h1 : a = k
    · subst h1
      by_cases hb : b = a
      · subst hb
        by_cases hv : v = memDefault
        · simp [memSet, memCons, hv, below b (Nat.le_refl b)]
        · simp [memSet, memCons, memGet, hv]
      · by_cases hv : v = memDefault
        · by_cases hl : b < a
          · simp [memSet, memCons, memGet, hv, hb, hl, below b (Nat.le_of_lt hl)]
          · simp [memSet, memCons, memGet, hv, hb, hl]
        · simp [memSet, memCons, memGet, hv, hb]
    · by_cases h2 : a < k
      · by_cases hb : b = a
        · subst hb
          by_cases hv : v = memDefault
          · simp [memSet, memCons, memGet, hv, h1, h2]
          · simp [memSet, memCons, memGet, hv, h1, h2]
        · by_cases hv : v = memDefault
          · simp [memSet, memCons, hv, h1, h2, hb]
          · by_cases hl : b < a
            · have hk : b < k := Nat.lt_trans hl h2
              have hne : b ≠ k := Nat.ne_of_lt hk
              simp [memSet, memCons, memGet, hv, h1, h2, hb, hl, hk, hne]
            · simp [memSet, memCons, memGet, hv, h1, h2, hb, hl]
      · by_cases hbk : b = k
        · subst hbk
          simp [memSet, memGet, h1, h2, Ne.symm h1]
        · by_cases hlt : b < k
          · have hba : b ≠ a := by omega
            simp [memSet, memGet, h1, h2, hbk, hlt, hba]
          · simp [memSet, memGet, h1, h2, hbk, hlt, ih _ hw']

/-- Cells above a bound and then more. -/
theorem memWfFrom_mono (m : Mem) (l k : Nat) (h : l ≤ k) (hw : memWfFrom (some k) m = true) : memWfFrom (some l) m = true := by
  cases m with
  | nil => rfl
  | cons e m =>
    obtain ⟨j, b⟩ := e
    simp [memWfFrom] at hw ⊢
    exact ⟨⟨by omega, hw.1.2⟩, hw.2⟩

theorem memWfFrom_cons (lo : Option Nat) (a : Nat) (b : Byte) (m : Mem) (hl : ∀ l, lo = some l → l < a)
    (hm : memWfFrom (some a) m = true) : memWfFrom lo (memCons a b m) = true := by
  unfold memCons
  split
  · cases lo with
    | none => cases m with
      | nil => rfl
      | cons e m => obtain ⟨j, y⟩ := e; simp [memWfFrom] at hm ⊢; exact ⟨hm.1.2, hm.2⟩
    | some l => exact memWfFrom_mono m l a (Nat.le_of_lt (hl l rfl)) hm
  · cases lo with
    | none => simp_all [memWfFrom]
    | some l => simp_all [memWfFrom]

theorem memWfFrom_set (lo : Option Nat) (m : Mem) (a : Nat) (v : Byte) (hl : ∀ l, lo = some l → l < a)
    (hw : memWfFrom lo m = true) : memWfFrom lo (memSet m a v) = true := by
  induction m generalizing lo with
  | nil => exact memWfFrom_cons lo a v [] hl rfl
  | cons e m ih =>
    obtain ⟨k, c⟩ := e
    have hw' := memWfFrom_tail lo k c m hw
    have hc := memWfFrom_head lo k c m hw
    by_cases h1 : a = k
    · subst h1
      simp only [memSet, ↓reduceIte]
      exact memWfFrom_cons lo a v m hl hw'
    · by_cases h2 : a < k
      · simp only [memSet, h1, h2, ↓reduceIte]
        exact memWfFrom_cons lo a v _ hl (by simp [memWfFrom, h2, hc, hw'])
      · have hk : k < a := by omega
        have := ih (some k) (fun l h => by cases h; exact hk) hw'
        cases lo with
        | none => simp [memSet, memWfFrom, h1, h2, hc, this]
        | some l =>
          have hlk : l < k := by simp [memWfFrom] at hw; exact hw.1.1
          simp [memSet, memWfFrom, h1, h2, hc, this, hlk]

/-- Writing a byte keeps the canonical form. -/
theorem memSet_wf (m : Mem) (a : Nat) (v : Byte) (hw : m.wf = true) : (memSet m a v).wf = true :=
  memWfFrom_set none m a v (fun _ h => by cases h) hw

/-- A byte that was written reads back. -/
theorem memGet_memSet (m : Mem) (a b : Nat) (v : Byte) (hw : m.wf = true) :
    memGet (memSet m a v) b = if b = a then v else memGet m b := memGet_set m a b v none hw

theorem memWrite_wf (m : Mem) (a n v : Nat) (hw : m.wf = true) : (memWrite m a n v).wf = true := by
  induction n generalizing m a v with
  | zero => exact hw
  | succ n ih => exact ih _ _ _ (memSet_wf m a _ hw)

theorem memPut_wf (m : Mem) (a : Nat) (bs : List Byte) (hw : m.wf = true) : (memPut m a bs).wf = true := by
  induction bs generalizing m a with
  | nil => exact hw
  | cons b bs ih => exact ih _ _ (memSet_wf m a b hw)

theorem memWriteMask_wf (m : Mem) (a n mask v : Nat) (hw : m.wf = true) : (memWriteMask m a n mask v).wf = true := by
  induction n generalizing m a mask v with
  | zero => exact hw
  | succ n ih =>
    simp only [memWriteMask]
    apply ih
    split
    · exact memSet_wf m a _ hw
    · exact hw

/-- A write of `n` bytes leaves every byte outside its range. -/
theorem memGet_memWrite_outside (m : Mem) (a n v x : Nat) (hw : m.wf = true) (h : x < a ∨ a + n ≤ x) :
    memGet (memWrite m a n v) x = memGet m x := by
  induction n generalizing m a v with
  | zero => rfl
  | succ n ih =>
    rw [memWrite, ih _ _ _ (memSet_wf m a _ hw) (by omega), memGet_memSet m a x _ hw]
    have : x ≠ a := by omega
    simp [this]

theorem memGet_memWriteMask_outside (m : Mem) (a n mask v x : Nat) (hw : m.wf = true) (h : x < a ∨ a + n ≤ x) :
    memGet (memWriteMask m a n mask v) x = memGet m x := by
  induction n generalizing m a mask v with
  | zero => rfl
  | succ n ih =>
    have hx : x ≠ a := by omega
    have hw' : Mem.wf (if mask % 2 = 1 then memSet m a (BitVec.ofNat 8 (v % 256)) else m) = true := by
      split
      · exact memSet_wf m a _ hw
      · exact hw
    simp only [memWriteMask]
    rw [ih _ _ _ _ hw' (by omega)]
    split
    · rw [memGet_memSet m a x _ hw]; simp [hx]
    · rfl

/-! ### Writes and clears of whole ranges keep the canonical form -/

/-- `lo` lies below `a`. -/
def loBelow (lo : Option Nat) (a : Nat) : Prop := ∀ l, lo = some l → l < a

theorem memWfFrom_weaken (m : Mem) (lo : Option Nat) (k : Nat) (h : loBelow lo (k + 1)) (hw : memWfFrom (some k) m = true) :
    memWfFrom lo m = true := by
  cases lo with
  | none => cases m with
    | nil => rfl
    | cons e m => obtain ⟨j, b⟩ := e; simp [memWfFrom] at hw ⊢; exact ⟨hw.1.2, hw.2⟩
  | some l => exact memWfFrom_mono m l k (Nat.le_of_lt_succ (h l rfl)) hw

theorem memFilter_wf (p : Host.Cell → Bool) (m : Mem) (lo : Option Nat) (hw : memWfFrom lo m = true) :
    memWfFrom lo (m.filter p) = true := by
  induction m generalizing lo with
  | nil => exact hw
  | cons e m ih =>
    obtain ⟨k, c⟩ := e
    have ht := memWfFrom_tail lo k c m hw
    have hc := memWfFrom_head lo k c m hw
    by_cases hp : p (k, c) = true
    · cases lo with
      | none => simp [List.filter, hp, memWfFrom, hc, ih _ ht]
      | some l =>
        have hk : l < k := by simp [memWfFrom] at hw; exact hw.1.1
        simp [List.filter, hp, memWfFrom, hc, hk, ih _ ht]
    · have hlo : loBelow lo (k + 1) := by
        intro l h; subst h; simp [memWfFrom] at hw; omega
      simp only [List.filter, hp]
      exact ih lo (memWfFrom_weaken m lo k hlo ht)

/-- Clearing a range keeps the canonical form. -/
theorem memClear_wf (m : Mem) (a n : Nat) (hw : m.wf = true) : (memClear m a n).wf = true := memFilter_wf _ m none hw

theorem memDrop_wf (m : Mem) (lo lo' : Option Nat) (b : Nat) (hl : loBelow lo' b) (hw : memWfFrom lo m = true) :
    memWfFrom lo' (m.dropWhile (fun c => decide (c.1 < b))) = true := by
  induction m generalizing lo with
  | nil => rfl
  | cons e m ih =>
    obtain ⟨k, c⟩ := e
    have ht := memWfFrom_tail lo k c m hw
    have hc := memWfFrom_head lo k c m hw
    by_cases hb : k < b
    · simp [List.dropWhile, hb, ih _ ht]
    · cases lo' with
      | none => simp [List.dropWhile, hb, memWfFrom, hc, ht]
      | some l =>
        have := hl l rfl
        have hk : l < k := by omega
        simp [List.dropWhile, hb, memWfFrom, hc, hk, ht]

theorem cellsFrom_wf (bs : List Byte) (a : Nat) (lo : Option Nat) (D : Mem) (hl : loBelow lo a)
    (hD : ∀ lo', loBelow lo' (a + bs.length) → memWfFrom lo' D = true) : memWfFrom lo (cellsFrom a bs ++ D) = true := by
  induction bs generalizing a lo with
  | nil => exact hD lo (by simpa using hl)
  | cons b bs ih =>
    have hrest : memWfFrom (some a) (cellsFrom (a + 1) bs ++ D) = true :=
      ih (a + 1) (some a) (fun l h => by cases h; omega) (fun lo' h => hD lo' (by simpa [Nat.add_assoc, Nat.add_comm 1] using h))
    have e : cellsFrom a (b :: bs) ++ D = memCons a b (cellsFrom (a + 1) bs ++ D) := by
      simp only [cellsFrom, memCons]
      split <;> rfl
    rw [e]
    exact memWfFrom_cons lo a b _ hl hrest

theorem memTake_wf (m : Mem) (lo : Option Nat) (a : Nat) (X : Mem) (hl : loBelow lo a) (hw : memWfFrom lo m = true)
    (hX : ∀ lo', loBelow lo' a → memWfFrom lo' X = true) :
    memWfFrom lo (m.takeWhile (fun c => decide (c.1 < a)) ++ X) = true := by
  induction m generalizing lo with
  | nil => exact hX lo hl
  | cons e m ih =>
    obtain ⟨k, c⟩ := e
    have ht := memWfFrom_tail lo k c m hw
    have hc := memWfFrom_head lo k c m hw
    by_cases hb : k < a
    · have := ih (some k) (fun l h => by cases h; exact hb) ht
      cases lo with
      | none => simp [List.takeWhile, hb, memWfFrom, hc, this]
      | some l =>
        have hk : l < k := by simp [memWfFrom] at hw; exact hw.1.1
        simp [List.takeWhile, hb, memWfFrom, hc, hk, this]
    · simp only [List.takeWhile, hb, decide_false]
      exact hX lo hl

/-- Writing a list of bytes in one walk keeps the canonical form. -/
theorem memSplice_wf (m : Mem) (a : Nat) (bs : List Byte) (hw : m.wf = true) : (memSplice m a bs).wf = true := by
  unfold memSplice Mem.wf
  rw [List.append_assoc]
  exact memTake_wf m none a _ (fun _ h => by cases h) hw (fun lo' h =>
    cellsFrom_wf bs a lo' _ h (fun lo'' h' => memDrop_wf m none lo'' _ h' hw))

/-- The reset state's memories hold nothing, in canonical form. -/
theorem mem_empty_wf : Mem.wf [] = true := rfl

end Sys2Proof.Machine
end

