-- ==== Sys2Proof/Laws/Ops.lean ====
section
/-!
SUPPORT. What the shared operations do: places, registers, and the issue of an instruction.
-/
namespace Sys2Proof.Machine

open Sys2Proof Sys2Proof.Safety

/-! ### Places -/

@[simp] theorem tileAt_setTile (s : State) (pos : Nat) (t : Tile) : tileAt (setTile s pos t) pos = t := by
  simp [tileAt, setTile]

theorem tileAt_setTile_other (s : State) (pos q : Nat) (t : Tile) (h : q ≠ pos) : tileAt (setTile s pos t) q = tileAt s q := by
  simp [tileAt, setTile, tblGet_set_other _ _ _ _ _ h]

@[simp] theorem switchAt_setSwitch (s : State) (pos : Nat) (w : Switch) : switchAt (setSwitch s pos w) pos = w := by
  simp [switchAt, setSwitch]

theorem switchAt_setSwitch_other (s : State) (pos q : Nat) (w : Switch) (h : q ≠ pos) :
    switchAt (setSwitch s pos w) q = switchAt s q := by
  simp [switchAt, setSwitch, tblGet_set_other _ _ _ _ _ h]

@[simp] theorem dieAt_setDie (s : State) (d : Nat) (x : Die) (h : d < 8) : dieAt (setDie s d x) d = x := vget_vset_same _ _ _ _ h

theorem dieAt_setDie_other (s : State) (d e : Nat) (x : Die) (h : e ≠ d) : dieAt (setDie s d x) e = dieAt s e := vget_vset_other _ _ _ _ _ h

theorem dieOfBlock_lt (b : Nat) : dieOfBlock b < 8 := by
  unfold dieOfBlock
  omega

@[simp] theorem bankAt_setBank (s : State) (b : Nat) (x : Bank) : bankAt (setBank s b x) b = x := by
  simp [bankAt, setBank, dieAt_setDie, dieOfBlock_lt]

/-- A bank is blocked as long as its back-off lasts. -/
theorem bankBlocked_setBank (s : State) (b : Nat) (x : Bank) : bankBlocked (setBank s b x) b = decide (s.cycle.toNat < x.until_) := by
  simp [bankBlocked, setBank, bankAt, dieAt_setDie, dieOfBlock_lt]

/-- A seal cache that is not full has room, and nothing leaves it. -/
theorem sealRoom_of_space (s : State) (b : Nat) (h : (dieAt s (dieOfBlock b)).sc.length < sealCacheSize) : sealRoom s b = (s, true) := by
  have h2 : (((dieAt s (dieOfBlock b)).sc.filter (fun e => !e.2.frozen)).map (·.1)).length < sealCacheSize := by
    rw [List.length_map]
    exact Nat.lt_of_le_of_lt (List.length_filter_le _ _) h
  unfold sealRoom
  dsimp only
  rw [if_pos h2]

/-- What is held at its source has changed nothing but the mark of its partitions (18 R318). -/
theorem heldAtSource_frame (s t : State) : heldAtSource s t = { s with parts := (heldAtSource s t).parts } := rfl

@[simp] theorem tileAt_setSwitch (s : State) (pos q : Nat) (w : Switch) : tileAt (setSwitch s pos w) q = tileAt s q := rfl

@[simp] theorem switchAt_setTile (s : State) (pos q : Nat) (t : Tile) : switchAt (setTile s pos t) q = switchAt s q := rfl

@[simp] theorem switchAt_setSlot (s : State) (pos k q : Nat) (x : Slot) : switchAt (setSlot s pos k x) q = switchAt s q := rfl

@[simp] theorem slotAt_setSlot (s : State) (pos k : Nat) (x : Slot) (h : k < 4) : slotAt (setSlot s pos k x) pos k = x := by
  simp [slotAt, setSlot, vget_vset_same _ _ _ _ h]

theorem slotAt_setSlot_other (s : State) (pos k q j : Nat) (x : Slot) (h : q ≠ pos ∨ j ≠ k) :
    slotAt (setSlot s pos k x) q j = slotAt s q j := by
  by_cases hq : q = pos
  · subst hq
    have hj : j ≠ k := by rcases h with h | h <;> simp_all
    simp [slotAt, setSlot, vget_vset_other _ _ _ _ _ hj]
  · simp [slotAt, setSlot, tileAt_setTile_other _ _ _ _ hq]

/-! ### Issue -/

/-- An instruction that is ready passes the gate. -/
theorem gate_of_ready (i : Instr) (s : State) (h : ready i s = true) : gate i s = .go := by
  simp only [ready, Bool.and_eq_true, Bool.or_eq_true, Bool.not_eq_true', beq_iff_eq, Option.isNone_iff_eq_none] at h
  obtain ⟨⟨⟨⟨⟨⟨⟨⟨⟨⟨hp, hf⟩, hb⟩, hd⟩, hh⟩, hg⟩, hv⟩, hm⟩, hr⟩, -⟩, -⟩ := h
  have hw : slotWaits (me s) = false := by
    cases hbk : (me s).blocked <;> simp_all [slotWaits]
  have hgp : ((guardOf i).toNat != 0 && (me s).pP.getLsbD (guardOf i).toNat) = false := by
    rcases hg with hg | hg <;> simp [hg]
  unfold gate
  simp only [hw, hd, hh, hgp, hv, hr, Bool.false_eq_true, if_false, Bool.not_true, if_true]
  cases hmr : maskRegOf i with
  | none => rfl
  | some m => simp only [hmr] at hm; simp_all

/-- An instruction that is ready and whose effect is `done` goes on in the state the effect gives. -/
theorem issue_done (i : Instr) (s t : State) (body : Ops → State → Effect) (h : ready i s = true)
    (hb : body (operands i s) s = .done t) : runCore i s body = .next (goesOn i t) := by
  have hg := gate_of_ready i s h
  simp only [ready, Bool.and_eq_true, Bool.not_eq_true', Option.isNone_iff_eq_none] at h
  simp [runCore, issue, hg, hb, settle, h.1.2, h.2, goesOn]

/-- The same for an effect that names where the slot continues. -/
theorem issue_goto (i : Instr) (s t : State) (pc : Nat) (body : Ops → State → Effect) (h : ready i s = true)
    (hb : body (operands i s) s = .goto t pc) : runCore i s body = .next (jumpTo (dequeue i (ended t)) pc) := by
  have hg := gate_of_ready i s h
  simp only [ready, Bool.and_eq_true, Bool.not_eq_true', Option.isNone_iff_eq_none] at h
  simp [runCore, issue, hg, hb, settle, h.1.2, h.2]

/-- The same for an effect that has settled the program counter. -/
theorem issue_keep (i : Instr) (s t : State) (body : Ops → State → Effect) (h : ready i s = true)
    (hb : body (operands i s) s = .keep t) : runCore i s body = .next (dequeue i (ended t)) := by
  have hg := gate_of_ready i s h
  simp only [ready, Bool.and_eq_true, Bool.not_eq_true', Option.isNone_iff_eq_none] at h
  simp [runCore, issue, hg, hb, settle, h.1.2, h.2]

/-- An instruction that is ready and raises a cause. -/
theorem issue_trap (i : Instr) (s : State) (c : Cause) (body : Ops → State → Effect) (h : ready i s = true)
    (hb : body (operands i s) s = .trap c) : runCore i s body = .next (raise s c) := by
  have hg := gate_of_ready i s h
  simp only [ready, Bool.and_eq_true, Bool.not_eq_true', Option.isNone_iff_eq_none] at h
  simp [runCore, issue, hg, hb, settle, h.1.2, h.2]

/-- An instruction that is ready and must wait leaves its slot STALLED. -/
theorem issue_wait (i : Instr) (s t : State) (body : Ops → State → Effect) (h : ready i s = true)
    (hb : body (operands i s) s = .wait t) : runCore i s body = .next (stalled t) := by
  have hg := gate_of_ready i s h
  simp only [ready, Bool.and_eq_true, Bool.not_eq_true', Option.isNone_iff_eq_none] at h
  simp [runCore, issue, hg, hb, settle, h.1.2]

/-- An instruction that is ready and raises a cause beside an effect, with nothing ahead of it. -/
theorem issue_trapWith (i : Instr) (s t : State) (c : Cause) (body : Ops → State → Effect) (h : ready i s = true) (ha : ahead s = false)
    (hb : body (operands i s) s = .trapWith t c) : runCore i s body = .next (raise t c) := by
  have hg := gate_of_ready i s h
  simp only [ready, Bool.and_eq_true, Bool.not_eq_true', Option.isNone_iff_eq_none] at h
  simp [runCore, issue, hg, hb, settle, h.1.2, h.2, ha]

/-- What an instruction kept while it waited is nothing where it did not wait. -/
theorem ended_of_idle (s : State) (h : (me s).busy = none) : ended s = s := by
  simp [ended, endBusy, h]

/-- A slot that waits for nothing has nothing to give up at a trap. -/
theorem abandon_of_calm (s : State) (pos k : Nat) (hb : (slotAt s pos k).busy = none) (hw : (slotAt s pos k).blocked = none)
    (hf : (slotAt s pos k).fence = none) : abandon s pos k = s := by
  simp [abandon, hb, hw, hf]

/-- What a trap gives up in its slot. -/
theorem slotAt_abandon (s : State) (pos k : Nat) (hk : k < 4) :
    slotAt (abandon s pos k) pos k = { slotAt s pos k with busy := none, blocked := none, fence := none } := by
  unfold abandon
  simp only []
  split
  · rename_i h
    simp only [Bool.and_eq_true, Option.isNone_iff_eq_none] at h
    obtain ⟨⟨h1, h2⟩, h3⟩ := h
    rw [← h1, ← h2, ← h3]
  · have hs (x : Slot) : slotAt (forget (setSlot s pos k x) (.inline pos k)) pos k = x := by
      unfold forget
      split
      · exact slotAt_setSlot s pos k x hk
      · exact slotAt_setSlot s pos k x hk
    exact hs _

/-- Without an armed injection the first result is written, and UNCHK counts what was not compared. -/
theorem shadowed_calm (s : State) (v c : Bool) (n : Nat) (f : State → State) (h : calm s = true) :
    shadowed s v c n f = .done (f (addUnchk s n)) := by
  simp only [calm, beq_iff_eq] at h
  simp [shadowed, h]

end Sys2Proof.Machine
end

