-- ==== Sys2Proof/Laws/Requests.lean ====
section
/-!
SUPPORT. What the shared operations of requests can change: charging touches budgets and bills, and a message the hawsers and ports in use besides.
-/
namespace Sys2Proof.Machine

open Sys2Proof

/-! ### Budgets (19 R349, R350) -/

/-- A charge changes budgets of partitions and nothing else. -/
theorem charge_frame (s t : State) (part : Option Nat) (act cls n : Nat) (h : charge s part act cls n = some t) : t = { s with parts := t.parts } := by
  unfold charge at h
  split at h
  · cases h; rfl
  · dsimp only at h
    split at h
    · cases h; rfl
    · split at h
      · cases h; rfl
      · cases h

/-- A charge of the units that the budget reaches succeeds. -/
theorem charge_affordable (s : State) (part : Option Nat) (act cls n : Nat) : (charge s part act cls (affordable s part act cls n)).isSome = true := by
  cases part with
  | none => rfl
  | some p =>
    by_cases hl : (tblGet BudgetEnt.reset (partAt s p).budget (budgetKey act cls)).limit = 0xFFFFFFFF
    · simp [charge, affordable, hl]
    · simp only [charge, affordable, hl, if_false, or_false, Nat.min_le_right, if_true]
      split <;> rfl

/-- Units charged one by one change budgets of partitions and nothing else. -/
theorem chargeSome_frame (part : Option Nat) (cls : Nat) : ∀ (us : List (Nat × Nat)) (s : State),
    (chargeSome s part cls us).1 = { s with parts := (chargeSome s part cls us).1.parts } := by
  intro us
  induction us with
  | nil => intro s; rfl
  | cons u us ih =>
    intro s
    obtain ⟨act, n⟩ := u
    have hc : (charge s part act cls (affordable s part act cls n)).getD s =
        { s with parts := ((charge s part act cls (affordable s part act cls n)).getD s).parts } := by
      cases h : charge s part act cls (affordable s part act cls n) with
      | none => rfl
      | some t => exact charge_frame _ _ _ _ _ _ h
    simp only [chargeSome]
    split
    · exact hc
    · rw [ih, hc]

/-- Where budgets do not limit, nothing is left to be charged. -/
theorem chargeSome_none (s : State) (cls : Nat) (us : List (Nat × Nat)) : chargeSome s none cls us = (s, []) := by
  induction us with
  | nil => rfl
  | cons u us ih => simp [chargeSome, affordable, charge, ih]

/-- Charging a message changes budgets and its bill. -/
theorem pay_frame (s : State) (part : Option Nat) (cls : Nat) (ag : Agent) (msg : Nat) (us : List (Nat × Nat)) :
    (pay s part cls ag msg us).1 = { s with parts := (pay s part cls ag msg us).1.parts, bills := (pay s part cls ag msg us).1.bills } := by
  have h := chargeSome_frame part cls (owedUnits s ag msg us) s
  simp only [pay]
  split <;> (dsimp only; rw [h])

/-! ### Messages in hawsers (03 R72 to R74) -/

/-- Beats that leave a hawser change the hawsers and nothing else. -/
theorem leaveFrom_frame (ag : Agent) (msg : Nat) : ∀ (l : List HawEnt) (s : State),
    (leaveFrom ag msg l s).1 = { s with hawsers := (leaveFrom ag msg l s).1.hawsers } := by
  intro l
  induction l with
  | nil => intro s; rfl
  | cons x xs ih =>
    intro s
    unfold leaveFrom
    split
    · split
      · exact ih s
      · split
        · rfl
        · rw [ih]
    · exact ih s

/-- Beats take the port that 22 R411 gives them: the ports in use of a partition change, and nothing else. -/
theorem takePort_frame (s : State) (part : Option Nat) (pkg oc : Nat) : takePort s part pkg oc = { s with parts := (takePort s part pkg oc).parts } := by
  unfold takePort
  split
  · dsimp only
    split <;> rfl
  · rfl

/-- A message that enters its hawsers changes them, and the ports in use. -/
theorem enterPath_frame (src oc : Nat) (part : Option Nat) (ag : Agent) (msg : Nat) (path : List Nat) (s : State) :
    enterPath s src oc path part ag msg =
      { s with parts := (enterPath s src oc path part ag msg).parts, hawsers := (enterPath s src oc path part ag msg).hawsers } := by
  unfold enterPath
  split
  · rfl
  · induction path generalizing s with
    | nil => rfl
    | cons d ds ih =>
      simp only [List.foldl_cons]
      rw [ih]
      split <;> first | rfl | rw [takePort_frame]

/-- A message that sets out, goes on or arrives changes budgets, ports in use, bills and hawsers: no register, no memory and no cache. -/
theorem travelBy_frame (s : State) (w : Who) (routes : Option Nat) (src : Nat) (path : List Nat) (msg : Nat) (us : List (Nat × Nat)) :
    let t := (travelBy s w routes src path msg us).1
    t = { s with parts := t.parts, bills := t.bills, hawsers := t.hawsers } := by
  have hp := pay_frame s w.part w.cls w.ag msg us
  unfold travelBy
  split
  · dsimp only [leaveBeats]; rw [leaveFrom_frame]
  · split
    · rfl
    · dsimp only
      split
      · dsimp only [leaveBeats]; rw [leaveFrom_frame, enterPath_frame, hp]
      · rw [hp]

/-- The end of a message drops its beats and its bill. -/
theorem dropBeats_frame (s : State) (ag : Agent) (msg : Nat) :
    dropBeats s ag msg = { s with bills := (dropBeats s ag msg).bills, hawsers := (dropBeats s ag msg).hawsers } := by
  unfold dropBeats
  dsimp only
  split <;> split <;> rfl

/-- A message that is dropped has no beat in any hawser. -/
theorem hasBeat_dropBeats (s : State) (ag : Agent) (msg : Nat) : hasBeat (dropBeats s ag msg) ag msg = false := by
  have h : ∀ t : State, hasBeat { s with hawsers := s.hawsers.filter (fun x => !x.isBeatOf ag msg), bills := t.bills } ag msg = false := by
    intro t; simp [hasBeat]
  unfold dropBeats
  dsimp only
  split <;> split <;> simp_all [hasBeat]

end Sys2Proof.Machine
end

