-- ==== Sys2Proof/Tests/Slice0.lean ====
section
/-!
SUPPORT. Tests: ill-formed terms, words that the specification's encodings write out, and the result of one instruction on a small state.
Expected values are worked examples and tables of the specification, or worked by hand from its rules.
-/
namespace Sys2Proof.Tests

set_option Elab.async false

open Sys2Proof Sys2Proof.Machine Sys2Proof.Safety

/-! ### Small states -/

/-- The state after reset in which slot 0 of the tile at (0, 1) runs, its registers as `f` leaves them. -/
def slotWith (f : Slot → Slot) : State :=
  setTile State.reset 128 { Tile.reset with slots := vset Tile.reset.slots 0 (f { Slot.reset with phase := .running }) }

/-- The same with the tile as `f` leaves it. -/
def tileWith (f : Tile → Tile) : State :=
  setTile State.reset 128 (f { Tile.reset with slots := vset Tile.reset.slots 0 { Slot.reset with phase := .running } })

/-- s4 and s5 hold two values. -/
def regs (x y : Word) : State := slotWith (fun t => { t with s := vset (vset t.s 4 x) 5 y })

/-- v4 and v5 hold two values. -/
def vecs (x y : Vec) : State := slotWith (fun t => { t with v := vset (vset t.v 4 x) 5 y })

/-- A vector whose lane k is the k-th element. -/
def lanes (l : List Nat) : Vec := l.foldr (fun x v => v <<< 32 ||| BitVec.ofNat 512 x) 0

/-- The state an outcome answers, or reset. -/
def after (o : Host.Outcome State Fault Refusal) : State := match o with | .next t => t | _ => State.reset

/-- Register s n of slot 0 after an instruction. -/
def sOf (i : Instr) (s : State) (n : Nat) : Word := vget 0 (slotAt (after (exec i s)) 128 0).s n

/-- Register v n of slot 0 after an instruction. -/
def vOf (i : Instr) (s : State) (n : Nat) : Vec := vget 0 (slotAt (after (exec i s)) 128 0).v n

/-- Lane k of a vector. -/
def laneAt (v : Vec) (k : Nat) : Nat := v.toNat / 2 ^ (32 * k) % 2 ^ 32

/-- Slot 0 after an instruction. -/
def slotOf (i : Instr) (s : State) : Slot := slotAt (after (exec i s)) 128 0

/-- A supervisor of partition 0 that runs in slot 0. -/
def supWith (f : Slot → Slot) : State :=
  let s := slotWith (fun t => f { t with sstatus := 1, isTask := true })
  { s with
    parts := [(0, { Part.reset with st := .running, groups := 0xFFFFFFFF, tkey := 3, nvf := 1 })]
    keys := [(0, { KeySlot.reset with owner := some 0 }), (3, { KeySlot.reset with owner := some 0, inst0 := some (1, 2) })] }

/-! ### Ill-formed terms, one for each field condition (08 R171, R173, R175) -/

theorem test_ill_formed_1 :
  [Instr.cmpi 0 8 4 0 0, .limm 0 30 1 5, .cmp 0 8 4 5 0, .cmp 0 1 4 5 7, .pand 0 8 1 1, .pand 0 1 8 1, .pand 0 1 1 8, .por 0 8 1 1, .por 0 1 8 1,
   .por 0 1 1 8, .pxor 0 8 1 1, .pxor 0 1 8 1, .pxor 0 1 1 8, .pandn 0 8 1 1, .pandn 0 1 8 1, .pandn 0 1 1 8, .pnot 0 8 1, .pnot 0 1 8, .pnz 0 8 4,
   .pget 0 3 8, .widx 0 3 4 1 6, .widx 0 3 4 0 1, .rep 0 0 4 1 0 0, .rep 0 30 4 1 0 0, .rep 0 3 4 0 0 0, .lea 0 3 4 5 8, .lwin 0 3 4 6,
   .vaddF 0 1 2 3 0 3, .vsubF 0 1 2 3 0 3, .vmulF 0 1 2 3 0 3, .vminF 0 1 2 3 0 3, .vmaxF 0 1 2 3 0 3, .vdiv 0 1 2 3 0 3, .vsqrt 0 1 2 0 3].all (fun i => !i.wf) = true := by decide

theorem test_ill_formed_2 :
  [Instr.vfma 0 1 2 3 4 3, .vfnma 0 1 2 3 4 3, .vcmp 0 8 2 3 0 0 0, .vcmp 0 1 2 3 0 3 0, .vcmp 0 1 2 3 0 0 7, .vcmp 0 1 2 3 0 0 6, .vtbl 0 4 5 0,
   .vbexp 0 8 1 0 0 0 0, .valign 0 1 2 0 0 2, .valign 0 1 2 0 0 3, .vsumF 0 3 4 0 3, .vrminF 0 3 4 0 3, .vrmaxF 0 3 4 0 3, .vrot 0 1 2 16 0,
   .vslu 0 1 2 16 0, .vsld 0 1 2 16 0, .vins 0 1 2 16, .vextN32 0 1 2 16, .vextI32 0 1 2 16, .gset 0 8 1, .gget 0 1 8, .mand 0 8 1 1, .mand 0 1 8 1,
   .mand 0 1 1 8, .mor 0 8 1 1, .mor 0 1 8 1, .mor 0 1 1 8, .mxor 0 8 1 1, .mxor 0 1 8 1, .mxor 0 1 1 8, .mandn 0 8 1 1, .mandn 0 1 8 1,
   .mandn 0 1 1 8, .mnot 0 8 1].all (fun i => !i.wf) = true := by decide

theorem test_ill_formed_3 :
  [Instr.mnot 0 1 8, .mset 0 8 1, .mget 0 1 8, .mpop 0 1 8, .mfirst 0 1 8, .mlow 0 8 1, .rmma 0 0 4 5 0 0 0 0 0 0, .rmma 0 3 4 5 0 0 1 0 0 0,
   .rmma 0 3 4 5 0 1 0 0 0 0, .rfwd 0 4 1 1 0 0 0, .rrev 0 1 4 1 0, .rchk 0 1 4, .rbnd 0 4 1, .rzero 0 4, .rbget 0 1 4, .radd 0 4 1 1, .radd 0 1 4 1,
   .radd 0 1 1 4, .rsub 0 4 1 1, .rsub 0 1 4 1, .rsub 0 1 1 4, .rmov 0 4 1, .rmov 0 1 4, .rlda 0 31 4 0, .radds 0 31 4 0, .rsta 0 31 4 0,
   .obcp 0 0 4 5 0 0, .obcp 0 3 4 5 0 13, .ld 0 3 4 0 2 3 0 0, .ld 0 3 4 0 0 3 1 0, .st 0 3 4 0 1 3 0, .vld 0 3 4 0 2 0 0, .vst 0 3 4 0 1 0 0,
   .atomCas 0 3 4 0 0 3 0].all (fun i => !i.wf) = true := by decide

theorem test_ill_formed_4 :
  [Instr.atomCas 0 0 4 0 0 3 0, .atomCas 0 30 4 0 0 3 0, .atom 0 3 4 0 0 3 0, .atom 0 0 4 0 0 3 0, .atom 0 30 4 0 0 3 0, .fence 0 6 1,
   .copy 0 0 4 5 0 0, .copy 0 3 0 5 0 0, .copy 0 3 28 5 0 0, .copy 0 3 4 5 0 6, .gather 0 0 4 0 0 0, .gather 0 3 0 0 0 0, .gather 0 3 27 0 0 0,
   .gather 0 3 4 3 0 0, .gather 0 3 4 0 0 6, .scatter 0 0 4 0 0 0, .scatter 0 3 0 0 0 0, .scatter 0 3 27 0 0 0, .scatter 0 3 4 3 0 0,
   .scatter 0 3 4 0 0 6, .nxch 0 0 4 5 0 0, .nxch 0 3 4 5 0 6, .ttest 0 8 4, .msend 0 1 4 5 0, .msend 0 1 4 0 0, .msend 0 29 4 2 0, .coll 0 0 4].all (fun i => !i.wf) = true := by decide

/-! ### Words of the encoding tables (08 R170 to R175; 13 R290) -/

/-- A word decodes to an instruction. -/
def coreDecodes (e : Nat × Instr) : Bool := match decodeCore e.1 with | .ok i => decide (i = e.2) | .error _ => false

/-- A switch word decodes to an instruction. -/
def switchDecodes (e : Nat × Instr) : Bool := match decodeSwitch e.1 with | .ok i => decide (i = e.2) | .error _ => false

theorem test_decode_major_01 : [
  (0x05FCAD00, Instr.add 3 31 5 13),
  (0x0554C301, Instr.sub 2 21 6 3),
  (0x051C8202, Instr.and 2 7 4 2),
  (0x05A30203, Instr.or 3 8 24 2),
  (0x0758B404, Instr.xor 6 22 5 20),
  (0x077F7C05, Instr.andn 6 31 27 28),
  (0x06F53708, Instr.sll 5 29 9 23),
  (0x067CBD09, Instr.srl 4 31 5 29),
  (0x05F4940A, Instr.sra 3 29 4 20),
  (0x07255E10, Instr.min 6 9 10 30),
  (0x05AC9811, Instr.max 3 11 4 24),
  (0x07659A12, Instr.minu 6 25 12 26),
  (0x07B11E13, Instr.maxu 7 12 8 30),
  (0x04A78E18, Instr.mul 1 9 28 14),
  (0x07AAAD19, Instr.mulh 7 10 21 13),
  (0x0589D31A, Instr.mulhu 3 2 14 19),
  (0x05DE021C, Instr.div 3 23 16 2),
  (0x064E8B1D, Instr.divu 4 19 20 11),
  (0x0758BD1E, Instr.rem 6 22 5 29),
  (0x0569371F, Instr.remu 2 26 9 23),
  (0x05F2E020, Instr.clz 3 28 23),
  (0x0691C021, Instr.ctz 5 4 14),
  (0x05FEA022, Instr.popc 3 31 21)].all coreDecodes = true := by decide

theorem test_decode_major_02 : [
  (0x0B13DBCA, Instr.addi 6 4 30 7114)].all coreDecodes = true := by decide

theorem test_decode_major_03 : [
  (0x0F14DF23, Instr.andi 6 5 6 7971)].all coreDecodes = true := by decide

theorem test_decode_major_04 : [
  (0x13DD917C, Instr.ori 7 23 12 4476)].all coreDecodes = true := by decide

theorem test_decode_major_05 : [
  (0x16962D39, Instr.xori 5 5 17 3385)].all coreDecodes = true := by decide

theorem test_decode_major_06 : [
  (0x1A56C039, Instr.slli 4 21 22 57),
  (0x1AF0C801, Instr.srli 5 28 6 1),
  (0x1B4B3010, Instr.srai 6 18 25 16)].all coreDecodes = true := by decide

theorem test_decode_major_07 : [
  (0x1E911A0D, Instr.cmpi 5 4 8 6 525)].all coreDecodes = true := by decide

theorem test_decode_major_08 : [
  (0x20CFB92B, Instr.limm 1 19 3 47403)].all coreDecodes = true := by decide

theorem test_decode_major_09 : [
  (0x26965601, Instr.cmp 5 5 18 22 1)].all coreDecodes = true := by decide

theorem test_decode_major_0a : [
  (0x2A184100, Instr.pand 4 6 2 1),
  (0x29884101, Instr.por 3 2 2 1),
  (0x29048102, Instr.pxor 2 1 4 1),
  (0x2A8CC303, Instr.pandn 5 3 6 3),
  (0x2B946004, Instr.pnot 7 5 3),
  (0x2A8DE005, Instr.pnz 5 3 15),
  (0x2B3C6006, Instr.pget 6 15 3)].all coreDecodes = true := by decide

theorem test_decode_major_0b : [
  (0x2F41D444, Instr.br 6 4314180)].all coreDecodes = true := by decide

theorem test_decode_major_0c : [
  (0x32696000, Instr.jalr 4 26 11),
  (0x31800001, Instr.texit 3),
  (0x31000002, Instr.itend 2)].all coreDecodes = true := by decide

theorem test_decode_major_0d : [
  (0x3798875A, Instr.csrrw 7 6 4 1882),
  (0x36BAAEA8, Instr.csrrc 5 14 21 1704),
  (0x3669D00D, Instr.widx 4 26 14 1 5)].all coreDecodes = true := by decide

theorem test_decode_major_0e : [
  (0x39E6EFE6, Instr.rep 3 25 23 15 14 6)].all coreDecodes = true := by decide

theorem test_decode_major_0f : [
  (0x3F4D8828, Instr.lea 6 19 12 8 5),
  (0x3CDEFA39, Instr.lpc 1 23 24391),
  (0x3CCC4012, Instr.lwin 1 19 2 2)].all coreDecodes = true := by decide

theorem test_decode_major_10 : [
  (0x415B0740, Instr.vaddI32 2 22 24 7 2),
  (0x415148C1, Instr.vsubI32 2 20 10 8 6),
  (0x411CB722, Instr.vandI32 2 7 5 23 1),
  (0x41218883, Instr.vorI32 2 8 12 8 4),
  (0x42ECE4A4, Instr.vxorI32 5 27 7 4 5),
  (0x41798DC5, Instr.vandnI32 2 30 12 13 6),
  (0x43D57226, Instr.vsllI32 7 21 11 18 1),
  (0x415E7887, Instr.vsrlN32 2 23 19 24 4),
  (0x41DCB628, Instr.vsraI32 3 23 5 22 1),
  (0x4285A269, Instr.vminI32 5 1 13 2 3),
  (0x40C7A28A, Instr.vmaxI32 1 17 29 2 4),
  (0x427C9A8B, Instr.vminN32 4 31 4 26 4),
  (0x40D2A2AC, Instr.vmaxN32 1 20 21 2 5),
  (0x40C9D9ED, Instr.vmulI32 1 18 14 25 7),
  (0x41BBC44E, Instr.vmulhI32 3 14 30 4 2),
  (0x40FE3E8F, Instr.vmulhN32 1 31 17 30 4),
  (0x41423EB0, Instr.vaddsI32 2 16 17 30 5),
  (0x41A63471, Instr.vaddsN32 3 9 17 20 3),
  (0x43306EF2, Instr.vsubsI32 6 12 3 14 7),
  (0x433FB6F3, Instr.vsubsN32 6 15 29 22 7),
  (0x409380B4, Instr.vabsI32 1 4 28 5),
  (0x42142075, Instr.vclzN32 4 5 1 3),
  (0x41170056, Instr.vpopcN32 2 5 24 2)].all coreDecodes = true := by decide

theorem test_decode_major_11 : [
  (0x4799A2A8, Instr.vaddF 7 6 13 2 5 1),
  (0x448DADF1, Instr.vsubF 1 3 13 13 7 2),
  (0x45BAF58A, Instr.vmulF 3 14 23 21 4 1),
  (0x4565AD4B, Instr.vminF 2 25 13 13 2 1),
  (0x4748F854, Instr.vmaxF 6 18 7 24 2 2),
  (0x45922A4D, Instr.vdiv 3 4 17 10 2 1),
  (0x4772A0D6, Instr.vsqrt 6 28 21 6 2)].all coreDecodes = true := by decide

theorem test_decode_major_12 : [
  (0x48F30672, Instr.vfma 1 28 24 6 14 1),
  (0x4A90D16D, Instr.vfnma 5 4 6 17 13 2),
  (0x48F18EAE, Instr.vdot2 1 28 12 14 21),
  (0x4A8EFBB7, Instr.vdot2n 5 3 23 27 22)].all coreDecodes = true := by decide

theorem test_decode_major_13 : [
  (0x4E197BCB, Instr.vcmp 4 6 11 27 6 1 3)].all coreDecodes = true := by decide

theorem test_decode_major_14 : [
  (0x53DC2020, Instr.vcvtI32F32 7 23 1 1),
  (0x51BAE0C1, Instr.vcvtN32F32 3 14 23 6),
  (0x53D5C082, Instr.vcvtF32I32 7 21 14 4),
  (0x53ABE063, Instr.vcvtF32N32 7 10 31 3),
  (0x5190A045, Instr.vcvtF16F32 3 4 5 2 1),
  (0x53192067, Instr.vcvtBf16F32 6 6 9 3 1),
  (0x508E6049, Instr.vcvtF32F16 1 3 19 2 1),
  (0x516460CB, Instr.vcvtF32Bf16 2 25 3 6 1),
  (0x5124C0CC, Instr.vrint 2 9 6 6),
  (0x52584011, Instr.vupk4 4 22 2 1),
  (0x521EE013, Instr.vpk4 4 7 23 1),
  (0x5253A014, Instr.vupk6 4 20 29),
  (0x50DB2015, Instr.vpk6 1 22 25)].all coreDecodes = true := by decide

theorem test_decode_major_15 : [
  (0x575CD8C8, Instr.vdec 6 23 6 3 6 1),
  (0x56972949, Instr.vdecs 5 5 25 1 1 2 1),
  (0x5639F8D2, Instr.venc 4 14 15 3 6 2),
  (0x55890403, Instr.vtbl 3 2 8 4)].all coreDecodes = true := by decide

theorem test_decode_major_16 : [
  (0x5993D0D8, Instr.vbexp 3 4 30 2 6 1 1),
  (0x594715C1, Instr.valign 2 17 24 2 5 6),
  (0x5A5483D2, Instr.vscale 4 21 4 3 6 1)].all coreDecodes = true := by decide

theorem test_decode_major_17 : [
  (0x5E582070, Instr.vsumF 4 22 1 3 2),
  (0x5F56C029, Instr.vrminF 6 21 22 1 1),
  (0x5CCF002A, Instr.vrmaxF 1 19 24 1 1),
  (0x5FE980F8, Instr.vsumI32 7 26 12 7),
  (0x5E2380F9, Instr.vsumN32 4 8 28 7),
  (0x5F0E409A, Instr.vrminI32 6 3 18 4),
  (0x5CE380BB, Instr.vrmaxI32 1 24 28 5),
  (0x5D0F005C, Instr.vrminN32 2 3 24 2),
  (0x5F3EA0FD, Instr.vrmaxN32 6 15 21 7)].all coreDecodes = true := by decide

theorem test_decode_major_18 : [
  (0x61D17820, Instr.vperm 3 20 11 24 1),
  (0x63FB2861, Instr.vrot 7 30 25 8 3),
  (0x62408FE2, Instr.vslu 4 16 4 15 7),
  (0x637785E3, Instr.vsld 6 29 28 5 7),
  (0x6376E0C4, Instr.vrev 6 29 23 6),
  (0x63464085, Instr.vhswap 6 17 18 4),
  (0x631093C6, Instr.vpkl 6 4 4 19 6),
  (0x63A8BFC7, Instr.vpkh 7 10 5 31 6)].all coreDecodes = true := by decide

theorem test_decode_major_19 : [
  (0x6729E060, Instr.vmov 6 10 15 3),
  (0x65CE60C1, Instr.vsplatI32 3 19 19 6),
  (0x668BE0E2, Instr.vsplatI64 5 2 31 7),
  (0x64FF4B03, Instr.vins 1 31 26 11),
  (0x67984204, Instr.vextN32 7 6 2 2),
  (0x65060505, Instr.vextI32 2 1 16 5),
  (0x660552A6, Instr.vsel 4 1 10 18 5),
  (0x66504047, Instr.vabsF32 4 20 2 2),
  (0x67554088, Instr.vnegF32 6 21 10 4),
  (0x65D920A9, Instr.vabsF16 3 22 9 5),
  (0x64DBA0AA, Instr.vnegF16 1 22 29 5),
  (0x6499000B, Instr.gset 1 6 8),
  (0x6668A00C, Instr.gget 4 26 5),
  (0x650FA04D, Instr.vabsBf16 2 3 29 2),
  (0x6572C0EE, Instr.vnegBf16 2 28 22 7)].all coreDecodes = true := by decide

theorem test_decode_major_1a : [
  (0x69886400, Instr.mand 3 2 3 4),
  (0x6B1C8201, Instr.mor 6 7 4 2),
  (0x69044002, Instr.mxor 2 1 2 0),
  (0x6B906503, Instr.mandn 7 4 3 5),
  (0x69188004, Instr.mnot 2 6 4),
  (0x6A852005, Instr.mset 5 1 9),
  (0x6B2C8006, Instr.mget 6 11 4),
  (0x6AE48007, Instr.mpop 5 25 4),
  (0x6AC4A008, Instr.mfirst 5 17 5),
  (0x699D8009, Instr.mlow 3 7 12)].all coreDecodes = true := by decide

theorem test_decode_major_20 : [
  (0x819C07B8, Instr.rmma 3 7 0 7 2 1 1 1 0 0)].all coreDecodes = true := by decide

theorem test_decode_major_21 : [
  (0x858BB0B0, Instr.rfwd 3 2 29 16 2 1 1)].all coreDecodes = true := by decide

theorem test_decode_major_22 : [
  (0x8A246101, Instr.rrev 4 9 3 1 1)].all coreDecodes = true := by decide

theorem test_decode_major_23 : [
  (0x8DF86000, Instr.rchk 3 30 3),
  (0x8F002D01, Instr.rbnd 6 1 13),
  (0x8D006002, Instr.rzero 2 3),
  (0x8D284003, Instr.rbget 2 10 2)].all coreDecodes = true := by decide

theorem test_decode_major_24 : [
  (0x93002300, Instr.radd 6 0 1 3),
  (0x930C2220, Instr.rsub 6 3 1 2),
  (0x92846040, Instr.rmov 5 1 3),
  (0x93036061, Instr.rstg 6 27 1),
  (0x93292083, Instr.rlda 6 10 9 3),
  (0x91EB20A2, Instr.radds 3 26 25 2),
  (0x93D180C3, Instr.rsta 7 20 12 3)].all coreDecodes = true := by decide

theorem test_decode_major_25 : [
  (0x96358000, Instr.obld 4 13 12),
  (0x950BC040, Instr.obst 2 2 30),
  (0x9748B5A1, Instr.obcp 6 18 5 21 1 1)].all coreDecodes = true := by decide

theorem test_decode_major_28 : [
  (0xA3B0B5A7, Instr.ld 7 12 5 5 1 2 1 7)].all coreDecodes = true := by decide

theorem test_decode_major_29 : [
  (0xA7C18A4F, Instr.st 7 16 12 2 2 1 15)].all coreDecodes = true := by decide

theorem test_decode_major_2a : [
  (0xABD479CA, Instr.vld 7 21 3 6 1 3 10)].all coreDecodes = true := by decide

theorem test_decode_major_2b : [
  (0xADE7E6D1, Instr.vst 3 25 31 1 2 3 17)].all coreDecodes = true := by decide

theorem test_decode_major_2c : [
  (0xB110B9AC, Instr.atomCas 2 4 5 6 1 2 12),
  (0xB2591150, Instr.atom 4 22 8 4 1 1 16)].all coreDecodes = true := by decide

theorem test_decode_major_2d : [
  (0xB4800206, Instr.fence 1 2 6)].all coreDecodes = true := by decide

theorem test_decode_major_2e : [
  (0xB88F10A4, Instr.copy 1 3 24 16 5 1)].all coreDecodes = true := by decide

theorem test_decode_major_2f : [
  (0xBEF328E4, Instr.gather 5 28 25 1 7 1),
  (0xBE318831, Instr.scatter 4 12 12 1 1 4)].all coreDecodes = true := by decide

theorem test_decode_major_30 : [
  (0xC3DEEA84, Instr.nxch 7 23 23 10 4 1)].all coreDecodes = true := by decide

theorem test_decode_major_31 : [
  (0xC72B00C0, Instr.bara 6 10 24 6),
  (0xC68144E8, Instr.barw 5 10 4 7),
  (0xC501EED0, Instr.bari 2 15 14 6)].all coreDecodes = true := by decide

theorem test_decode_major_32 : [
  (0xC881C000, Instr.twait 1 14),
  (0xC893A001, Instr.ttest 1 4 29),
  (0xC9800002, Instr.tdrain 3)].all coreDecodes = true := by decide

theorem test_decode_major_33 : [
  (0xCD3E0050, Instr.msend 2 15 16 2 1)].all coreDecodes = true := by decide

theorem test_decode_major_34 : [
  (0xD22F2000, Instr.coll 4 11 25)].all coreDecodes = true := by decide

theorem test_decode_major_35 : [
  (0xD7B84060, Instr.launch 7 14 2 3)].all coreDecodes = true := by decide

theorem test_decode_major_38 : [
  (0xE083E7ED, Instr.trap 1 31 2029),
  (0xE3816A1B, Instr.svc 7 11 539),
  (0xE300579A, Instr.brk 6 2 1946),
  (0xE2801800, Instr.uret 5)].all coreDecodes = true := by decide

theorem test_decode_major_39 : [
  (0xE5000000, Instr.eret 2),
  (0xE7800001, Instr.wfi 7)].all coreDecodes = true := by decide

theorem test_decode_major_3a : [
  (0xEA44854C, Instr.csrrs 4 17 4 1356)].all coreDecodes = true := by decide

theorem test_decode_major_3b : [
  (0xEC800000, Instr.tlbinvAll 1),
  (0xEC801401, Instr.tlbinvAsid 1 20),
  (0xEF83A20A, Instr.tlbinvPage 7 29 2 2),
  (0xEF02E007, Instr.tlbinvVa 6 23 1)].all coreDecodes = true := by decide

theorem test_decode_major_3c : [
  (0xF2800000, Instr.ssave 5),
  (0xF2000001, Instr.srest 4)].all coreDecodes = true := by decide

theorem test_decode_major_3d : [
  (0xF783A000, Instr.binit 7 29),
  (0xF700A001, Instr.bwb 6 5),
  (0xF4800002, Instr.pwb 1)].all coreDecodes = true := by decide

theorem test_decode_switch_words : [
  (0x11DA, Instr.route 1 218),
  (0x23B4, Instr.hold 3 180),
  (0x3F40, Instr.routec 15 1),
  (0x48A1, Instr.setc 2 161),
  (0x5813, Instr.setch 2 19),
  (0x6FC0, Instr.ldc 3 30),
  (0x7CC9, Instr.dbnz 3 201),
  (0x8A1F, Instr.bzc 2 543),
  (0x9C11, Instr.bcz 24 17),
  (0xAF85, Instr.bcnz 31 5),
  (0xB2A4, Instr.jmp 676),
  (0xC900, Instr.wait 18),
  (0xD5C3, Instr.drop 11 67),
  (0xE000, Instr.iend)].all switchDecodes = true := by decide


/-! ### Scalar instructions (09) -/

/-- Each instruction on s4 and s5 leaves the expected word in s3. -/
def scalarCase (e : Instr × Word × Word × Word) : Bool := sOf e.1 (regs e.2.1 e.2.2.1) 3 == e.2.2.2

theorem test_scalar_arithmetic : [
  (Instr.add 0 3 4 5, 0xFFFFFFFFFFFFFFFF, 3, 2), (.sub 0 3 4 5, 3, 5, 0xFFFFFFFFFFFFFFFE), (.and 0 3 4 5, 0xC, 0xA, 8), (.or 0 3 4 5, 0xC, 0xA, 0xE),
  (.xor 0 3 4 5, 0xC, 0xA, 6), (.andn 0 3 4 5, 0xC, 0xA, 4), (.sll 0 3 4 5, 1, 65, 2), (.srl 0 3 4 5, 0x8000000000000000, 63, 1),
  (.sra 0 3 4 5, 0x8000000000000000, 63, 0xFFFFFFFFFFFFFFFF), (.min 0 3 4 5, 0xFFFFFFFFFFFFFFFF, 1, 0xFFFFFFFFFFFFFFFF),
  (.max 0 3 4 5, 0xFFFFFFFFFFFFFFFF, 1, 1), (.minu 0 3 4 5, 0xFFFFFFFFFFFFFFFF, 1, 1), (.maxu 0 3 4 5, 0xFFFFFFFFFFFFFFFF, 1, 0xFFFFFFFFFFFFFFFF),
  (.mul 0 3 4 5, 0x100000001, 0x100000000, 0x100000000), (.mulh 0 3 4 5, 0x8000000000000000, 2, 0xFFFFFFFFFFFFFFFF),
  (.mulhu 0 3 4 5, 0x8000000000000000, 2, 1), (.clz 0 3 4, 0, 0, 64), (.clz 0 3 4, 1, 0, 63), (.ctz 0 3 4, 8, 0, 3), (.popc 0 3 4, 0xFF, 0, 8)].all
  scalarCase = true := by decide +kernel

/-- Table 9-4. -/
theorem test_division_edges : [
  (Instr.div 0 3 4 5, 7, 0xFFFFFFFFFFFFFFFE, 0xFFFFFFFFFFFFFFFD), (.rem 0 3 4 5, 7, 0xFFFFFFFFFFFFFFFE, 1), (.divu 0 3 4 5, 7, 0xFFFFFFFFFFFFFFFE, 0),
  (.remu 0 3 4 5, 7, 0xFFFFFFFFFFFFFFFE, 7), (.div 0 3 4 5, 0xFFFFFFFFFFFFFFF9, 2, 0xFFFFFFFFFFFFFFFD), (.rem 0 3 4 5, 0xFFFFFFFFFFFFFFF9, 2, 0xFFFFFFFFFFFFFFFF),
  (.divu 0 3 4 5, 0xFFFFFFFFFFFFFFF9, 2, 0x7FFFFFFFFFFFFFFC), (.remu 0 3 4 5, 0xFFFFFFFFFFFFFFF9, 2, 1), (.div 0 3 4 5, 5, 0, 0xFFFFFFFFFFFFFFFF),
  (.rem 0 3 4 5, 5, 0, 5), (.divu 0 3 4 5, 5, 0, 0xFFFFFFFFFFFFFFFF), (.remu 0 3 4 5, 5, 0, 5),
  (.div 0 3 4 5, 0x8000000000000000, 0xFFFFFFFFFFFFFFFF, 0x8000000000000000), (.rem 0 3 4 5, 0x8000000000000000, 0xFFFFFFFFFFFFFFFF, 0),
  (.divu 0 3 4 5, 0x8000000000000000, 0xFFFFFFFFFFFFFFFF, 0), (.remu 0 3 4 5, 0x8000000000000000, 0xFFFFFFFFFFFFFFFF, 0x8000000000000000)].all
  scalarCase = true := by decide +kernel

theorem test_scalar_immediates : [
  (Instr.addi 0 3 4 0x1000, 1, 0, 0xFFFFFFFFFFFFF001), (.andi 0 3 4 0x1FFF, 5, 0, 5), (.ori 0 3 4 0xF, 0x10, 0, 0x1F), (.xori 0 3 4 0x1FFF, 0, 0, 0xFFFFFFFFFFFFFFFF),
  (.slli 0 3 4 63, 3, 0, 0x8000000000000000), (.srli 0 3 4 4, 0xFF, 0, 0xF), (.srai 0 3 4 4, 0xFFFFFFFFFFFFFF00, 0, 0xFFFFFFFFFFFFFFF0),
  (.limm 0 3 0 0x2180, 7, 7, 0x2180), (.lea 0 3 4 5 3, 0x40, 2, 0x50), (.lpc 0 3 16, 0, 0, 16), (.lwin 0 3 5 3, 0, 0x40, 0xF0000021000040),
  (.pget 0 3 0, 0, 0, 1)].all scalarCase = true := by decide +kernel

/-- LIMM builds the higher parts on the lower ones (R199). -/
theorem test_limm_part : sOf (.limm 0 4 2 0x1234) (regs 0xAABBCCDDEEFF0011 0) 4 = 0x1234EEFF0011 := by decide +kernel

/-- The widths of the worked example of 02: `widx s3, 1` of WID 0xA0 is 2, `widx s3, s9, 2` of 0x0FC9 is 31. -/
theorem test_widx : sOf (.widx 0 3 4 1 0) (slotWith (fun t => { t with s := vset t.s 4 0x0FC9, widf := 6 })) 3 = 9 := by decide +kernel

/-- Compares and predicate logic (Tables 9-6 and 9-7): the bit of p1. -/
theorem test_compares :
    [(Instr.cmp 0 1 4 5 0, false), (.cmp 0 1 4 5 1, true), (.cmp 0 1 4 5 2, true), (.cmp 0 1 4 5 3, false), (.cmp 0 1 4 5 4, false), (.cmp 0 1 4 5 5, true),
      (.cmp 0 1 4 5 6, true), (.cmpi 0 1 4 4 0x3FF, false), (.cmpi 0 1 5 4 0x3FF, true), (.cmpi 0 1 4 6 0x3FE, true), (.cmpi 0 1 4 7 0x3FF, true),
      (.pand 0 1 0 2, false), (.por 0 1 0 2, true), (.pxor 0 1 0 0, false), (.pandn 0 1 0 2, true), (.pnot 0 1 2, true), (.pnz 0 1 4, true)].all
      (fun e => (slotOf e.1 (regs 0xFFFFFFFFFFFFFFFF 1)).p.getLsbD 1 == e.2) = true := by decide +kernel

theorem test_branch_forward : (slotOf (.br 0 16) (regs 0 0)).pc = 16 := by decide +kernel

/-- A branch below word 0 enters the supervisor with ACCESS and STVAL −1. -/
theorem test_branch_below_zero :
    let t := slotOf (.br 0 0x7FFFFF) (regs 0 0)
    t.scause = 0x08 ∧ t.stval = 0xFFFFFFFFFFFFFFFF ∧ t.sepc = 0 ∧ t.sstatus = 1 := by decide +kernel

theorem test_jalr : sOf (.jalr 0 28 4) (regs 0x50 0) 28 = 1 ∧ (slotOf (.jalr 0 28 4) (regs 0x50 0)).pc = 0x50 := by decide +kernel

theorem test_jalr_too_far :
    let t := slotOf (.jalr 0 28 4) (regs 8192 0)
    t.scause = 0x08 ∧ t.stval = 8192 ∧ vget 0 t.s 28 = 0 := by decide +kernel

theorem test_texit_drains : (slotOf (.texit 0) (regs 0 0)).phase = .draining true := by decide +kernel

theorem test_itend_outside_a_chart : (slotOf (.itend 0) (regs 0 0)).scause = 0x01 := by decide +kernel

/-- A REP of one word for 2^40 passes saturates its count at 2^32 − 1 (R177). -/
theorem test_rep_saturates :
    let s := regs 0x10000000000 0
    let t := slotOf (.rep 0 20 4 1 0 0) (setTile s 128 { tileAt s 128 with imem := memWrite [] 4 4 0x480C8530 })
    t.rep.active = true ∧ t.rep.count = 0xFFFFFFFF ∧ t.pc = 2 ∧ t.sPend.getLsbD 20 = true := by decide +kernel

/-! ### Control and status registers (09 R209; 18) -/

theorem test_csrrw_swaps : let t := slotOf (.csrrw 0 3 4 0x10) (regs 0x2180 0)
    t.utvec = 0x2180 ∧ vget 0 t.s 3 = 0 := by decide +kernel

theorem test_csrrc_clears : (slotOf (.csrrc 0 3 4 0x10) (slotWith (fun t => { t with s := vset t.s 4 0x80, utvec := 0x2180 }))).utvec = 0x2100 := by decide +kernel

theorem test_csrrs_sets : (slotOf (.csrrs 0 0 4 0x405) (supWith (fun t => { t with s := vset t.s 4 6, sscratch := 9 }))).sscratch = 15 := by decide +kernel

theorem test_reserved_rounding_mode : let t := slotOf (.csrrw 0 0 4 0) (regs 5 0)
    t.scause = 0x02 ∧ t.nfc = 0xE400 := by decide +kernel

theorem test_supervisor_register_from_the_user_view : (slotOf (.csrrs 0 0 4 0x405) (regs 1 0)).scause = 0x03 := by decide +kernel

/-! ### Vector instructions (10) -/

/-- Each instruction on v4 and v5 leaves the expected lane 0 in v3. -/
def laneCase (e : Instr × Nat × Nat × Nat) : Bool := laneAt (vOf e.1 (vecs (lanes [e.2.1]) (lanes [e.2.2.1])) 3) 0 == e.2.2.2

theorem test_vector_integers : [
  (Instr.vaddI32 0 3 4 5 0, 0xFFFFFFFF, 2, 1), (.vsubI32 0 3 4 5 0, 1, 2, 0xFFFFFFFF), (.vandI32 0 3 4 5 0, 0xC, 0xA, 8), (.vorI32 0 3 4 5 0, 0xC, 0xA, 0xE),
  (.vxorI32 0 3 4 5 0, 0xC, 0xA, 6), (.vandnI32 0 3 4 5 0, 0xC, 0xA, 4), (.vsllI32 0 3 4 5 0, 1, 33, 2), (.vsrlN32 0 3 4 5 0, 0x80000000, 31, 1),
  (.vsraI32 0 3 4 5 0, 0x80000000, 31, 0xFFFFFFFF), (.vminI32 0 3 4 5 0, 0xFFFFFFFF, 1, 0xFFFFFFFF), (.vmaxI32 0 3 4 5 0, 0xFFFFFFFF, 1, 1),
  (.vminN32 0 3 4 5 0, 0xFFFFFFFF, 1, 1), (.vmaxN32 0 3 4 5 0, 0xFFFFFFFF, 1, 0xFFFFFFFF), (.vmulI32 0 3 4 5 0, 0x10001, 0x10000, 0x10000),
  (.vmulhI32 0 3 4 5 0, 0x80000000, 2, 0xFFFFFFFF), (.vmulhN32 0 3 4 5 0, 0x80000000, 2, 1), (.vaddsI32 0 3 4 5 0, 0x7FFFFFFF, 1, 0x7FFFFFFF),
  (.vaddsN32 0 3 4 5 0, 0xFFFFFFFF, 1, 0xFFFFFFFF), (.vsubsI32 0 3 4 5 0, 0x80000000, 1, 0x80000000), (.vsubsN32 0 3 4 5 0, 1, 2, 0),
  (.vabsI32 0 3 4 0, 0x80000000, 0, 0x7FFFFFFF), (.vclzN32 0 3 4 0, 0, 0, 32), (.vpopcN32 0 3 4 0, 0xFF, 0, 8)].all laneCase = true := by decide +kernel

/-- Binary32: 1 + 2, 3 − 1, 1.5 × 2, minimum of −0 and +0, maximum of a NaN and 1, 1 / 0, the root of 4 (R86, R222). -/
theorem test_vector_floats : [
  (Instr.vaddF 0 3 4 5 0 0, 0x3F800000, 0x40000000, 0x40400000), (.vsubF 0 3 4 5 0 0, 0x40400000, 0x3F800000, 0x40000000),
  (.vmulF 0 3 4 5 0 0, 0x3FC00000, 0x40000000, 0x40400000), (.vminF 0 3 4 5 0 0, 0, 0x80000000, 0x80000000), (.vmaxF 0 3 4 5 0 0, 0x7FC00000, 0x3F800000, 0x3F800000),
  (.vdiv 0 3 4 5 0 0, 0x3F800000, 0, 0x7F800000), (.vsqrt 0 3 4 0 0, 0x40800000, 0, 0x40000000), (.vfma 0 3 4 5 4 0, 0x40000000, 0x40400000, 0x41000000),
  (.vfnma 0 3 4 5 4 0, 0x40000000, 0x40400000, 0xC0800000), (.vdot2 0 3 4 5 5, 0x3F803F80, 0x00003F80, 0x3F800000), (.vdot2n 0 3 4 5 6, 0x3F803F80, 0x40003F80, 0xC0400000)].all
  laneCase = true := by decide +kernel

/-- 1 / 0 sets DZ. -/
theorem test_vdiv_flag : (slotOf (.vdiv 0 3 4 5 0 0) (vecs (lanes [0x3F800000]) (lanes [0, 1, 1, 1, 1, 1, 1, 1, 1, 1, 1, 1, 1, 1, 1, 1]))).flags.toNat % 4 = 2 := by decide +kernel

/-- Conversions: −1 to binary32, 2^32 − 1 rounded up, NaN to 0, 2^31 saturated, −1 to unsigned, 1.0 to and from binary16 and bfloat16, 2.5 to the even integer. -/
theorem test_conversions : [
  (Instr.vcvtI32F32 0 3 4 0, 0x3F800000, 0, 1), (.vcvtF32I32 0 3 4 0, 0xFFFFFFFF, 0, 0xBF800000), (.vcvtF32N32 0 3 4 0, 0xFFFFFFFF, 0, 0x4F800000),
  (.vcvtI32F32 0 3 4 0, 0x7FC00000, 0, 0), (.vcvtI32F32 0 3 4 0, 0x4F000000, 0, 0x7FFFFFFF), (.vcvtN32F32 0 3 4 0, 0xBF800000, 0, 0),
  (.vcvtF32F16 0 3 4 0 0, 0x3C00, 0, 0x3F800000), (.vcvtF16F32 0 3 4 0 1, 0x3F800000, 0, 0x3C000000), (.vcvtF32Bf16 0 3 4 0 1, 0x3F800000, 0, 0x3F800000),
  (.vcvtBf16F32 0 3 4 0 0, 0x3F808000, 0, 0x3F80), (.vrint 0 3 4 0, 0x40200000, 0, 0x40000000)].all laneCase = true := by decide +kernel

/-- The packing conversions of R226. -/
theorem test_packing : [
  (Instr.vupk4 0 3 4 0, 0x8F, 0, 0x8087), (.vpk4 0 3 4 0, 0x8103, 0, 0x93), (.vupk6 0 3 4, 0x3F, 0, 0x9F),
  (.vpk6 0 3 4, 0x819F, 0, 0x87F)].all laneCase = true := by decide +kernel

theorem test_permutes : [
  (Instr.vperm 0 3 4 5 0, 7, 1, 0), (.vrot 0 3 4 0 0, 7, 0, 7), (.vslu 0 3 4 1 0, 7, 0, 0), (.vsld 0 3 4 0 0, 7, 0, 7), (.vrev 0 3 4 0, 7, 0, 0),
  (.vhswap 0 3 4 0, 0x12345678, 0, 0x56781234), (.vpkl 0 3 4 5 0, 0x11112222, 0x33334444, 0x44442222), (.vpkh 0 3 4 5 0, 0x11112222, 0x33334444, 0x33331111),
  (.vmov 0 3 4 0, 7, 0, 7), (.vsel 0 3 4 5 1, 7, 9, 9), (.vabsF32 0 3 4 0, 0xBF800000, 0, 0x3F800000), (.vnegF32 0 3 4 0, 0x7FC00000, 0, 0x7FC00000),
  (.vabsF16 0 3 4 0, 0xBC00BC00, 0, 0x3C003C00), (.vnegF16 0 3 4 0, 0x3C007E00, 0, 0xBC007E00), (.vabsBf16 0 3 4 0, 0xBF80BF80, 0, 0x3F803F80),
  (.vnegBf16 0 3 4 0, 0x3F807FC0, 0, 0xBF807FC0)].all laneCase = true := by decide +kernel

/-- Lane 15 of the permutes that move lanes. -/
theorem test_permutes_top_lane : [
  (Instr.vrot 0 3 4 1 0, 7), (.vslu 0 3 4 15 0, 7), (.vsld 0 3 4 1 0, 0), (.vrev 0 3 4 0, 7)].all
  (fun e => laneAt (vOf e.1 (vecs (lanes [7, 8]) 0) 3) 15 == e.2) = true := by decide +kernel

theorem test_moves_between_files :
    laneAt (vOf (.vsplatI32 0 3 4 0) (regs 0x123456789 0) 3) 15 = 0x23456789 ∧ laneAt (vOf (.vsplatI64 0 3 4 0) (regs 0x123456789 0) 3) 15 = 1 ∧
      laneAt (vOf (.vins 0 3 4 2) (regs 0x123456789 0) 3) 2 = 0x23456789 ∧ sOf (.vextI32 0 3 4 1) (vecs (lanes [0, 0x80000000]) 0) 3 = 0xFFFFFFFF80000000 ∧
      sOf (.vextN32 0 3 4 1) (vecs (lanes [0, 0x80000000]) 0) 3 = 0x80000000 := by decide +kernel

/-- Compares of v4 and v5: bit 0 of m1. -/
theorem test_vector_compares : [
  (Instr.vcmp 0 1 4 5 0 0 2, true), (.vcmp 0 1 4 5 0 1 2, false), (.vcmp 0 1 4 5 0 2 0, false), (.vcmp 0 1 4 5 0 2 6, true), (.vcmp 0 1 4 5 0 2 1, true)].all
  (fun e => (vget 0 (slotOf e.1 (vecs (lanes [0xFFC00000]) (lanes [0x3F800000]))).m 1).getLsbD 0 == e.2) = true := by decide +kernel

/-- The reduction example of 10: 2^24 + 1 + 1 is 2^24 with NX, since 1 + 0 is added to 2^24 + 1 rounded. -/
theorem test_vsum_f32 : let t := slotOf (.vsumF 0 3 4 0 0) (vecs (lanes [0x4B800000, 0x3F800000, 0x3F800000]) 0)
    vget 0 t.s 3 = 0x4B800000 ∧ t.flags.getLsbD 4 = true := by decide +kernel

theorem test_integer_reductions : [
  (Instr.vsumI32 0 3 4 0, 0xFFFFFFFFFFFFFFFE), (.vsumN32 0 3 4 0, 0x1FFFFFFFE), (.vrminI32 0 3 4 0, 0xFFFFFFFFFFFFFFFF), (.vrmaxI32 0 3 4 0, 0),
  (.vrminN32 0 3 4 0, 0), (.vrmaxN32 0 3 4 0, 0xFFFFFFFF)].all (fun e => sOf e.1 (vecs (lanes [0xFFFFFFFF, 0xFFFFFFFF]) 0) 3 == e.2) = true := by decide +kernel

/-- A lane that a governing mask leaves out keeps its value. -/
theorem test_masked_lane_is_kept :
    laneAt (vOf (.vaddI32 0 3 4 5 1) (slotWith (fun t => { t with v := vset (vset t.v 4 (lanes [1, 1])) 3 (lanes [5, 5]), m := vset t.m 1 2 })) 3) 0 = 5 := by decide +kernel

/-- A saturated magnitude, and an exact one, under RNE: 2^128 does not fit binary32 (R82). -/
theorem test_overflow_is_infinite :
    let t := slotOf (.vmulF 0 3 4 5 0 0) (vecs (lanes [0x7F7FFFFF]) (lanes [0x40000000]))
    laneAt (vget 0 t.v 3) 0 = 0x7F800000 := by decide +kernel

/-- Masks (Table 10-14). -/
theorem test_masks :
    (vget 0 (slotOf (.mset 0 1 4) (regs 0x1FFFF 0)).m 1 = 0xFFFF) ∧ (vget 0 (slotOf (.mlow 0 1 4) (regs 3 0)).m 1 = 7) ∧ (vget 0 (slotOf (.mlow 0 1 4) (regs 16 0)).m 1 = 0xFFFF) ∧
      (let s := slotWith (fun t => { t with m := vset (vset t.m 2 0xC) 3 0xA })
       (vget 0 (slotOf (.mand 0 1 2 3) s).m 1 = 8) ∧ (vget 0 (slotOf (.mor 0 1 2 3) s).m 1 = 0xE) ∧ (vget 0 (slotOf (.mxor 0 1 2 3) s).m 1 = 6) ∧
         (vget 0 (slotOf (.mandn 0 1 2 3) s).m 1 = 4) ∧ (vget 0 (slotOf (.mnot 0 1 2) s).m 1 = 0xFFF3) ∧ sOf (.mget 0 3 2) s 3 = 0xC ∧ sOf (.mpop 0 3 2) s 3 = 2 ∧
         sOf (.mfirst 0 3 2) s 3 = 2 ∧ sOf (.mfirst 0 3 4) s 3 = 16) := by decide +kernel

theorem test_gset_gget : vget 0 (slotOf (.gset 0 1 4) (regs 0x7F 0)).g 1 = 0x7F ∧ sOf (.gget 0 3 1) (slotWith (fun t => { t with g := vset t.g 1 0x7F })) 3 = 0x7F := by decide +kernel

/-- A block whose largest element is 1.0 aligns to 8 bits under E = −6, code 121 (R112). -/
theorem test_vbexp : vget 0 (slotOf (.vbexp 0 1 4 0 0 0 0) (vecs (lanes [0x3F800000]) 0)).g 1 = 121 := by decide +kernel

/-! ### Residue arithmetic (11) -/

/-- Slot 0 of a chart of one tile, its accumulators and registers as given. -/
def chartWith (f : Tile → Tile) (g : Slot → Slot) : State :=
  setTile State.reset 128 (f { Tile.reset with slots := vset Tile.reset.slots 0 (g { Slot.reset with phase := .running, isChart := true }) })

/-- −1 among sixteen values of 32 bits: every digit is its modulus less 1 (Table 5-1), and the bound is 1 (R247). -/
theorem test_rfwd :
    let t := tileAt (after (exec (.rfwd 0 0 4 5 2 0 0) (chartWith id (fun t => { t with v := vset t.v 4 (lanes [0xFFFFFFFF]) })))) 128
    memBytes (vget Acc.reset t.acc 0).cells 0 10 = [255, 254, 252, 250, 246, 240, 238, 232, 228, 226] ∧ (vget Acc.reset t.acc 0).beta = 1 := by decide +kernel

theorem test_rzero_and_rbget :
    let f := fun (t : Tile) => { t with acc := vset t.acc 2 { cells := [(0, 5)], beta := 9, poison := true } }
    (vget Acc.reset (tileAt (after (exec (.rzero 0 2) (chartWith f id))) 128).acc 2) = Acc.reset ∧ sOf (.rbget 0 3 2) (chartWith f id) 3 = 9 := by decide +kernel

/-- RMOV copies bytes, bound and poison (R253). -/
theorem test_rmov :
    let f := fun (t : Tile) => { t with acc := vset t.acc 2 { cells := [(0, 5)], beta := 9, poison := true } }
    (vget Acc.reset (tileAt (after (exec (.rmov 0 1 2) (chartWith f id))) 128).acc 1) = { cells := [(0, 5)], beta := 9, poison := true } := by decide +kernel

/-! ### Accesses, messages and operations (12) -/

/-- A store is issued with its bytes, and nothing is written yet. -/
theorem test_store_issues :
    let t := tileAt (after (exec (.st 0 4 5 0 0 3 1) (regs 0xAB 0xF0000000000000))) 128
    (slotAt (after (exec (.st 0 4 5 0 0 3 1) (regs 0xAB 0xF0000000000000))) 128 0).outs.map (fun a => (a.va, a.size)) = [(0xF0000000000008, 8)] ∧ t.scratch = [] := by decide +kernel

/-- A misaligned load raises MISALIGN with its address. -/
theorem test_misaligned_load : let t := slotOf (.ld 0 3 5 0 0 3 0 0) (regs 0 0xF0000000000004)
    t.scause = 0x04 ∧ t.stval = 0xF0000000000004 := by decide +kernel

/-- A load from the own scratch is performed, and its reply is written to its register. -/
theorem test_load_reply :
    let s := regs 0 0xF0000000000008
    let s0 := setTile s 128 { tileAt s 128 with scratch := memWrite [] 8 8 0x1122 }
    let s1 := after (exec (.ld 0 3 5 0 0 3 0 0) s0)
    let s2 := after (exec .accessPerform { s1 with arg := .three 128 0 0 })
    let s3 := after (exec .loadReply { s2 with arg := .two 128 0 })
    vget 0 (slotAt s3 128 0).s 3 = 0x1122 ∧ (slotAt s1 128 0).sPend.getLsbD 3 = true ∧ (slotAt s3 128 0).sPend.getLsbD 3 = false := by decide +kernel

theorem test_fence_with_nothing_outstanding : (slotOf (.fence 0 0 0xFF) (regs 0 0)).pc = 1 := by decide +kernel

/-! ### Traps (13; 18) -/

/-- The delegated TRAP of 13: UEPC 0x0101, UCAUSE 2^63 + 3 × 2^8 + 0x17, UTVAL 0x2A, handler at 0x0180. -/
theorem test_delegated_trap :
    let s := slotWith (fun t => { t with s := vset t.s 9 0x2A, utvec := 0x2180, pc := 0x100 })
    let s1 := { s with parts := [(0, { Part.reset with st := .running, groups := 0xFFFFFFFF, deleg := 0x800000 })], cur := { s.cur with pc := 0x100 } }
    let t := slotOf (.trap 0 9 3) s1
    t.uepc = 0x101 ∧ t.ucause = 0x8000000000000317 ∧ t.utval = 0x2A ∧ t.pc = 0x180 := by decide +kernel

theorem test_svc_and_break :
    (slotOf (.svc 0 4 7) (regs 5 0)).scause = 0x718 ∧ (slotOf (.svc 0 4 7) (regs 5 0)).sepc = 1 ∧ (slotOf (.brk 0 4 7) (regs 5 0)).scause = 0x719 ∧
      (slotOf (.brk 0 4 7) (regs 5 0)).sepc = 0 := by decide +kernel

theorem test_uret_outside_a_handler : (slotOf (.uret 0) (regs 0 0)).scause = 0x01 := by decide +kernel

theorem test_uret : let t := slotOf (.uret 0) (slotWith (fun t => { t with ucause := 0x8000000000000317, uepc := 0x101 }))
    t.pc = 0x101 ∧ t.ucause = 0x317 := by decide +kernel

/-- ERET restores V and IE from PV and PIE (R328). -/
theorem test_eret : let t := slotOf (.eret 0) (supWith (fun t => { t with sstatus := 0x5, sepc := 0x40 }))
    t.sstatus = 0x8 ∧ t.pc = 0x40 := by decide +kernel

theorem test_eret_from_the_user_view : (slotOf (.eret 0) (regs 0 0)).scause = 0x03 := by decide +kernel

theorem test_wfi_outside_the_event_slot : (slotOf (.wfi 0) (supWith id)).pc = 1 := by decide +kernel

/-! ### Switch words (13) -/

/-- A running switch whose buffer cA holds a count. -/
def switchWith (f : Switch → Switch) : State :=
  setSwitch State.reset 128 (f { Switch.reset with phase := .running, bufs := vset Switch.reset.bufs 12 [⟨3, false⟩] })

theorem test_ldc : let w := switchAt (after (exec (.ldc 0 12) (switchWith id))) 128
    vget 0 w.c 0 = 3 ∧ vget [] w.bufs 12 = [] ∧ w.pc = 1 := by decide +kernel

/-- SETC loads the low ten bits, SETCH the high six (Table 13-3). -/
theorem test_setc_and_setch :
    let c := fun i => vget 0 (switchAt (after (exec i (switchWith (fun w => { w with c := vset w.c 1 0xFFFF })))) 128).c 1
    c (.setc 1 0xAB) = 0xAB ∧ c (.setch 1 2) = 0xBFF := by decide +kernel

/-- DBNZ from 2 branches back by 2 words, and from 1 goes on. -/
theorem test_dbnz :
    let run := fun (n : BitVec 16) =>
      switchAt (after (exec (.dbnz 1 0x3FE) { switchWith (fun w => { w with pc := 5, c := vset w.c 1 n }) with cur := { pos := 128, slot := 0, pc := 5, pass := false, stalled := false } })) 128
    vget 0 (run 2).c 1 = 1 ∧ (run 2).pc = 3 ∧ vget 0 (run 1).c 1 = 0 ∧ (run 1).pc = 6 := by decide +kernel

/-- A route from wD to the east data output and to the core's pd moves one word to both (03 R60; entry 0xFFFFEB5B of 13). -/
theorem test_route_feeds_both_targets :
    let s := setSwitch State.reset 129 { Switch.reset with phase := .running, rtab := vset Switch.reset.rtab 0 0xFFFFEB5B, bufs := vset Switch.reset.bufs 11 [⟨7, false⟩] }
    let t := after (exec (.route 0 0) { s with cur := { pos := 129, slot := 0, pc := 0, pass := false, stalled := false } })
    (switchAt t 129).pc = 1 ∧ vget [] (switchAt t 129).bufs 17 = [⟨7, false⟩] := by decide +kernel

theorem test_jmp_and_iend :
    (switchAt (after (exec (.jmp 1) (switchWith id))) 128).pc = 1 ∧ (switchAt (after (exec .iend (switchWith id))) 128).iter = 1 := by decide +kernel

/-! ### Steps -/

/-- The first instruction after reset, placed where it is fetched. -/
theorem test_step_runs_a_core_word : vget 0 (slotAt (after (step (State.reset.withFetchWord 32 0x080C8020))) 128 0).s 3 = 32 := by decide +kernel

theorem test_step_runs_a_switch_word : (switchAt (after (step (State.reset.withFetchWord 16 0xB002))) 128).pc = 2 := by decide +kernel

/-- The all-zero word is undefined (08 R175). -/
theorem test_step_undefined_word : (slotAt (after (step (State.reset.withFetchWord 32 0))) 128 0).scause = 1 := by decide +kernel

end Sys2Proof.Tests
end

