-- ==== Sys2Proof/Tests/Witness1.lean ====
section
/-!
SUPPORT. Witnesses: for each statement with hypotheses, concrete states and operands that meet them, one for each clause.
-/
namespace Sys2Proof.Tests

open Sys2Proof Sys2Proof.Machine Sys2Proof.Safety

set_option Elab.async false

/-! ### Decoding, steps and causes at issue -/

theorem test_meets_RoundTrip :
    (Instr.add 7 31 31 31).isCore = true ∧ (Instr.add 7 31 31 31).wf = true ∧ (Instr.bcnz 31 127).isSwitch = true ∧ (Instr.bcnz 31 127).wf = true := by decide +kernel

theorem test_meets_DecodedWordIsItsEncoding : coreDecodes (0x080C8020, .addi 0 3 4 32) = true ∧ switchDecodes (0x6180, .ldc 0 12) = true := by decide +kernel

/-- A word that the decoder rejects with a given error. -/
def rejects (w : Nat) (e : DecodeError) : Bool := match decodeCore w with | .error x => decide (x = e) | .ok _ => false

/-- The state with the current slot's instruction at a given word. -/
def atWord (s : State) (n : Nat) : State := { s with cur := { s.cur with pc := BitVec.ofNat 14 n } }

theorem test_meets_CausesAtIssue :
    let s := regs 1 2
    let p := slotWith (fun t => { t with pP := 2, mP := 2, p := 0 })
    0xFFFFFFFF / 2 ^ 26 ∈ [0x00, 0x1B, 0x1C, 0x1D, 0x1E, 0x1F, 0x26, 0x27, 0x36, 0x37, 0x3E, 0x3F] ∧ 0xFFFF / 2 ^ 12 ∈ [0x0, 0xF] ∧
      rejects 0 .undefOp = true ∧ rejects 0xE4000101 .rsvdField = true ∧ mayIssue s = true ∧ ahead s = false ∧
      (rejects 805306626 .rsvdField = true ∧ 805306626 / 2 ^ 26 = 0x0C ∧ (rowOneCause s 805306626).isSome = true ∧ rowOneCause s 805306625 = none ∧ rejects 805306625 .rsvdField = true) ∧
      (viewCause (.add 0 3 30 5) s = none ∧ (srcsOf (.add 0 3 30 5) ++ dstsOf (.add 0 3 30 5)).any (fun r => portOf r != none || r.file == .a) = true ∧ chartSlot s = false) ∧
      (majorOf (.eret 0) = 0x39 ∧ majorOf (.pwb 0) = 0x3D ∧ (me s).sstatus.getLsbD 0 = false) ∧
      (mayIssue p = true ∧ ahead p = false ∧ decodeCause (.add 1 3 4 5) p = none ∧ heldBack (.add 1 3 4 5) p = false ∧ (me p).pP.getLsbD 1 = true) ∧
      (decodeCause (.vmov 0 3 4 1) p = none ∧ heldBack (.vmov 0 3 4 1) p = false ∧ maskRegOf (.vmov 0 3 4 1) = some 1 ∧ (me p).maskPoison 1 = true ∧ (me p).predOf 0 = true) ∧
      (let e := atWord s 8191
       mayIssue e = true ∧ ahead e = false ∧ e.cur.pass = false ∧ e.cur.pc = 8191 ∧ decodeCause (.add 1 3 4 5) e = none ∧ heldBack (.add 1 3 4 5) e = false ∧
         (me e).pP.getLsbD 1 = false ∧ (me e).predOf 1 = false ∧ decodeCause (.add 0 3 4 5) e = none ∧ heldBack (.add 0 3 4 5) e = false ∧
         scalarResult (.add 0 3 4 5) e (operands (.add 0 3 4 5) e) ≠ none ∧ portsReady (.add 0 3 4 5) e = true ∧ calm e = true) := by decide +kernel

theorem test_meets_StepRunsWhatItFetches :
    let s := State.reset.withFetchWord 32 0x080C8020
    let s0 := { s with agenda := [] }
    let w := State.reset.withFetchWord 16 0xB002
    s.agenda = [.tile 128] ∧ slotOrder (tileAt s 128).last = [0, 1, 2, 3] ∧ (slotAt s 128 0).phase = .running ∧ boundaryRow (actAs s0 128 0) 128 0 = none ∧
      frozenSlot (actAs s0 128 0) 128 0 = false ∧ (slotAt s 128 0).rep.issuing = false ∧
      (slotAt s 128 0).tornAt (slotAt s 128 0).pc.toNat = none ∧ coreDecodes (codeWord s 128 0 (slotAt s 128 0).pc.toNat, .addi 0 3 4 32) = true ∧
      w.agenda = [.switch 128] ∧ switchRuns w 128 = true ∧ switchDecodes (memRead (switchAt w 128).rmem (2 * (switchAt w 128).pc.toNat) 2, .jmp 2) = true := by decide +kernel

theorem test_meets_SkippedAndStalledInstructions :
    skips (.add 1 3 4 5) (regs 1 2) = true ∧
      (let s := slotWith (fun t => { t with sPend := 16 })
       mayIssue s = true ∧ decodeCause (.add 0 3 4 5) s = none ∧ ⟨.s, 4⟩ ∈ scoreboardRegs (.add 0 3 4 5) ∧ pendingReg (me s) ⟨.s, 4⟩ = true) := by decide +kernel

/-! ### Exceptions -/

/-- A slot whose passes are active, with a partition that delegates USER_TRAP and a user handler. -/
def delegating (f : Slot → Slot) : State :=
  let s := slotWith (fun t => f { t with utvec := 0x2180, stvec := 0x40 })
  { s with parts := [(0, { Part.reset with st := .running, groups := 0xFFFFFFFF, deleg := 0x800000 })] }

theorem test_meets_SupervisorTrapEntry :
    entersUser (delegating id) 128 (slotAt (delegating id) 128 0) 0x18 = false ∧
      ((slotAt (delegating id) 128 0).busy = none ∧ (slotAt (delegating id) 128 0).blocked = none ∧ (slotAt (delegating id) 128 0).fence = none) ∧
      (slotAt (delegating (fun t => { t with rep := { t.rep with active := true } })) 128 0).rep.susp = false := by decide +kernel

theorem test_meets_UserTrapEntry :
    let all := fun (s : State) => !(slotAt s 128 0).sstatus.getLsbD 0 && (partAt s 0).deleg.getLsbD 0x17 && (slotAt s 128 0).utvec.getLsbD 13 && !(slotAt s 128 0).ucause.getLsbD 63
    partOf (delegating id) 128 = some 0 ∧ all (delegating id) = true ∧ all (delegating (fun t => { t with ucause := 0x8000000000000017 })) = false ∧
      (slotAt (delegating (fun t => { t with rep := { t.rep with active := true } })) 128 0).rep.active = true := by decide +kernel

theorem test_meets_TrapsAndReturns :
    (∀ i ∈ [Instr.trap 0 4 3, .svc 0 4 3, .brk 0 4 3], ahead (regs 1 2) = false ∧ ready i (regs 1 2) = true ∧ (operands i (regs 1 2)).psn 0 = false ∧
      ready i (slotWith (fun t => { t with sP := 16 })) = true ∧ (operands i (slotWith (fun t => { t with sP := 16 }))).psn 0 = true) ∧
      ready (.eret 0) (supWith id) = true ∧ ready (.eret 0) (supWith (fun t => { t with rep := { t.rep with active := true, susp := true } })) = true ∧
      ready (.uret 0) (slotWith (fun t => { t with ucause := 0x8000000000000017 })) = true ∧ ready (.uret 0) (regs 1 2) = true := by decide +kernel

/-! ### Scalar instructions, registers and control -/

/-- The scalar instructions of the statement, one term each. -/
def scalars : List Instr :=
  [.add 0 3 4 5, .sub 0 3 4 5, .and 0 3 4 5, .or 0 3 4 5, .xor 0 3 4 5, .andn 0 3 4 5, .sll 0 3 4 5, .srl 0 3 4 5, .sra 0 3 4 5, .min 0 3 4 5, .max 0 3 4 5,
    .minu 0 3 4 5, .maxu 0 3 4 5, .mul 0 3 4 5, .mulh 0 3 4 5, .mulhu 0 3 4 5, .div 0 3 4 5, .divu 0 3 4 5, .rem 0 3 4 5, .remu 0 3 4 5, .clz 0 3 4, .ctz 0 3 4,
    .popc 0 3 4, .addi 0 3 4 1, .andi 0 3 4 1, .ori 0 3 4 1, .xori 0 3 4 1, .slli 0 3 4 1, .srli 0 3 4 1, .srai 0 3 4 1, .limm 0 3 0 1, .pget 0 3 1,
    .widx 0 3 0 0 1, .lea 0 3 4 5 1, .lpc 0 3 1, .lwin 0 3 4 1]

theorem test_meets_ScalarAndPredicateResults :
    (∀ i ∈ scalars, i.wf = true ∧ ready i (regs 7 2) = true ∧ (scalarResult i (regs 7 2) (operands i (regs 7 2))).isSome = true) ∧ calm (regs 7 2) = true ∧
      ∀ i ∈ [Instr.cmp 0 1 4 5 6, .cmpi 0 1 4 6 1, .pand 0 1 2 3, .por 0 1 2 3, .pxor 0 1 2 3, .pandn 0 1 2 3, .pnot 0 1 2, .pnz 0 1 4],
        ready i (regs 7 2) = true ∧ (predicateResult i (operands i (regs 7 2))).isSome = true := by decide +kernel

theorem test_meets_Division :
    ∀ i ∈ [Instr.div 0 3 4 5, .rem 0 3 4 5, .divu 0 3 4 5, .remu 0 3 4 5],
      ready i (regs 5 0) = true ∧ ready i (regs 0x8000000000000000 0xFFFFFFFFFFFFFFFF) = true ∧ ready i (regs 7 2) = true ∧ calm (regs 7 2) = true := by decide +kernel

theorem test_meets_RegistersAndProgramCounter :
    (regs 1 2).cur.slot < 4 ∧ (regs 1 2).cur.pass = false ∧ (5 : BitVec 5) ≠ 0 ∧ (5 : BitVec 5) ≠ 30 ∧ (5 : BitVec 5) ≠ 31 ∧ (31 : BitVec 5).toNat = 31 ∧
      { (regs 1 2).cur with pass := true }.slot < 4 ∧ (30 : BitVec 5).toNat = 30 ∧ ahead (regs 1 2) = false ∧ (me (regs 1 2)).busy = none ∧
      (∀ k ∈ [0, 1, 2], vget [] (switchAt (regs 1 2) (regs 1 2).cur.pos).reserved k = [] ∧
        (let s := setSwitch (regs 1 2) 128 { Switch.reset with reserved := Vector.replicate 3 [{ slot := 0, id := .access 1, word := none }] }
         vget [] (switchAt s s.cur.pos).reserved k ≠ [])) := by decide +kernel

theorem test_meets_Branch :
    coreDecodes (0x2D7FFFFE, .br 2 0x7FFFFE) = true ∧ ready (.br 0 16) (regs 1 2) = true ∧ ready (.br 0 0x1FFF) (regs 1 2) = true ∧ ready (.br 0 0x2000) (regs 1 2) = true ∧
      ready (.br 0 0x7FFFFF) (regs 1 2) = true ∧ ahead (regs 1 2) = false ∧ skips (.br 1 16) (regs 1 2) = true := by decide +kernel

theorem test_meets_JumpAndLink :
    ready (.jalr 0 28 4) (regs 8191 0) = true ∧ ready (.jalr 0 28 4) (regs 8192 0) = true ∧ ready (.jalr 0 28 4) (slotWith (fun t => { t with sP := 16 })) = true ∧
      (operands (.jalr 0 28 4) (regs 8191 0)).psn 0 = false ∧ ((operands (.jalr 0 28 4) (regs 8191 0)).word 0).toNat < 8192 ∧
      8192 ≤ ((operands (.jalr 0 28 4) (regs 8192 0)).word 0).toNat ∧ (operands (.jalr 0 28 4) (slotWith (fun t => { t with sP := 16 }))).psn 0 = true := by decide +kernel

/-- A chart of one tile at (0, 1). -/
def berth0 : Berth where
  id := 5
  part := 0
  tx := 0
  ty := 0
  w := 1
  h := 1
  prio := 0
  budget := 0
  lrec := []
  seq := .step
  dispatched := true
  stepIdx := 0
  conf := 0
  count := 3
  imgs := Vector.replicate 4 0
  installed := Vector.replicate 4 false
  asid := 0
  root := 0
  still := 0
  told := false
  saveT := none
  evict := false
  resume := none
  desc := 0
  pool := []
  cap := 0
  held := none

/-- Slot 0 of the chart, with its tile, slot and berth as given. -/
def inChart (f : Tile → Tile) (g : Slot → Slot) (b : Berth) : State :=
  let s := chartWith (fun t => f { t with berth := some 5, dom := some 5 }) g
  { s with
    berths := [b]
    parts := [(0, { Part.reset with st := .running, groups := 0xFFFFFFFF, tkey := 3 })]
    keys := [(0, { KeySlot.reset with owner := some 0 }), (3, { KeySlot.reset with owner := some 0, inst0 := some (1, 2) })] }

/-- Words 1 and 2 of the instruction memory hold VFMA. -/
def withWords (t : Tile) : Tile := { t with imem := memWrite (memWrite [] 4 4 0x480C8530) 8 4 0x480C8530 }

theorem test_meets_EndOfWorkAndRepeat :
    ready (.texit 0) (regs 1 2) = true ∧
      (let s := inChart (fun t => { t with coit := 1 }) id berth0
       ready (.itend 0) s = true ∧ berthAt s 128 = some berth0 ∧ (tileAt s 128).coit + 1 < berth0.count) ∧
      (let s := inChart (fun t => { t with coit := 2 }) id berth0
       ready (.itend 0) s = true ∧ berthAt s 128 = some berth0 ∧ ¬(tileAt s 128).coit + 1 < berth0.count) ∧
      (let s := inChart id id { berth0 with saveT := some 1 }
       ready (.itend 0) s = true ∧ berthAt s 128 = some { berth0 with saveT := some 1 }) ∧
      (let s := fun n => setTile (regs n 0) 128 (withWords (tileAt (regs n 0) 128))
       ready (.rep 0 20 4 1 0 1) (s 0) = true ∧ ready (.rep 0 20 4 1 0 1) (s 7) = true ∧ (operands (.rep 0 20 4 1 0 1) (s 7)).psn 0 = false ∧ (me (s 7)).rep.active = false) ∧
      (let s0 := slotWith (fun t => { t with rep := { t.rep with active := true, susp := true } })
       let s := setTile s0 128 (withWords (tileAt s0 128))
       ready (.rep 0 20 4 1 0 1) s = true ∧ (me s).rep.active = true ∧ ahead s = false) := by decide +kernel

end Sys2Proof.Tests
end

