-- ==== Sys2Proof/Tests/Witness2.lean ====
section
/-!
SUPPORT. Witnesses for the statements about vector instructions, registers and accesses.
-/
namespace Sys2Proof.Tests

open Sys2Proof Sys2Proof.Machine Sys2Proof.Safety

set_option Elab.async false

/-! ### Vector instructions -/

/-- v4, v5 and v6 hold ones in binary32, the decode tables 0 and 3 are valid and zero, g1 is 0. -/
def vstate (f : Slot → Slot) : State :=
  let one := lanes (List.replicate 16 0x3F800000)
  tileWith (fun t =>
    { t with
      dtab := Vector.replicate 4 { valid := true, data := [] }
      slots := vset t.slots 0 (f { vget Slot.reset t.slots 0 with v := vset (vset (vset Slot.reset.v 4 one) 5 one) 6 one }) })

theorem test_meets_VectorIntegerResults :
    (∀ i ∈ [Instr.vaddI32 0 3 4 5 1, .vsubI32 0 3 4 5 1, .vandI32 0 3 4 5 1, .vorI32 0 3 4 5 1, .vxorI32 0 3 4 5 1, .vandnI32 0 3 4 5 1, .vsllI32 0 3 4 5 1,
        .vsrlN32 0 3 4 5 1, .vsraI32 0 3 4 5 1, .vminI32 0 3 4 5 1, .vmaxI32 0 3 4 5 1, .vminN32 0 3 4 5 1, .vmaxN32 0 3 4 5 1, .vmulI32 0 3 4 5 1, .vmulhI32 0 3 4 5 1,
        .vmulhN32 0 3 4 5 1, .vaddsI32 0 3 4 5 1, .vaddsN32 0 3 4 5 1, .vsubsI32 0 3 4 5 1, .vsubsN32 0 3 4 5 1, .vabsI32 0 3 4 1, .vclzN32 0 3 4 1, .vpopcN32 0 3 4 1],
      ready i (vstate id) = true ∧ calm (vstate id) = true ∧ (laneResult i (operands i (vstate id)) 15).isSome = true) := by decide +kernel

/-- A saturating sum whose shadow is another value, with room in the tile syndrome queue and without. -/
theorem test_meets_VectorIntegerResults_shadow :
    let i : Instr := .vaddsI32 0 3 4 5 0
    let s := vstate (fun t => { t with v := vset (vset t.v 4 0x3FFFFFFF) 5 0x3FFFFFFF })
    let full := setMyTile s { myTile s with synq := List.replicate 8 { kind := 1, slot := 0, part := none, cycle := 0, addr := 0, lo := 0 } }
    ready i s = true ∧ calm s = true ∧ (laneResult i (operands i s) 0).map (·.2.2.2) = some true ∧ shadowFails i (operands i s) 0 = true ∧ 0 ∈ lanesOf s 0 ∧
      (myTile s).synq.length < 8 ∧ ahead s = false ∧ ready i full = true ∧ calm full = true ∧ 8 ≤ (myTile full).synq.length ∧
      shadowFails (.vaddI32 0 3 4 5 1) (operands (.vaddI32 0 3 4 5 1) (vstate id)) 0 = false := by decide +kernel

theorem test_meets_VectorMovesAndMasks :
    (∀ i ∈ [Instr.vperm 0 3 4 5 1, .vrot 0 3 4 15 1, .vslu 0 3 4 15 1, .vsld 0 3 4 15 1, .vrev 0 3 4 1, .vhswap 0 3 4 1, .vpkl 0 3 4 5 1, .vpkh 0 3 4 5 1, .vmov 0 3 4 1,
        .vsplatI32 0 3 4 1, .vsplatI64 0 3 4 1, .vabsF32 0 3 4 1, .vnegF32 0 3 4 1, .vabsF16 0 3 4 1, .vnegF16 0 3 4 1, .vabsBf16 0 3 4 1, .vnegBf16 0 3 4 1],
      ready i (vstate id) = true ∧ (moveResult i (operands i (vstate id)) 15).isSome = true) ∧
      (∀ i ∈ [Instr.vextN32 0 3 4 15, .vextI32 0 3 4 15, .gset 0 7 4, .gget 0 3 7, .mand 0 1 2 3, .mor 0 1 2 3, .mxor 0 1 2 3, .mandn 0 1 2 3, .mnot 0 1 2, .mset 0 1 4, .mget 0 3 2,
          .mpop 0 3 2, .mfirst 0 3 2, .mlow 0 1 4], i.wf = true ∧ ready i (vstate id) = true ∧ (fileResult i (operands i (vstate id))).isSome = true) ∧
      (Instr.vins 0 3 4 15).wf = true ∧ ready (.vins 0 3 4 15) (vstate id) = true ∧ ready (.vsel 0 3 4 5 1) (vstate id) = true ∧
      (let s := vstate (fun t => { t with g := vset t.g 7 0xF00000000 })
       ready (.gget 0 3 7) s = true ∧ ahead s = false ∧ validScale ((operands (.gget 0 3 7) s).word 0) = false) := by decide +kernel

theorem test_meets_ReductionsAndCompares :
    (∀ i ∈ [Instr.vsumI32 0 3 4 1, .vsumN32 0 3 4 1, .vrminI32 0 3 4 1, .vrmaxI32 0 3 4 1, .vrminN32 0 3 4 1, .vrmaxN32 0 3 4 1],
      ready i (vstate id) = true ∧ (reduceResult i (vstate id) (operands i (vstate id))).isSome = true) ∧ calm (vstate id) = true ∧
      (∀ i ∈ [Instr.vcmp 0 1 4 5 0 0 5, .vcmp 0 1 4 5 0 1 5, .vcmp 0 1 4 5 0 2 6], i.wf = true ∧ ready i (vstate id) = true) := by decide +kernel

/-- The instructions that pass through RoundTo. -/
def roundings : List Instr :=
  [.vaddF 0 3 4 5 0 0, .vsubF 0 3 4 5 0 0, .vmulF 0 3 4 5 0 0, .vdiv 0 3 4 5 0 0, .vsqrt 0 3 4 0 0, .vfma 0 3 4 5 6 0, .vfnma 0 3 4 5 6 0, .vdot2 0 3 4 5 6, .vdot2n 0 3 4 5 6,
    .vcvtI32F32 0 3 4 0, .vcvtN32F32 0 3 4 0, .vcvtF32I32 0 3 4 0, .vcvtF32N32 0 3 4 0, .vcvtF16F32 0 3 4 0 0, .vcvtBf16F32 0 3 4 0 0, .vrint 0 3 4 0, .vdecs 0 3 4 0 1 0 0,
    .venc 0 3 4 0 0 0, .valign 0 3 4 0 1 0, .vscale 0 3 4 5 0 0]

/-- What a rounding instruction refuses. -/
def refusedIn (i : Instr) (s : State) : Option (Option Nat) := (rounding i s (operands i s)).map (·.refused)

/-- The lane of a rounding instruction that is non-finite from finite operands. -/
def offenderIn (i : Instr) (s : State) : Option (Option Nat) := (rounding i s (operands i s)).map (fun r => r.offender s)

/-- The vector shadow of a rounding instruction differs from its result. -/
def disagreesIn (i : Instr) (s : State) : Option Bool := (rounding i s (operands i s)).map (fun r => r.disagrees s)

/-- 2⁻⁶³ in v4, 2⁻⁶⁴ in v5, with FTZ: their product flushes to 0 and its shadow does not. -/
def flushed (n : Nat) : State :=
  let s := slotWith (fun t => { t with v := vset (vset t.v 4 (lanes [0x20000000])) 5 (lanes [0x1F800000]), nfc := 0xE420 })
  setTile s 128 { tileAt s 128 with synq := List.replicate n { kind := 1, slot := 0, part := none, cycle := 0, addr := 0, lo := 0 } }

theorem test_meets_a_disagreement_of_shadows :
    (Instr.vmulF 0 3 4 5 0 0).wf = true ∧ ∀ n ∈ [7, 8],
      ready (.vmulF 0 3 4 5 0 0) (flushed n) = true ∧ calm (flushed n) = true ∧ refusedIn (.vmulF 0 3 4 5 0 0) (flushed n) = some none ∧
        (me (flushed n)).nfc.getLsbD 7 = false ∧ disagreesIn (.vmulF 0 3 4 5 0 0) (flushed n) = some true ∧ (myTile (flushed n)).synq.length = n ∧ ahead (flushed n) = false := by decide +kernel

theorem test_meets_RoundedResults :
    (∀ i ∈ roundings, i.wf = true ∧ ready i (vstate id) = true ∧ refusedIn i (vstate id) = some none ∧ disagreesIn i (vstate id) = some false) ∧ calm (vstate id) = true ∧ (me (vstate id)).nfc.getLsbD 7 = false ∧
      (let s := slotWith (fun t => { t with v := vset t.v 4 (lanes [0x3F800000]), nfc := 0xE480 })
       ready (.vdiv 0 3 4 5 0 0) s = true ∧ refusedIn (.vdiv 0 3 4 5 0 0) s = some none ∧ (me s).nfc.getLsbD 7 = true ∧ offenderIn (.vdiv 0 3 4 5 0 0) s = some (some 0) ∧ ahead s = false) ∧
      (refusedIn (.venc 0 3 4 2 0 0) (regs 0 0) = some (some 2) ∧ ready (.venc 0 3 4 2 0 0) (regs 0 0) = true) := by decide +kernel

theorem test_meets_RoundTo :
    f32 ∈ [f32, f16, bf16] ∧ (rndOf 0xE400).ftz = false ∧ (rndOf 0xE400).rm = 0 ∧ 0x7F800000 < 2 ^ f32.width ∧ isNaN f32 0x7F800000 = false ∧ 0x7F7FFFFF < f32.inf ∧
      (roundTo (rndOf 0xE400) f32 (.val false 1 3) 0).2.getLsbD 2 = false := by decide +kernel

/-- The shadow of some node of a reduction differs from its result. -/
def treeDiffers (i : Instr) (s : State) : Option Bool := (floatTree i s (operands i s)).map (fun c => c.2.2.2.safe && c.2.2.2.dis)

/-- The first lane of an offending node of a reduction. -/
def treeIn (i : Instr) (s : State) : Option (Option Nat) := (floatTree i s (operands i s)).map (fun c => c.2.2.2.nf)

theorem test_meets_FloatSelectionsAndReductions :
    (∀ t ∈ [0, 1, 2], ready (.vminF 0 3 4 5 0 t) (vstate id) = true ∧ ready (.vmaxF 0 3 4 5 0 t) (vstate id) = true) ∧ calm (vstate id) = true ∧
      (∀ i ∈ [Instr.vsumF 0 3 4 0 0, .vrminF 0 3 4 0 0, .vrmaxF 0 3 4 0 0], ready i (vstate id) = true ∧ treeIn i (vstate id) = some none ∧ treeDiffers i (vstate id) = some false) ∧
      (let s := slotWith (fun t => { t with v := vset t.v 4 (lanes [0x00C00000, 0x80800000]), nfc := 0xE420 })
       ready (.vsumF 0 3 4 0 0) s = true ∧ calm s = true ∧ (me s).nfc.getLsbD 7 = false ∧ treeDiffers (.vsumF 0 3 4 0 0) s = some true ∧ (myTile s).synq.length < 8 ∧ ahead s = false) ∧
      (let s := slotWith (fun t => { t with v := vset t.v 4 (lanes [0x7F7FFFFF, 0x7F7FFFFF]), nfc := 0xE480 })
       ready (.vsumF 0 3 4 0 0) s = true ∧ (me s).nfc.getLsbD 7 = true ∧ treeIn (.vsumF 0 3 4 0 0) s = some (some 0) ∧ ahead s = false) := by decide +kernel

theorem test_meets_WideningAndPacking :
    (∀ i ∈ [Instr.vcvtF32F16 0 3 4 0 1, .vcvtF32Bf16 0 3 4 0 1, .vdec 0 3 4 0 0 3], ready i (vstate id) = true ∧
      (List.range 16).all (fun k => match widened i (vstate id) (operands i (vstate id)) k with | some y => fits32 y.2.2 | none => false) = true) ∧
      selectorOf (.vdec 0 3 4 2 0 3) = some 2 ∧ validTable (vstate id) 2 = true ∧ validTable (regs 0 0) 2 = false ∧ ready (.vdec 0 3 4 2 0 3) (regs 0 0) = true ∧ calm (regs 0 0) = true ∧
      (∀ i ∈ [Instr.vupk4 0 3 4 1, .vpk4 0 3 4 1, .vupk6 0 3 4, .vpk6 0 3 4], ready i (vstate id) = true) := by decide +kernel

theorem test_meets_BlockExponent :
    ready (.vbexp 0 1 4 0 0 0 0) (vstate id) = true ∧ ready (.vbexp 0 1 4 3 0 1 1) (vstate id) = true ∧ calm (vstate id) = true ∧ validScale (vget 0 (me (vstate id)).g 1) = true ∧
      (let s := vstate (fun t => { t with g := vset t.g 1 0x100000000 })
       ready (.vbexp 0 1 4 0 0 0 1) s = true ∧ (validScale (vget 0 (me s).g 1) && !(vget 0 (me s).g 1).getLsbD 32) = false ∧ ahead s = false) := by decide +kernel

/-! ### Control and status registers -/

/-- A write of a CSR instruction that the statement covers. -/
def csrMeets (i : Instr) (s : State) (n : Nat) (v : Word) : Bool :=
  (csrForm i).any (fun e => e.2.2.1 == n && e.2.1 != 0) && ready i s && !(operands i s).psn 0 && !csrWaits s n true && !reservedValue s n v && (csrAfter s n (csrRead s n) v).isSome

/-- The supervisor with a value in s4. -/
def sup4 (v : Word) : State := supWith (fun t => { t with s := vset t.s 4 v })

theorem test_meets_ControlAndStatusRegisters :
    (∀ e ∈ [(0, 0), (1, 1), (2, 2), (9, 9), (0x10, 0x10), (0x13, 0x13), (0x400, 0x800), (0x405, 0x805), (0x406, 0x806), (0x407, 0x807), (0x408, 0x808), (0x409, 0x809), (0x40B, 0x80B),
        (0x40C, 0x80C), (0x40D, 0x80D), (0x40E, 0x80E), (0x40F, 0x80F)],
      csrMeets (.csrrw 0 3 4 (BitVec.ofNat 11 e.1)) (sup4 1) e.2 1 = true ∧ csrMeets (.csrrs 0 3 4 (BitVec.ofNat 11 e.1)) (sup4 1) e.2 1 = true) ∧
      csrMeets (.csrrc 0 3 4 0x10) (sup4 1) 0x10 0 = true ∧
      (ready (.csrrw 0 3 0 0x10) (regs 0 0) = true ∧ csrWaits (regs 0 0) 0x10 false = false) ∧
      (ready (.csrrw 0 3 4 0) (regs 5 0) = true ∧ csrWaits (regs 5 0) 0 true = false ∧ reservedValue (regs 5 0) 0 5 = true ∧ ahead (regs 5 0) = false) ∧
      (let s := slotWith (fun t => { t with sP := 16 })
       ready (.csrrw 0 3 4 0x10) s = true ∧ (operands (.csrrw 0 3 4 0x10) s).psn 0 = true) := by decide +kernel

/-- Each of the reserved values: a channel of RNSCTL, ACT of BUDGET, KIND 7 of FAULTINJ in test mode. -/
theorem test_meets_reserved_values_of_csrs :
    ∀ e ∈ [(0x40A, 0x80A, (0x44000000 : Word)), (0x40D, 0x80D, 0x5000000000000000), (0x40E, 0x80E, 0xF000000000000000)],
      let s := { sup4 e.2.2 with testMode := true }
      ready (.csrrw 0 3 4 (BitVec.ofNat 11 e.1)) s = true ∧ (csrForm (.csrrw 0 3 4 (BitVec.ofNat 11 e.1))).map (·.2.2.1) = some e.2.1 ∧
        (operands (.csrrw 0 3 4 (BitVec.ofNat 11 e.1)) s).psn 0 = false ∧ reservedValue s e.2.1 e.2.2 = true ∧ ahead s = false ∧
        (me s).sstatus.getLsbD 0 = true := by decide +kernel

/-- Something of the slot or its tile is in flight, so that a write of ASID waits. -/
theorem test_meets_a_waiting_csr_write :
    let s := supWith (fun t => { t with outs := [{ id := 0, kind := .load 3 false, va := 64, size := 8, cls := 0, acq := false, rel := false, asid := 0, root := 0, sup := true, stage := .issued, since := 0 }] })
    ready (.csrrw 0 0 4 0x407) s = true ∧ csrWaits s 0x807 true = true ∧ (operands (.csrrw 0 0 4 0x407) s).psn 0 = false := by decide +kernel

theorem test_meets_the_rows_that_write_a_csr :
    (∀ e ∈ [(Instr.nfcWrite, Arg.value 1, 0), (.flagsAccess, .access true 1, 1), (.seedAccess, .access true 1, 2), (.unchkAccess, .access true 1, 9), (.sstatusWrite, .value 1, 0x800),
        (.pmapWrite, .value 1, 0x806), (.asidWrite, .value 1, 0x807), (.ptbaseWrite, .value 1, 0x808), (.qtimeWrite, .value 1, 0x80B), (.budgetSet, .value 1, 0x80D),
        (.faultinjArm, .value 1, 0x80E), (.pmapxWrite, .value 1, 0x80F), (.csrWrite, .csr 0x805 1, 0x805)],
      csrRowForm e.1 e.2.1 = some (e.2.2, 1) ∧ csrWaits { sup4 1 with arg := e.2.1 } e.2.2 true = false ∧
        (csrAfter { sup4 1 with arg := e.2.1 } e.2.2 (csrRead { sup4 1 with arg := e.2.1 } e.2.2) 1).isSome = true) ∧ (me (sup4 1)).sstatus.getLsbD 0 = true ∧
      (chartSlot (inChart id id berth0) = true ∧ drained (inChart id id berth0) = true) ∧
      (let v : Word := 0xF3010000
       v.toNat / 2 ^ 24 % 16 ∈ [0, 1, 2, 3, 8, 15] ∧ v.toNat / 2 ^ 28 % 16 ∈ [4, 5, 6, 7, 9, 15] ∧ isTilePos (128 * (v.toNat / 2 ^ 16 % 128) + v.toNat % 128) = true ∧ partOf (sup4 0) 128 = some 0 ∧
         (tileAt (sup4 0) 128).ops.all (fun o => !o.kind.isResidue) = true) ∧
      (0x4F80000000000000 : Word).toNat / 2 ^ 60 ≤ 4 := by decide +kernel

end Sys2Proof.Tests
end

