-- ==== Sys2Proof/Tests/Witness3.lean ====
section
/-!
SUPPORT. Witnesses for the statements about accesses, fences, barriers and tokens.
-/
namespace Sys2Proof.Tests

open Sys2Proof Sys2Proof.Machine Sys2Proof.Safety

set_option Elab.async false

/-! ### Access instructions -/

/-- The own scratch, at an offset. -/
def own (off : Nat) : Word := BitVec.ofNat 64 (0xF0000000000000 + off)

/-- An access instruction that the statement covers. -/
def legalAccess (i : Instr) (s : State) : Bool :=
  ready i s && (match accessForm i s (operands i s) with | some f => f.legal i s && f.addrs != [] | none => false)

/-- The address of an access instruction is in bounds or not, aligned or not, and locked or not. -/
def accessFails (i : Instr) (s : State) : Option (List Bool) :=
  (accessForm i s (operands i s)).map (fun f =>
    [(operands i s).psn 0, unknownAtom i (operands i s), f.va.toNat % f.size == 0, reachable s f.va f.size, f.addrs.any (refusedBy s f.kind.isStore)])

/-- Slot 0 with s5 and s7 given, and the lock table of its tile. -/
def locked (x y : Word) (l : List LockEnt) : State :=
  let s := slotWith (fun t => { t with s := vset (vset t.s 5 x) 7 y })
  setTile s 128 { tileAt s 128 with lock := l }

theorem test_meets_AccessesAtIssue :
    (∀ i ∈ [Instr.ld 0 3 5 0 0 3 0 0, .vld 0 3 5 0 0 0 0, .st 0 4 5 0 0 3 0, .vst 0 4 5 0 0 0 0, .atom 0 6 5 0 0 3 0, .atomCas 0 6 5 0 0 3 0, .bara 0 3 5 0, .bari 0 5 4 0],
      legalAccess i (locked (own 64) 0 []) = true ∧ legalAccess i (locked 0x10000 0 []) = true ∧ ahead (locked (own 64) 0 []) = false) := by decide +kernel

/-- The current slot issues a pass. -/
def passOf (s : State) : State := { s with cur := { s.cur with pass := true } }

/-- Slot 0 of a chart, whose p1 lanes are all off. -/
def emptyLanes : State := chartWith id (fun t => { t with s := vset t.s 5 (own 64) })

theorem test_meets_AccessesAtIssue_passes :
    (∀ i ∈ [Instr.vld 0 3 5 0 0 0 0, .vst 0 4 5 0 0 0 0], legalAccess i (passOf (locked (own 64) 0 [])) = true) ∧
      (let i : Instr := .vld 0 31 5 0 0 1 0
       ready i emptyLanes = true ∧
         (accessForm i emptyLanes (operands i emptyLanes)).map (fun f => (f.legal i emptyLanes, f.addrs, f.kind.dest)) = some (true, [], some ⟨.v, 31⟩)) := by decide +kernel

theorem test_meets_AccessesAtIssue_causes :
      (let i : Instr := .vst 0 4 5 0 0 1 0
       ready i (locked (own 64) 0 []) = true ∧ (accessForm i (locked (own 64) 0 []) (operands i (locked (own 64) 0 []))).map (·.addrs) = some []) ∧
      (let i : Instr := .atom 0 6 5 0 0 3 0
       accessFails i (locked (own 64) 9 []) = some [false, true, true, true, false] ∧ accessFails i (locked (own 68) 0 []) = some [false, false, false, true, false] ∧
         accessFails i (locked (own 0x40000) 0 []) = some [false, false, true, false, false] ∧
         accessFails i (locked (own 64) 0 [{ start := 0xF0000000000040, len := 8, dest := false, slot := 0, tok := 9, op := 0 }]) = some [false, false, true, true, true]) ∧
      (let s := slotWith (fun t => { t with sP := 32 })
       ready (.ld 0 3 5 0 0 3 0 0) s = true ∧ accessFails (.ld 0 3 5 0 0 3 0 0) s = some [true, false, true, true, false]) := by decide +kernel

/-! ### Fences, barriers and tokens -/

/-- A read or write that the slot waits for has been made. -/
def isDone : Inline → Bool
  | .ok .. => true
  | _ => false

/-- The generation that the read of a BARW finds. -/
def barwGen (s : State) (va : Nat) : Option Nat :=
  match inlineAccess s va 16 0 false .atomic (fun _ q => if q then .refuse cPOISON else .keep) with
  | .ok _ v _ => some (v % 2 ^ 32)
  | _ => none

/-- An access of slot 0 that loads s3 from an address. -/
def loadAt (va : Word) (st : Stage) : Access :=
  { id := 0, kind := .load 3 false, va := va, size := 8, cls := 0, acq := false, rel := false, asid := 0, root := 0x2000, sup := true, stage := st, since := 0 }

/-- A BARW waits for its read. -/
def barwWaits (s : State) (va : Nat) : Bool :=
  match inlineAccess s va 16 0 false .atomic (fun _ q => if q then .refuse cPOISON else .keep) with
  | .wait _ => true
  | _ => false

/-- A BARW on a record that an earlier store of the slot meets. -/
def barwBehind : State :=
  slotWith (fun t => { t with s := vset t.s 4 (own 64), nextId := 1, outs := [{ loadAt (own 64) .issued with kind := .store 0 0xFF false }] })

theorem test_meets_a_waiting_BARW :
    ready (.barw 0 4 5 0) barwBehind = true ∧ recordLegal barwBehind (operands (.barw 0 4 5 0) barwBehind) = true ∧ barwWaits barwBehind (own 64).toNat = true := by decide +kernel

theorem test_meets_FencesBarriersAndTokens :
    (ready (.fence 0 0 0xFF) (regs 0 0) = true ∧ ready (.fence 0 3 1) (regs 0 0) = true ∧ ready (.fence 0 5 0) (regs 0 0) = true ∧ ready (.fence 0 5 1) (regs 0 0) = true ∧
      ready (.fence 0 0 1) (slotWith (fun t => { t with outs := [loadAt 0 .issued] })) = true) ∧
      (let s := fun g => regs (own 64) g
       ready (.barw 0 4 5 0) (s 0) = true ∧ recordLegal (s 0) (operands (.barw 0 4 5 0) (s 0)) = true ∧ barwGen (s 0) (own 64).toNat = some 0 ∧
         (operands (.barw 0 4 5 0) (s 7)).word 1 = 7 ∧ (operands (.barw 0 4 5 0) (s 0)).word 1 = 0) ∧
      ready (.twait 0 4) (regs 0 0) = true ∧ (operands (.twait 0 4) (regs 0 0)).psn 0 = false ∧ ready (.ttest 0 1 4) (regs 0 0) = true ∧
      (let s := slotWith (fun t => { t with sPend := 16 })
       ready (.ttest 0 1 4) s = true ∧ (me s).sPend.getLsbD 4 = true) ∧
      ready (.tdrain 0) (regs 0 0) = true ∧
      (regionOf (regs 0 0) 128 0xF000000003FFC0 64 = .scratch 128 0x3FFC0 ∧ inSpill (tileAt (regs 0 0) 128) 0x3FFC0 64 = false ∧ (me (regs 0 0)).outs = [] ∧
        (myTile (regs 0 0)).ops = [] ∧ (me (regs 0 0)).busy = none ∧ (me (regs 0 0)).blocked = none ∧
        (List.range 64).all (fun i => !refusedBy (regs 0 0) true (0xF000000003FFC0 + i)) = true) := by decide +kernel

/-! ### Accesses to memory -/

/-- An opened block under a key slot. -/
def opened (key : BitVec 7) : ScEnt :=
  { lines := Vector.replicate 16 0, valid := 0xFFFF, dirty := 0, filled := true, count := 1, key := key, gen := 0, failed := false, frozen := false }

/-- Partition 0 with its keys, a root table at 0x2000, a second table at 0x4000 whose first entry is `leaf`, and a line of data at 0x10000. -/
def paged (leaf : Nat) (f : Slot → Slot) : State :=
  let s := supWith (fun t => f { t with ptbase := 0x2000 })
  setDie s 0
    { Die.reset with
      sc := [(4, opened 3), (8, opened 3), (32, opened 3)]
      l2 := [(0x40, { data := 0x4001, dirty := false, poison := false }), (0x80, { data := BitVec.ofNat 1024 leaf, dirty := false, poison := false }),
        (0x200, { data := 0x1122, dirty := false, poison := false })] }

/-- A readable and writable leaf of 2^36 bytes at 0 under key slot 3. -/
def goodLeaf : Nat := 0x31F

/-- The same with one outstanding load of slot 0. -/
def loading (leaf : Nat) (va : Word) (st : Stage) : State :=
  { paged leaf (fun t => { t with outs := [loadAt va st], sPend := 8 }) with arg := .three 128 0 0 }

/-- The outcome of a translation, by name. -/
def transName (t : TransAns) : Nat :=
  match t with
  | .leaf .. => 0
  | .refused _ => 1
  | .absent _ => 2
  | .migrating _ => 3
  | .wait _ => 4

/-- The translation of slot 0's access. -/
def transOf (s : State) (a : Access) : Nat := transName (translate s (accessWho s 128 0 a) (needOf a.kind.lkind) (a.va.toNat % 2 ^ 56))

/-- The outcome of an access, by name. -/
def ansName (t : MemAns) : Nat :=
  match t with
  | .ok .. => 0
  | .wait _ => 1
  | .held _ false => 2
  | .held _ true => 3
  | .bad .. => 4

/-- The access of slot 0 is found, everything before it has been performed, and it is its turn at the quay. -/
def found (s : State) (a : Access) : Bool := accessOf s 128 0 0 == some a && inOrder (tileAt s 128) 0 a && !behindAtQuay s 128 0 a

/-- The walker's budget is exhausted. -/
def noWalks (s : State) : State := setPart s 0 { partAt s 0 with budget := [(budgetKey 2 0, { limit := 1, left := 0 })] }

/-- Whether a refused walk has left an entry in the TLB. -/
def refusedHow (leaf : Nat) : Option Bool :=
  let a := loadAt 0x10000 .walking
  let s := loading leaf 0x10000 .walking
  match translate s (accessWho s 128 0 a) (needOf a.kind.lkind) 0x10000 with
  | .refused s1 => some (entryAt s1 (accessWho s 128 0 a) 0x10000).isSome
  | _ => none

/-- A walk can start. -/
def walkStarts (s : State) : Bool := (startWalk s (accessWho s 128 0 (loadAt 0x10000 .issued)) 0x10000).isSome

/-- Two pages name the same bytes; slot 0 loads through one and stores through the other. -/
def twoPages : State :=
  let st : Access := { loadAt 0x10000 .issued with id := 1, kind := .store 7 0xFF false }
  let s := { paged goodLeaf (fun t => { t with outs := [loadAt 0x20000 .issued, st], sPend := 8 }) with arg := .three 128 0 0 }
  setQuay s 0 { Quay.reset with tlb := [{ vbase := 0x10000, lg := 16, asid := 0, leaf := 0x1031F }, { vbase := 0x20000, lg := 16, asid := 0, leaf := 0x1031F }] }

theorem test_meets_AccessEvents_shared_walks :
    refusedHow 0x31B = some false ∧ refusedHow 0x51F = some true ∧ walkStarts (loading goodLeaf 0x10000 .issued) = true ∧
      walkStarts (noWalks (loading goodLeaf 0x10000 .issued)) = false := by decide +kernel

theorem test_meets_AccessEvents_walks :
    (found (loading goodLeaf 0x10000 .issued) (loadAt 0x10000 .issued) = true ∧
      needsWalk (loading goodLeaf 0x10000 .issued) (accessWho (loading goodLeaf 0x10000 .issued) 128 0 (loadAt 0x10000 .issued)) (loadAt 0x10000 .issued) = true) ∧
      transOf (loading goodLeaf 0x10000 .walking) (loadAt 0x10000 .walking) = 0 ∧ transOf (loading 0x31B 0x10000 .walking) (loadAt 0x10000 .walking) = 1 ∧
      transOf (loading 0 0x10000 .walking) (loadAt 0x10000 .walking) = 2 ∧ transOf (loading 0x80 0x10000 .walking) (loadAt 0x10000 .walking) = 3 ∧
      transOf (noWalks (loading goodLeaf 0x10000 .walking)) (loadAt 0x10000 .walking) = 4 ∧ found (loading goodLeaf 0x10000 (.retry true)) (loadAt 0x10000 (.retry true)) = true := by decide +kernel

/-- The outcome of the access of slot 0. -/
def answerOf (s : State) (a : Access) : Nat :=
  ansName (memAccess s (accessWho s 128 0 a) a.va.toNat a.size a.kind.lkind (fun _ _ => .keep))

theorem test_meets_AccessEvents_answers :
    (let a := loadAt (own 64) .issued
     let s := loading goodLeaf (own 64) .issued
     found s a = true ∧ needsWalk s (accessWho s 128 0 a) a = false ∧ answerOf s a = 0) ∧
      (let a := loadAt (own 0x10000000) .issued
       let s := loading goodLeaf (own 0x10000000) .issued
       found s a = true ∧ needsWalk s (accessWho s 128 0 a) a = false ∧ answerOf s a = 4) ∧
      answerOf (loading goodLeaf 0x10000 .issued) (loadAt 0x10000 .issued) = 0 ∧ answerOf (loading 0 0x10000 .issued) (loadAt 0x10000 .issued) = 2 ∧
      answerOf (loading 0x80 0x10000 .issued) (loadAt 0x10000 .issued) = 3 ∧ answerOf (noWalks (loading goodLeaf 0x10000 .issued)) (loadAt 0x10000 .issued) = 1 ∧
      (let a := { loadAt (own 64) .issued with kind := .store 0 0xFF false }
       a.kind.dest = none ∧ (slotAt (regs 0 0) 128 0).phase.isDraining = false) := by decide +kernel

/-- A later access of the slot, to another granule, has its turn behind one that has not left, and before one that is held. -/
theorem test_meets_AccessEvents_quay_order :
    let later : Access := { loadAt 0x30000 .issued with id := 1 }
    let s := fun (st : Stage) => paged goodLeaf (fun t => { t with outs := [loadAt 0x10000 st, later], sPend := 8 })
    inOrder (tileAt (s .issued) 128) 0 later = true ∧ behindAtQuay (s .issued) 128 0 later = true ∧ behindAtQuay (s .faultHeld) 128 0 later = false := by
  decide +kernel

theorem test_meets_AccessEvents_aliases :
    let a := loadAt 0x20000 .issued
    let w := accessWho twoPages 128 0 a
    let alone := slotWith (fun t => { t with outs := [a] })
    (paAt twoPages w 0x20000).any (fun q => aliased twoPages w 128 0 0x20000 q 8 false) = true ∧ found twoPages a = true ∧ needsWalk twoPages w a = false ∧
      answerOf twoPages a = 0 ∧ (slotTouches alone 128 0).all (fun x => x.ag == (accessWho alone 128 0 a).ag) = true ∧
      passedOf alone (accessWho alone 128 0 a).ag = [] := by decide +kernel

/-- A quay whose TLB holds one entry for the page at 0. -/
def withTlb (s : State) (leaf : BitVec 64) : State := setQuay s 0 { Quay.reset with tlb := [{ vbase := 0, lg := 36, asid := 0, leaf := leaf }] }

/-- A transaction runs on the line at 0x10000. -/
def withTrans (s : State) : State :=
  let y := dieAt s 0
  setDie s 0 { y with trans := [(0x200, { req := { line := 0x200, kind := .homeStore, pkg := 0, die := 0 }, awaiting := [1], answer := none })] }

/-- The leaf found refuses reads (bit 2), writes (bit 3) or the user view (bit 4), or the access is performed or waits for a transaction. -/
theorem test_meets_AccessEvents_tlb :
    let a := loadAt 0x10000 .issued
    let leafOf := fun (s : State) => (tlbFind s (quayAt s (accessWho s 128 0 a).quay).tlb 0x10000 (accessWho s 128 0 a).asid).map (·.leaf)
    let t := fun (leaf : BitVec 64) => withTlb (loading goodLeaf 0x10000 .issued) leaf
    leafOf (t 0x31B) = some 0x31B ∧ (0x31B : BitVec 64).getLsbD 2 = false ∧ a.kind.isLoad = true ∧ leafOf (t 0x317) = some 0x317 ∧ (0x317 : BitVec 64).getLsbD 3 = false ∧
      leafOf (t 0x30F) = some 0x30F ∧ (0x30F : BitVec 64).getLsbD 4 = false ∧ needsWalk (t 0x31F) (accessWho (t 0x31F) 128 0 a) a = false ∧ answerOf (t 0x31F) a = 0 ∧
      answerOf (withTrans (t 0x31F)) a = 1 := by decide +kernel

end Sys2Proof.Tests
end

