-- ==== Sys2Proof/Tests/Witness4.lean ====
section
/-!
SUPPORT. Witnesses for the statements about performed accesses, messages, launches and operations.
-/
namespace Sys2Proof.Tests

open Sys2Proof Sys2Proof.Machine Sys2Proof.Safety

set_option Elab.async false

/-! ### Acknowledgements and wakes -/

/-- Slot 0 SUSPENDED in a BARW on own scratch, with its record. -/
def suspended (gen : Nat) (psn : Bool) (bl : Option Blocked) (va : Word) : State :=
  let s := slotWith (fun t => { t with phase := .barw va 5 0, blocked := bl })
  { setTile s 128 { tileAt s 128 with scratch := memWrite [] 64 4 gen, scratchP := if psn then memWrite [] 1 1 1 else [] } with arg := .two 128 0 }

/-- The generation that a woken BARW reads, or that it is refused. -/
def wakeOf (s : State) (va : Word) : Option Nat :=
  match memAccess s { slotWho s 128 0 with oc := 0 } va.toNat 16 .atomic (fun _ p => if p then .refuse cPOISON else .keep) with
  | .ok _ v _ => some (v % 2 ^ 32)
  | _ => none

/-- What the look of a woken BARW leads to, by name. -/
def wakeName (s : State) (va : Word) : Nat :=
  ansName (memAccess s { slotWho s 128 0 with oc := 0 } va.toNat 16 .atomic (fun _ p => if p then .refuse cPOISON else .keep))

/-- Slot 0 SUSPENDED in a BARW on global memory. -/
def suspendedAt (leaf : Nat) : State := { paged leaf (fun t => { t with phase := .barw 0x10000 5 0 }) with arg := .two 128 0 }

/-- A FENCE whose marker towards die 2 lies behind a beat of slot 0, or not. -/
def fencing (beat : Bool) : State :=
  let s := slotWith (fun t => { t with fence := some { mask := 1, scope := 3, dies := [0, 2] }, outs := [loadAt 0x10000 .issued] })
  { s with
    hawsers := (if beat then [.beat 0 2 0 (.access 128 0 0) 0 true] else []) ++ [.marker 0 2 0 128 0 false]
    arg := .three 128 0 2 }

/-- The beat lies ahead of the marker. -/
def fenceBehind (s : State) : Bool := let s1 := joinMarkers s 128 0 2; aheadOfMarkers s1 128 0 2 [] s1.hawsers

theorem test_meets_AccessEvents_joins :
    fenceBehind (fencing true) = true ∧ fenceBehind (fencing false) = false ∧ 3 ∉ [0, 2] ∧ 2 ∈ [0, 2] ∧ wakeName (suspendedAt 0) 0x10000 = 2 ∧
      wakeName (noWalks (suspendedAt goodLeaf)) 0x10000 = 1 ∧ withheld (slotAt (suspendedAt 0) 128 0).blocked = false := by decide +kernel

theorem test_meets_AccessEvents_wakes :
    (let s := slotWith (fun t => { t with fence := some { mask := 1, scope := 3, dies := [0, 2] } })
     (slotAt { s with arg := .three 128 0 2 } 128 0).fence = some { mask := 1, scope := 3, dies := [0, 2] }) ∧
      (slotAt (suspended 5 false none (own 64)) 128 0).phase = .barw (own 64) 5 0 ∧ withheld (slotAt (suspended 5 false none (own 64)) 128 0).blocked = false ∧
      wakeOf (suspended 6 false none (own 64)) (own 64) = some 6 ∧ wakeOf (suspended 5 false none (own 64)) (own 64) = some 5 ∧
      wakeOf (suspended 5 true none (own 64)) (own 64) = none ∧ wakeOf (suspended 5 false none (own 0x10000000)) (own 0x10000000) = none := by decide +kernel

/-! ### Performed accesses -/

/-- A store of slot 0 to own scratch. -/
def storeAt (va : Word) : Access :=
  { id := 0, kind := .store 0x1122 0xFF false, va := va, size := 8, cls := 0, acq := false, rel := false, asid := 0, root := 0x2000, sup := true, stage := .issued, since := 0 }

/-- An access of slot 0 to own scratch meets the statement, and is not refused. -/
def performs (a : Access) : Bool :=
  let s := { slotWith (fun t => { t with outs := [a] }) with arg := .three 128 0 0 }
  found s a && a.stage == .issued && !isGlobal a.va && regionOf s 128 a.va.toNat 8 == .scratch 128 64 && !inSpill (tileAt s 128) 64 8 && Mem.wf (tileAt s 128).scratch &&
    (match a.kind.upd 8 0 0 false with | .refuse _ => false | _ => true)

/-- The line at 0x10000 is performed at its home: the beats have crossed, no transaction runs, no request stands before it and the way back is open. -/
def atHome (s : State) (w : Who) (kind : LKind) : Bool :=
  let path := if dieOfLine 0x200 = w.die then [] else [dieOfLine 0x200]
  let r := travel s w w.die path (homeMsg 0x200) ((1, 1) :: beatUnits path 2)
  r.2 && homeTurn r.1 0x200 w.ag && wayBack r.1 w.die w.oc path &&
    (match fetchLine r.1 0x200 3 (kind != .load) with | .ok (s2, _) => decide (s2 = r.1) | _ => false) &&
    homedHere s 0x200 && (kind == .atomic || w.die == dieOfLine 0x200) && !heldFor s 0x200 w.ag && !(dieAt s (dieOfLine 0x200)).gated

theorem test_meets_AccessesPerformed :
    performs (loadAt (own 64) .issued) = true ∧ performs (storeAt (own 64)) = true ∧
      (let s := paged goodLeaf id
       let w := slotWho s 128 0
       atHome s w .load = true ∧ atHome s w .store = true ∧ atHome s w .atomic = true ∧ atHome s { w with pos := 200 } .atomic = true ∧ (metaOf s 0x200).st = .I) ∧
      (let s := setMeta (paged goodLeaf id) 0x200 { LineMeta.idle with st := .S }
       atHome s (slotWho s 128 0) .load = true ∧ (metaOf s 0x200).st = .S) ∧ dieOf 128 = dieOf 128 ∧
      124 + 4 ≤ 128 ∧ 127 < 128 := by decide +kernel

/-! ### Replies -/

/-- A reply to slot 0. -/
def replying (rd : BitVec 5) (vec : Bool) : State :=
  { slotWith (fun t => { t with replies := [{ rd := rd, vector := vec, data := 7, lanes := 0x000F, poison := true }] }) with arg := .two 128 0 }

/-- The ports of the tile have entries that wait for replies. -/
def expecting (d : BitVec 5) (es : List PortRes) : State :=
  setSwitch (replying d false) 128 { switchAt (replying d false) 128 with reserved := Vector.replicate 3 es }

theorem test_meets_LoadReply :
    (∀ d ∈ [0, 3, 30, 31], ∀ v ∈ [true, false], (slotAt (replying d v) 128 0).replies.map (fun r => (r.rd, r.vector, r.id)) = [(d, v, 0)]) ∧
      ([([⟨0, .access 0, none⟩] : List PortRes), [⟨0, .access 1, none⟩, ⟨0, .access 0, none⟩], [⟨1, .access 0, none⟩]].all (fun es => [0, 1, 2].all (fun b => [30, 31].all (fun d =>
        vget [] (switchAt (expecting d es) 128).reserved b == es && (slotAt (expecting d es) 128 0).replies.length == 1)))) = true := by decide +kernel

/-! ### Messages, launches and tables -/

/-- A tile of a chart whose slot may send. -/
def sender (x : Word) (q : Nat) : State :=
  let b := { berth0 with }
  inChart (fun t => { t with msgOut := List.replicate q ⟨0, [], 0, 0, 0, 0, 5, false, 0, 0, 0⟩ }) (fun t => { t with s := vset t.s 4 x }) b

/-- What MSEND of a state names. -/
def sends (i : Instr) (s : State) (x y : Nat) : Bool :=
  ready i s && !(operands i s).psn 0 && decide (((operands i s).word 0).toNat / 2 ^ 38 = 0) &&
    (match (myTile s).dom with
     | some dm => (match domainRect s dm with | some r => decide (0 < r.w ∧ 0 < r.h) && isTilePos (128 * y + x) && r.has x (gridY (128 * y + x)) | none => false)
     | none => false)

/-- Units of 64 bytes that a slot reads at once. -/
def unitsRead (s : State) (va n : Nat) : Option (List (Nat × Bool)) :=
  match inlineRead s va n 0 with
  | .ok (_, l) => some l
  | _ => none

/-- A launch record of a chart of one tile. -/
def launchRecord : Nat :=
  1 + 2 ^ 32 + 2 ^ 48 + 32 * 2 ^ 128 + ((List.range 6).map (fun f => 2 ^ (8 * (0x70 + 8 * f)))).foldl (· + ·) 0

/-- The launch record stands at 0x10000. -/
def launching (rec : Nat) (queued : Nat) : State :=
  let s := paged goodLeaf (fun t => { t with s := vset t.s 4 0x10000 })
  let y := dieAt s 0
  let s1 := setDie s 0
    { y with l2 := tblSet (tblSet (tblSet y.l2 0x200 { data := BitVec.ofNat 1024 rec, dirty := false, poison := false })
        0x201 { data := BitVec.ofNat 1024 (rec / 2 ^ 1024), dirty := false, poison := false }) 0x202 { data := 0, dirty := false, poison := false } }
  let x := partAt s1 0
  setPart s1 0 { x with queues := vset x.queues 0 (List.replicate queued { lrec := [], saved := none, boot := false, held := none }) }

/-- A LAUNCH whose record is read without poison; the number of the check that fails. -/
def launches (s : State) : Bool × Option (Option Nat) :=
  let i : Instr := .launch 0 3 4 0
  (ready i s && !(operands i s).psn 0 && decide (((operands i s).word 0).toNat % 64 = 0) && isGlobal ((operands i s).word 0) && partOf s s.cur.pos == some 0,
    (unitsRead s 0x10000 6).map (fun l => (recChecks (unitBytes l)).findIdx? (fun b => !b)))

/-- The cells of a valid decode table: +0 for the codes below 128, -0 for the others, whose entries differ from 0 in one byte. -/
def tableCells : Mem := (List.range 128).map (fun c => (514 + 4 * c, 4))

theorem test_meets_MessagesLaunchesAndTables :
    sends (.msend 0 4 5 2 0) (sender (2 ^ 16 * 1) 0) 0 1 = true ∧ sends (.msend 0 4 5 2 1) (sender (2 ^ 16 * 1) 8) 0 1 = true ∧
      launches (launching launchRecord 0) = (true, some none) ∧ launches (launching launchRecord 32) = (true, some none) ∧
      launches (launching 0 0) = (true, some (some 0)) := by decide +kernel

/-- Slot 0 with the table image in its scratch and its address in s4. -/
def tableState : State :=
  let s := slotWith (fun t => { t with s := vset t.s 4 (own 0) })
  setTile s 128 { tileAt s 128 with scratch := tableCells }

/-- VTBL of the table image: it issues, its units are read, and they hold the table. -/
def tableReads (s : State) : Bool :=
  let i : Instr := .vtbl 0 1 4 0
  let va := (operands i s).word 0
  ready i s && !(operands i s).psn 0 && decide (va.toNat % 64 = 0) && !isGlobal va && reachable s va 1024 && calm s &&
    (List.range 1024).all (fun k => !refusedBy s false (va.toNat % 2 ^ 56 + k)) &&
    (match inlineRead s va.toNat 16 0 with
     | .ok (_, l) => l.all (fun u => !u.2) && decide (cellsFrom 0 (unitBytes l) = tableCells)
     | _ => false)

theorem test_meets_MessagesLaunchesAndTables_table : tableReads tableState = true := by decide +kernel

theorem test_meets_MessagesLaunchesAndTables_valid : tableValid tableCells = true := by decide +kernel

/-! ### Collectives and operations -/

/-- Group 1 of partition 0, with the tile at (0, 1) as its one member. -/
def grouped (broken : Bool) (lock : List LockEnt) : State :=
  let s := inChart (fun t => { t with scratch := memWrite [] 0 4 0x01000006, lock := lock }) (fun t => { t with s := vset t.s 4 (own 0) }) berth0
  setPart s 0
    { partAt s 0 with
      grps := [(1, { epoch := 0, members := [{ mkey := 0, parent := 0, pkg := 0, port := 0 }], formed := true, broken := broken, seqs := [], since := 0, cmdSeq := 0 })] }

/-- The entries of other operations. -/
def otherLocks (n : Nat) : List LockEnt := List.replicate n { start := 0xF0000000001000, len := 8, dest := false, slot := 1, tok := 9, op := 99 }

/-- A descriptor of an ALL-GATHER of one element between two places of own scratch. -/
def gatherDesc : Nat := 0x01000003 + (own 64).toNat * 2 ^ 64 + (own 128).toNat * 2 ^ 128 + 2 ^ 192

/-- The outcome of a COLL at issue: broken group, room in the lock table. -/
def collIssues (desc : Nat) (broken : Bool) (lock : List LockEnt) : Option (Bool × Bool) :=
  let s0 := grouped broken lock
  let s := setTile s0 128 { tileAt s0 128 with scratch := memWrite [] 0 64 desc }
  let i : Instr := .coll 0 3 4
  if ready i s && !(operands i s).psn 0 && (operands i s).word 0 == own 0 && rangeKind s (own 0) 64 == .own && (me s).outs.isEmpty && (myTile s).ops.isEmpty then
    match inlineRead s (own 0).toNat 1 0 with
    | .ok (s1, [(x, false)]) =>
      (match collTests s1 s1.cur.pos (own 0) x with
       | .ok (d, _, e, rank) => some (e.broken, lockRoom (myTile s1) (.coll d (own 0).toNat (tblGet 0 e.seqs rank) rank e.members.length))
       | _ => none)
    | _ => none
  else none

/-- A COLL of a slot at rest whose descriptor stands in own scratch: broken group, room in the lock table. -/
def collAtRest (desc : Nat) (broken : Bool) : Option (Bool × Bool) :=
  let s0 := grouped broken []
  let s := setTile s0 128 { tileAt s0 128 with scratch := memWrite [] 0 64 desc }
  match ownRead s (own 0) 64 with
  | some x =>
    (match collTests (afterOwnRead s (own 0) x) 128 (own 0) x with
     | .ok (d, _, e, rank) => some (e.broken, lockRoom (myTile s) (.coll d (own 0).toNat (tblGet 0 e.seqs rank) rank e.members.length))
     | _ => none)
  | none => none

theorem test_meets_CollectiveStarts_at_rest : collAtRest gatherDesc false = some (false, true) ∧ collAtRest gatherDesc true = some (true, true) := by decide +kernel

theorem test_meets_CollectiveStarts :
    collIssues 0x01000006 false [] = some (false, true) ∧ collIssues gatherDesc false (otherLocks 15) = some (false, false) ∧
      collIssues gatherDesc true [] = some (true, true) := by decide +kernel

/-- Slot 0 with operands in s4 to s7 and v4. -/
def operandState (a b c d : Word) (v : Vec) (f : Tile → Tile) : State :=
  let s := slotWith (fun t => { t with s := vset (vset (vset (vset t.s 4 a) 5 b) 6 c) 7 d, v := vset t.v 4 v })
  setTile s 128 (f (tileAt s 128))

/-- What an operation's form says of a state: it moves, there is room, it adds no beats. -/
def startsOp (i : Instr) (s : State) : Option (Bool × Bool × Bool) :=
  if ready i s then (opForm i s (operands i s)).map (fun f => (f.moves, lockRoom (myTile s) f.kind, decide (f.beats = 0))) else none

/-- A slot of a chart with operands in s4 and s5. -/
def chartOperands (f : Tile → Tile) (a b : Word) : State := inChart f (fun t => { t with s := vset (vset t.s 4 a) 5 b }) berth0

/-- A COPY that counts beats on the record in own scratch at 512, which has been read and written. -/
def countsBeats (s : State) : Bool :=
  let i : Instr := .copy 0 3 4 7 0 0
  match opForm i s (operands i s) with
  | some f =>
    f.moves && f.record == some (own 512) && f.beats == 1 &&
      (match inlineAccess f.before (own 512).toNat 16 f.cls false .atomic (barUpd (barAdd f.beats) false) with | .ok .. => true | _ => false)
  | none => false

/-- The same, at rest: the record can take the beats at once. -/
def countsAtRest (s : State) : Bool :=
  let i : Instr := .copy 0 3 4 7 0 0
  (match opForm i s (operands i s) with | some f => f.moves && f.record == some (own 512) && ownBeats s (own 512) f.beats && lockRoom (myTile s) f.kind | none => false) &&
    atRest s && ready i s

/-- Slot 0 has added its beats, and waits for room or has it. -/
def hasAdded (s : State) : State := setMe s { me s with busy := some { ({} : Busy) with beats := true } }

theorem test_meets_OperationsStart_records :
    countsAtRest (operandState (own 0) (own 256) 64 (own 512) 0 id) = true ∧
      (let s := hasAdded (operandState (own 0) (own 256) 64 (own 512) 0 id)
       let i : Instr := .copy 0 3 4 7 0 0
       ready i s = true ∧ (opForm i s (operands i s)).map (fun f => (f.moves, f.record)) = some (true, some (own 512)) ∧ (me s).busy.any (·.beats) = true) ∧
      (let s := chartOperands id (own 0) 0
       ready (.rsta 0 3 4 1) s = true ∧ (operands (.rsta 0 3 4 1) s).psn 0 = false ∧ ownScratch s ((operands (.rsta 0 3 4 1) s).word 0) imageSize = some 0 ∧
         lockRoom (myTile s) (.rsta 1 0) = true) := by decide +kernel

/-- The run over elements whose checks are known. -/
theorem checkRun_of (t : Tile) (a : Acc) (f : Nat → Int) : ∀ n e, (∀ k, e ≤ k → checkElem t a k = .ok (f k)) →
    checkRun t a e n = .ok ((List.range' e n).map (fun k => (k, f k, none)))
  | 0, e, _ => rfl
  | n + 1, e, h => by
    rw [checkRun, h e (Nat.le_refl e), checkRun_of t a f n (e + 1) (fun k hk => h k (by omega))]
    rfl

/-- Every element of an accumulator without cells has the value 0. -/
theorem chartOperands_checks (k : Nat) :
    checkElem (myTile (chartOperands id (own 0) 0)) (accOf (myTile (chartOperands id (own 0) 0)) 1) k = .ok 0 := by
  have hm : (myTile (chartOperands id (own 0) 0)).rnsMode = 0 := by decide +kernel
  have hc : (accOf (myTile (chartOperands id (own 0) 0)) 1).cells = [] := by decide +kernel
  have hz : mixedRadix (myTile (chartOperands id (own 0) 0)) 0 (List.replicate 10 0) = .ok 0 := by decide +kernel
  have hb : cellBytes [] k = List.replicate 10 0 := rfl
  rw [checkElem, hm, elemCell, if_pos rfl, hc, hb, hz]

theorem test_meets_OperationsStart_run : ∃ l,
    checkRun (myTile (chartOperands id (own 0) 0)) (accOf (myTile (chartOperands id (own 0) 0)) 1) 0 (elements (myTile (chartOperands id (own 0) 0)).rnsMode) = .ok l :=
  ⟨_, checkRun_of _ _ (fun _ => 0) _ 0 (fun k _ => chartOperands_checks k)⟩

theorem test_meets_OperationsStart :
    (let s := operandState (own 0) (own 256) 64 4 0 id
     startsOp (.copy 0 3 4 0 0 0) s = some (true, true, true) ∧ startsOp (.gather 0 3 4 2 0 0) (operandState (own 0) (own 256) (own 512) 4 0 id) = some (true, true, true) ∧
       startsOp (.scatter 0 3 4 2 0 0) (operandState (own 0) (own 256) (own 512) 4 0 id) = some (true, true, true) ∧
       startsOp (.copy 0 3 4 0 0 0) (operandState (own 0) (own 256) 64 4 0 (fun t => { t with lock := otherLocks 15 })) = some (true, false, true) ∧
       startsOp (.copy 0 3 4 0 0 0) (operandState (own 0) (own 256) 0 4 0 id) = some (false, true, true)) ∧
      startsOp (.obcp 0 3 4 5 0 0) (chartOperands id (own 0) 0) = some (true, true, true) ∧
      startsOp (.rmma 0 3 4 5 0 0 0 0 0 0) (chartOperands id (own 0) 0) = some (true, true, true) ∧
      startsOp (.rsta 0 3 4 0) (chartOperands id (own 0) 0) = some (true, true, true) ∧
      countsBeats (operandState (own 0) (own 256) 64 (own 512) 0 id) = true := by decide +kernel

/-- Tiles 128 and 129 belong to one chart; the descriptor of an NXCH stands in own scratch. -/
def exchanging (desc : Nat) : State :=
  let s := inChart (fun t => { t with scratch := memWrite [] 0 64 desc }) (fun t => { t with s := vset (vset t.s 4 (own 0)) 5 (own 512) }) { berth0 with w := 2 }
  setTile s 129 { tileAt s 129 with dom := some 5, berth := some 5 }

/-- The direction-1 entry: 2 rows of 4 bytes from 0x100 to an offset, with strides of 8. -/
def eastEntry (dst : Nat) : Nat := (0x100 + dst * 2 ^ 32 + 2 * 2 ^ 64 + 4 * 2 ^ 80 + 8 * 2 ^ 96 + 8 * 2 ^ 112) * 2 ^ 128

/-- An NXCH at issue: how many directions are used, the first bad one or 9, room, and whether its record, if it names one, has been read and written. -/
def nxchIssues (s : State) (b : BitVec 5) : Option (List Nat) :=
  let i : Instr := .nxch 0 3 4 b 0 0
  let o := operands i s
  if ready i s && !o.psn 0 && !o.psn 1 && recordUsable s (if b = 0 then none else some (o.word 1)) && !ahead s then
    match inlineRead s (o.word 0).toNat 1 0 with
    | .ok (s1, [(x, false)]) =>
      let ds := ((List.range 4).map (nxEntry x)).filter (fun e => e.rows != 0)
      some [ds.length, ((ds.find? (nxBad s1)).map (·.dir)).getD 9, (lockRoom (myTile s1) (.nxch ds)).toNat,
        match inlineAccess s1 (o.word 1).toNat 16 0 false .atomic (barUpd (barAdd (ds.map nxUnits).sum) false) with | .ok .. => 1 | _ => 0]
    | _ => none
  else none

/-- An NXCH at rest: its descriptor stands in own scratch, and how many directions it uses. -/
def nxchAtRest (s : State) : Option Nat :=
  let i : Instr := .nxch 0 3 4 0 0 0
  match ownRead s (own 0) 64 with
  | some x =>
    let ds := ((List.range 4).map (nxEntry x)).filter (fun e => e.rows != 0)
    if ready i s && !(operands i s).psn 0 && !(operands i s).psn 1 && (operands i s).word 0 == own 0 && (ds.find? (nxBad s)).isNone then some ds.length else none
  | none => none

/-- The header of an image read by RLDA or RADDS: the bound, whether it fits. -/
def imageIssues (i : Instr) (kind : OpKind) (header : Nat) : Option (Option Nat) :=
  let s := chartOperands (fun t => { t with scratch := memWrite [] 0 64 header }) (own 0) 0
  let tl := myTile s
  if ready i s && !(operands i s).psn 0 && ownScratch s ((operands i s).word 0) imageSize == some 0 && (me s).outs.isEmpty && tl.ops.isEmpty && lockRoom tl kind &&
      !inSpill tl 0 64 then some (headerBound tl.rnsMode (memRead tl.scratch 0 64))
  else none

theorem test_meets_OperationsStart_headers :
    nxchAtRest (exchanging (eastEntry 0x200)) = some 1 ∧ nxchAtRest (exchanging 0) = some 0 ∧ (me (exchanging 0)).busy = none ∧
      nxchIssues (exchanging (eastEntry 0x200)) 0 = some [1, 9, 1, 0] ∧ nxchIssues (exchanging (eastEntry 0x200)) 5 = some [1, 9, 1, 1] ∧
      nxchIssues (exchanging (eastEntry 0x3FFFC)) 0 = some [1, 1, 1, 0] ∧ nxchIssues (exchanging 0) 5 = some [0, 9, 1, 1] ∧
      imageIssues (.rlda 0 3 4 1) (.rlda 1 0) (40 + 768 * 2 ^ 16) = some (some 40) ∧ imageIssues (.radds 0 3 4 1) (.radds 1 0) (40 + 768 * 2 ^ 16) = some (some 40) := by decide +kernel
end Sys2Proof.Tests
end

