-- ==== Sys2Proof/Tests/Witness5.lean ====
section
/-!
SUPPORT. Witnesses for the statements about operations, collectives and residue arithmetic.
-/
namespace Sys2Proof.Tests

open Sys2Proof Sys2Proof.Machine Sys2Proof.Safety

set_option Elab.async false

/-! ### Operations that run -/

/-- Operation 0 of tile 128 and slot 0, on token 3. -/
def opWith (k : OpKind) (f : AsyncOp → AsyncOp) : AsyncOp :=
  f { id := 0, slot := 0, tok := 3, kind := k, cls := 0, scope := 0, record := none, owed := 0, landed := 0, progress := 0, discarded := false, skipped := 0
      told := false, clean := [], started := true, finished := false, asid := 0, root := 0, sup := false, held := none, before := 0 }

/-- The state in which it runs. -/
def operating (k : OpKind) (f : AsyncOp → AsyncOp) (g : Tile → Tile) : State :=
  let s := inChart (fun t => g { t with ops := [opWith k f] }) (fun t => { t with sPend := 8 }) { berth0 with w := 2 }
  { setTile s 129 { tileAt s 129 with dom := some 5, berth := some 5 } with arg := .two 128 0 }

/-- It is found, not finished, not withheld, and nothing is before it. -/
def runs (s : State) : Bool :=
  match opOf s 128 0 with
  | some o => !o.finished && o.held.isNone && o.kind.ranges.all (fun r => !opWaits s 128 o r.start r.len r.dest) && !matrixWaits s 128 o && o.moved.isEmpty && o.read.isEmpty && o.progress == 0
  | none => false

/-- A row of 4 bytes, twice, to the east. -/
def eastRows : NxDir := { dir := 1, src := 0x100, dst := 0x200, rows := 2, rowLen := 4, sstr := 8, dstr := 8 }

/-- How a subtraction of beats ends, by name. -/
def beatEnds (s : State) : Option (Nat × Nat) :=
  (opOf s 128 0).map (fun o =>
    let n := if o.finished then o.owed else o.landed
    (n, ansName (engineMem s (opWho s 128 o) (own 512).toNat 16 .atomic (barUpd (barSub n) false))))

/-- An operation with a record, and the beats that record counts. -/
def counting (f : AsyncOp → AsyncOp) (beats : Nat) (psn : Bool) : State :=
  operating (.copy (own 0).toNat (own 256).toNat 64) (fun o => f { o with record := some (own 512), owed := 2, landed := 1 })
    (fun t => { t with scratch := memWrite [] 524 4 beats, scratchP := if psn then memWrite [] 8 1 1 else [] })

theorem test_meets_OperationsMoveData :
    (∀ k ∈ [OpKind.copy (own 0).toNat (own 256).toNat 64, .gather (own 0).toNat (own 256).toNat (own 512).toNat 4 2, .scatter (own 0).toNat (own 256).toNat (own 512).toNat 4 2,
        .nxch [eastRows], .obcp 64 128 64 true, .obcp 64 128 64 false], runs (operating k id id) = true) ∧
      inSpill (tileAt (operating (.obcp 64 128 64 true) id id) 128) 64 64 = false ∧ neighbour 128 eastRows.dir = some 129 ∧ dieOf 129 = dieOf 128 ∧
        (let s := operating (.nxch [eastRows]) id id
         sameDomain s 128 129 = true ∧ (tileAt s 128).ops.all (fun p => p.finished || decide (0 ≤ p.id)) = true ∧ (tileAt s 128).ops.all (fun p => p.moved.isEmpty) = true) ∧
      eastRows.src + 1 * eastRows.sstr + eastRows.rowLen ≤ Config.spillOff ∧ eastRows.dst + 1 * eastRows.dstr + eastRows.rowLen ≤ Config.spillOff ∧
      eastRows.rowLen ≤ eastRows.dstr ∧
      beatEnds (counting id 5 false) = some (1, 0) ∧ beatEnds (counting (fun o => { o with finished := true }) 5 false) = some (2, 0) ∧
      beatEnds (counting (fun o => { o with landed := 0 }) 5 false) = some (0, 0) ∧ beatEnds (counting id 0 false) = some (1, 4) ∧
      beatEnds (counting id 5 true) = some (1, 4) := by decide +kernel

/-- What the second unit of a COPY of 128 bytes leads to when it is moved alone. -/
def secondUnit (src : Nat) (f : Tile → Tile) : Nat :=
  let s := operating (.copy (own 256).toNat src 128) id f
  match (opOf s 128 0).map (fun o => copyUnit 128 (own 256).toNat src 128 s { o with progress := 1 }) with
  | some (.next ..) => 0
  | some (.wait ..) => 1
  | some (.fail ..) => 2
  | none => 3

/-- An earlier access of slot 0 to the second unit of the source. -/
def storesFirst (t : Tile) : Tile :=
  let a : Access :=
    { id := 0, kind := .store 7 0xFF false, va := own 64, size := 8, cls := 0, acq := false, rel := false, asid := 0, root := 0, sup := false, stage := .issued
      since := 0 }
  let x := { vget Slot.reset t.slots 0 with outs := [a], nextId := 1 }
  { t with slots := vset t.slots 0 x, ops := t.ops.map (fun o => { o with before := 1 }) }

theorem test_meets_OperationsMoveData_alone :
    runs { operating (.copy (own 256).toNat (own 0).toNat 128) id id with arg := .three 128 0 1 } = true ∧ unitsOf (own 256).toNat 128 = 2 ∧
      secondUnit (own 0).toNat id = 0 ∧ secondUnit (own 0).toNat storesFirst = 1 ∧ secondUnit (own 0x80000).toNat id = 2 ∧
      (opWith (.copy 0 0 0) (fun o => { o with progress := 2 })).progress = 2 := by decide +kernel

/-- The unit of a COPY that is moved alone stands at the destination, and the one before it does not yet. -/
theorem test_engine_unit_alone :
    (match exec .engineOperationComplete
        { operating (.copy (own 256).toNat (own 0).toNat 128) id (fun t => { t with scratch := memWrite (memWrite [] 0 1 5) 64 1 6 }) with arg := .three 128 0 1 } with
     | .next t => memGet (tileAt t 128).scratch 320 == 6 && memGet (tileAt t 128).scratch 256 == 0 && (tileAt t 128).ops.map (·.moved) == [[1]]
     | _ => false) = true := by decide +kernel

/-- A unit of an operand is read alone, and an earlier operation that writes it makes a matrix operation wait. -/
theorem test_meets_OperationsMoveData_units :
    (let s := { operating (.rlda 0 0) id id with arg := .three 128 0 2 }
     match opOf s 128 0 with
     | some o =>
       (match (o.kind.readUnits (tileAt s 128).rnsMode)[2]? with
        | some a => o.started && !o.read.any (fun r => r.1 == 2) && !opWaits s 128 o a 64 false && (match engineRead s (opWho s 128 o) a 64 with | .ok .. => true | _ => false)
        | none => false)
     | none => false) = true ∧
      (let s0 := operating (.rlda 0 0) (fun o => { o with id := 1 }) id
       let s := setTile s0 128 { tileAt s0 128 with ops := opWith (.copy (own 64).toNat (own 0x8000).toNat 64) id :: (tileAt s0 128).ops }
       (opOf s 128 1).any (fun o => matrixWaits s 128 o) = true) ∧
      (let s := operating (.obcp 64 128 64 true) (fun o => { o with moved := [0] }) id
       (opOf s 128 0).map (·.moved) = some [0]) ∧
      (let o := opWith (.rlda 0 0) (fun o => { o with read := [(2, 5, false)] })
       o.read.find? (fun r => r.1 == 0 + 2) = some (0 + 2, 5, false) ∧ 64 * (2 + 1) ≤ (List.replicate 192 (0 : Byte)).length) := by decide +kernel

theorem test_meets_OperationEnd :
    (opWith (.copy 0 0 0) id).slot < 4 ∧ 0 < (opWith (.copy 0 0 0) id).tok.toNat ∧ (opWith (.copy 0 0 0) id).tok.toNat < 30 ∧
      (let s := { operating (.rmma 1 none 0 0 false false false) id id with arg := .one 128 }
       ((rmmas (tileAt s 128)).find? (·.started)).isSome = true ∧ runs s = true ∧ inSpill (tileAt s 128) 0 1536 = false ∧ armedKind (tileAt s 128) = 0) ∧
      (let s := { operating (.rmma 3 (some (0, false)) 0 0 true true true) (fun o => { o with started := false }) id with arg := .one 128 }
       (rmmas (tileAt s 128)).length = 1 ∧ (rmmas (tileAt s 128)).all (fun p => !p.started) = true ∧ (tileAt s 128).rnsMode = 0) ∧
      (∀ k ∈ [OpKind.rlda 3 0, .radds 0 0, .rsta 0 0], runs (operating k id id) = true) ∧
      (let t := tileAt (operating (.rsta 0 0) id id) 128
       inSpill t 0 7744 = false ∧ t.reta = 15 ∧ t.retb = 15) := by decide +kernel

/-! ### Collectives -/

/-- A descriptor. -/
def descOf (op ty count : Nat) : CollDesc := { op := op, red := 0, ty := ty, group := 1, ctl := 0, root := 0, inp := (own 64).toNat, out := (own 128).toNat, count := count }

/-- The collective of operation 0 with a second member's sequence number and result. -/
def collective (d : CollDesc) (r : Option CollRes) (others : List CollMember) : State :=
  let s0 := grouped false []
  let s := setTile s0 128 { tileAt s0 128 with ops := [opWith (.coll d (own 0).toNat 0 0 1) id] }
  { s with colls := { part := 0, group := 1, seq := 0, rank := 0, desc := d, agent := .op 128 0, res := r } :: others, arg := .two 128 0 }

/-- The member of operation 0 is found; members that have entered, members of this package, ready, and whether signatures differ. -/
def collEnds (s : State) : Option (List Nat) :=
  match s.colls.find? (fun m => m.agent == .op 128 0) with
  | some m =>
    (tblGet? (partAt s 0).grps 1).map (fun g =>
      let ms := byRank (collOf s m) g.members.length
      let n := g.members.length
      [n, ms.length, (ms.all (fun x => x.agent.ready s)).toNat, (signaturesDiffer ms).toNat,
        match gatherColl m.desc n ms (List.range n) s [] with
        | .ok s1 ins =>
          let c := crossColl s1 g m.desc ms
          let s2 := forgetAll c.1 ms
          (match endOfColl m.desc (fun r => ((g.members[r]?).map (·.parent)).getD 0)
              ((List.range n).map (fun r => (ms.find? (fun x => x.rank == r)).map (collTile s2))) (s2.fresh + 1) ins n with
           | (.result _, _) => if sharedDone s2 m.part g || !c.2 then 3 else 1
           | _ => 0)
        | _ => 2])
  | none => none

/-- A group of two members of this package. -/
def pairs (s : State) : State :=
  setPart s 0 { partAt s 0 with grps := (partAt s 0).grps.map (fun g => (g.1, { g.2 with members := g.2.members ++ [{ mkey := 1, parent := 0, pkg := 0, port := 0 }] })) }

/-- The second member, whose agent is the same operation. -/
def second (d : CollDesc) : CollMember := { part := 0, group := 1, seq := 0, rank := 1, desc := d, agent := .op 128 0, res := none }

/-- The group is pending still. -/
def unformed (s : State) : State := setPart s 0 { partAt s 0 with grps := (partAt s 0).grps.map (fun g => (g.1, { g.2 with formed := false })) }

/-- The writing of a result to OUT ends. -/
def resultWritten (s : State) (r : CollRes) : Bool :=
  match writeOut (.op 128 0) (own 128).toNat (r.bytes.length + 1) s r with
  | .ok .. => (CollAgent.op 128 0).ready s && (opOf s 128 0).isSome
  | _ => false

theorem test_meets_CollectivesComputeAndEnd :
    (let r : CollRes := { status := 4, cause := none, bytes := [(1, false), (2, false), (3, false), (4, false)], moved := 0 }
     resultWritten (collective (descOf 3 2 1) (some r) []) r = true) ∧
      collEnds (pairs (collective (descOf 3 2 1) none [])) = some [2, 1, 1, 0, 3] ∧
      collEnds (pairs (collective (descOf 3 2 1) none [second (descOf 4 2 1)])) = some [2, 2, 1, 1, 1] ∧
      collEnds (collective (descOf 3 2 1) none []) = some [1, 1, 1, 0, 1] ∧ collEnds (collective (descOf 1 2 1) none []) = some [1, 1, 1, 0, 1] ∧
      (let s := { collective (descOf 3 2 1) none [] with arg := .three 0 1 0 }
       (tblGet? (partAt s 0).grps 1).map (fun e => (e.members.length, e.formed || e.broken)) = some (1, true) ∧
         (tblGet? (partAt (unformed s) 0).grps 1).map (fun e => (e.members.length, e.formed, e.broken)) = some (1, false, false)) ∧
      (0 < 2 ∧ (descOf 1 3 1).red = 0 ∧ (descOf 1 3 1).ty = 3 ∧ (descOf 1 2 1).ty = 2) ∧ [[((1 : Byte), false)], [(2, true)]].length = 2 := by decide +kernel

/-! ### Residue arithmetic -/

/-- A chart slot with values in s4, s5 and v4, and accumulators. -/
def residues (x : Word) (v : Vec) (b0 b1 : Nat) (f : Tile → Tile) : State :=
  inChart (fun t => f (setAcc (setAcc t 0 { cells := [], beta := BitVec.ofNat 7 b0, poison := false }) 1 { cells := [], beta := BitVec.ofNat 7 b1, poison := false }))
    (fun t => { t with s := vset (vset t.s 4 x) 5 x, v := vset t.v 4 v }) berth0

theorem test_meets_ResidueInstructions :
    (let s := residues 0 3 0 0 id
     let i : Instr := .rfwd 0 0 4 5 0 0 0
     i.wf = true ∧ ready i s = true ∧ (operands i s).psn 1 = false ∧ ((operands i s).word 1).toNat + 64 ≤ elements (myTile s).rnsMode ∧
       magExp (rfwdValue ((operands i s).vec 0) 8 false 0) ≤ rangeLimit (myTile s).rnsMode) ∧
      (let s := residues 0 (BitVec.ofNat 512 (2 ^ 64 - 1)) 0 0 (fun t => { t with rnsMode := 1 })
       ready (.rfwd 0 0 4 5 3 1 0) s = true ∧ (Instr.rfwd 0 0 4 5 3 1 0).wf = true ∧
         rangeLimit 1 < magExp (rfwdValue ((operands (.rfwd 0 0 4 5 3 1 0) s).vec 0) 64 true 0) ∧ ahead s = false) ∧
      (∀ i ∈ [Instr.rzero 0 1, .rmov 0 1 0, .rbget 0 3 0, .radd 0 2 0 1, .rsub 0 2 0 1, .rstg 0 4 1], ready i (residues 0 0 10 20 id) = true) ∧
      (let s := residues 0 0 (rangeLimit 0) (rangeLimit 0) id
       ready (.radd 0 2 0 1) s = true ∧ rangeLimit 0 < max (accOf (myTile s) 0).beta.toNat (accOf (myTile s) 1).beta.toNat + 1) ∧
      (vget AStage.reset (myTile (residues 0 0 0 0 id)).stage 1).fp < 24 ∧ (myTile (residues 0 0 0 0 id)).ops = [] := by decide +kernel

theorem test_meets_ResidueRoundTrip :
    0 < 2 ∧ 1 < 2 ∧ Tile.reset.reta = 15 ∧ Tile.reset.retb = 15 ∧ Tile.reset.rnsMode = 0 ∧ { Tile.reset with rnsMode := 1 }.rnsMode = 1 ∧
      (-(2 ^ rangeLimit 0) : Int) ≤ -(2 ^ rangeLimit 0) ∧ (2 ^ rangeLimit 1 - 1 : Int) < 2 ^ rangeLimit 1 := by decide +kernel

/-- The check of elements 0 to 7 of accumulator 0: how many it corrects, or the element and the set that it cannot. -/
def checked (s : State) (n : Nat) : Option (List Nat) :=
  match checkRun (myTile s) (accOf (myTile s) 0) 0 n with
  | .ok l => some [l.countP (fun r => r.2.2.isSome), (l.all (fun r => decide (r.2.1.natAbs < 2 ^ 3))).toNat, (mayCorrect s l).toNat]
  | .error (e, k) => some [e, k]

/-- Some digits of element 0 stand wrong. -/
def digitsWrong (s : State) (l : List (Nat × Byte)) : State :=
  setMyTile s (setAcc (myTile s) 0 { accOf (myTile s) 0 with cells := l })

theorem test_meets_ResidueChecksAndOperandBank_checks :
    ready (.rrev 0 3 0 4 0) (residues 0 0 8 0 id) = true ∧ (operands (.rrev 0 3 0 4 0) (residues 0 0 8 0 id)).psn 1 = false ∧
      checked (digitsWrong (residues 0 0 8 0 id) [(2, 7)]) 8 = some [1, 1, 1] ∧
      ready (.rbnd 0 0 4) (residues 3 0 8 0 id) = true ∧ ready (.rbnd 0 0 4) (residues 9 0 8 0 id) = true ∧ ((operands (.rbnd 0 0 4) (residues 9 0 8 0 id)).word 0).toNat = 9 ∧
      (accOf (myTile (residues 9 0 8 0 id)) 0).beta = 8 ∧ ready (.rchk 0 3 0) (residues 0 0 8 0 id) = true ∧
      checked (digitsWrong (residues 0 0 8 0 id) [(0, 7), (1, 9), (2, 11), (3, 5)]) 8 = some [0, 0] ∧
      checked (digitsWrong (residues 0 0 8 0 (fun t => { t with rnsMode := 1 })) [(0, 7), (1, 9), (2, 11)]) 8 = some [0, 0] := by decide +kernel

/-- Tile 128 with the value 8 in element 0 of accumulator 0 and the value 0 in every other. -/
def eightFirst : State := digitsWrong (residues 3 0 8 0 id) ((List.range 10).map (fun c => (c, 8)))

theorem eightFirst_checks (k : Nat) : checkElem (myTile eightFirst) (accOf (myTile eightFirst) 0) k = .ok (if k = 0 then 8 else 0) := by
  have hm : (myTile eightFirst).rnsMode = 0 := by decide +kernel
  have hc : (accOf (myTile eightFirst) 0).cells = (List.range 10).map (fun c => (c, 8)) := by decide +kernel
  by_cases hk : k = 0
  · subst hk
    decide +kernel
  · have hb : cellBytes (accOf (myTile eightFirst) 0).cells k = List.replicate 10 0 := by
      have hd : ((List.range 10).map (fun c => (c, (8 : Byte)))).dropWhile (fun c => decide (c.1 < 10 * k)) = [] := by
        have hk' : ∀ c, c < 10 → c < 10 * k := by omega
        simp [List.range, List.range.loop, List.dropWhile, hk']
      rw [hc, cellBytes, memRun, hd]
      rfl
    have hz : mixedRadix (myTile eightFirst) 0 (List.replicate 10 0) = .ok 0 := by decide +kernel
    rw [if_neg hk, checkElem, hm, elemCell, if_pos rfl, hb, hz]

/-- The check of all elements has its answers: RCHK counts none, RBND may lower the bound to 4 bits and not to 3. -/
theorem test_meets_ResidueChecksAndOperandBank_all : ∃ l,
    checkRun (myTile eightFirst) (accOf (myTile eightFirst) 0) 0 (elements (myTile eightFirst).rnsMode) = .ok l ∧ mayCorrect eightFirst l = true ∧
      l.all (fun r => decide (r.2.1.natAbs < 2 ^ 4)) = true ∧ l.all (fun r => decide (r.2.1.natAbs < 2 ^ 3)) = false ∧
      ready (.rchk 0 3 0) eightFirst = true ∧ ready (.rbnd 0 0 4) eightFirst = true := by
  refine ⟨_, checkRun_of _ _ (fun k => if k = 0 then 8 else 0) _ 0 (fun k _ => eightFirst_checks k), ?_⟩
  decide +kernel

/-- An access to the operand bank issues with an offset. -/
def banks (i : Instr) (x : Nat) : Bool :=
  let s := residues (BitVec.ofNat 64 x) 0 0 0 id
  ready i s && !(operands i s).psn 0 && (operands i s).word 0 == BitVec.ofNat 64 x && !ahead s && (me s).outs.isEmpty && (myTile s).ops.isEmpty

theorem test_meets_ResidueChecksAndOperandBank_bank :
    [0, 0xFFFC0, 0x100000, 1, 0xFFFFF].all (banks (.obld 0 3 4)) = true ∧ [0, 0xFFFC0, 0x100000, 1, 0xFFFFF].all (banks (.obst 0 3 4)) = true := by decide +kernel
end Sys2Proof.Tests
end

