-- ==== Sys2Proof/Tests/Witness6.lean ====
section
/-!
SUPPORT. Witnesses for the statements about the supervisor view, switches and charts.
-/
namespace Sys2Proof.Tests

open Sys2Proof Sys2Proof.Machine Sys2Proof.Safety

set_option Elab.async false

/-! ### The supervisor view -/

/-- A TLBINV form that names its operands and has no poison. -/
def invalidates (i : Instr) (s : State) : Bool := ready i s && !(operands i s).any (·.poison)

/-- A block operation at 0x10000 of a paged supervisor: whether the block it finds is homed here and quiet; it is not frozen, and no bank stands in a record. -/
def onBlock (i : Instr) (s : State) : Option (Bool × Bool) :=
  let va := (operands i s).word 0
  if ready i s && !(operands i s).psn 0 && decide (va.toNat % 2048 = 0 ∧ va.toNat % 2 ^ 56 < Config.localBase) && (me s).outs.isEmpty then
    (match translate s (slotWho s s.cur.pos s.cur.slot) { r := false, w := true } (va.toNat % 2 ^ 56) with
     | .leaf s0 pa _ =>
       let s1 := asks s0 s0.cur.pos s0.cur.slot false
       if (entOf s1 (blockOf pa)).any (·.frozen) || !(heldBanks s1 (fun _ => true)).isEmpty then none else some (homedHere s1 (16 * blockOf pa), blockQuiet s1 (blockOf pa))
     | _ => none)
  else none

/-- A paged supervisor with operands for TLBINV, BINIT and BWB. -/
def blockUser (leaf : Nat) : State := paged leaf (fun t => { t with s := vset (vset t.s 4 0x10000) 5 3 })

/-- The same, where the block lies in package 1, which the partition reaches. -/
def farBlock : State := let s := blockUser (goodLeaf + 2 ^ 44); setPart s 0 { partAt s 0 with routes := [(1, [some 0])] }

/-- The same, while a transaction runs on line 0x200. -/
def lineBusy : State := let s := blockUser goodLeaf; setDie s 0 { dieAt s 0 with trans := [(0x200, { req := { line := 0x200, kind := .read, pkg := 0, die := 2 }, awaiting := [1], answer := none })] }

theorem test_meets_SupervisorInstructions :
    ready (.wfi 0) (supWith (fun t => { t with sstatus := 0x11 })) = true ∧ ready (.wfi 0) (supWith id) = true ∧
      eventPending (supWith id) 128 = false ∧
      (let s := blockUser goodLeaf
       [Instr.tlbinvAll 0, .tlbinvAsid 0 5, .tlbinvPage 0 4 5 0, .tlbinvVa 0 4 2].all (fun i => invalidates i s) = true ∧ (me s).outs = [] ∧ s.vfs = [] ∧
         [Instr.tlbinvPage 0 4 5 3, .tlbinvVa 0 4 3].all (fun i => invalidates i s) = true ∧ ahead s = false ∧
         onBlock (.binit 0 4) s = some (true, true) ∧ onBlock (.bwb 0 4) s = some (true, true) ∧ ready (.pwb 0) s = true ∧ partOf s s.cur.pos = some 0 ∧
         (heldBanks s (fun _ => true)).isEmpty = true) ∧
      onBlock (.bwb 0 4) farBlock = some (false, true) ∧ onBlock (.binit 0 4) lineBusy = some (true, false) ∧
      (let s := paged goodLeaf (fun t => { t with s := vset (vset t.s 4 0x10000) 5 3, outs := [loadAt 0 .issued] })
       invalidates (.tlbinvAll 0) s = true ∧ (me s).outs ≠ []) := by decide +kernel

/-- The partition may send no more beats in the period. -/
def noBeats (s : State) : State := setPart s 0 { partAt s 0 with budget := [(0, { limit := 0, left := 0 })] }

/-- Whether the messages of an instruction on block 32 set out: of BINIT, and of BWB where die 1 holds line 0x200. -/
def setOut (s : State) : Bool × Bool :=
  let w := slotWho s 128 0
  let s1 := setMeta s 0x200 { LineMeta.idle with st := .E, odie := 1 }
  ((bulkTurn s w (blockMsg 32) (initMessages s w 32)).2, (bulkTurn s1 w (blockMsg 32) (recallMessages s1 w (blockLines 32))).2)

theorem test_meets_SupervisorInstructions_bank :
    bankBlocked (setBank (asks (blockUser goodLeaf) 128 0 false) 32 { owed := 0, until_ := 5, queued := 0 }) 32 = true := by
  rw [bankBlocked_setBank]
  decide +kernel

theorem test_meets_SupervisorInstructions_blocks :
    let s := asks (blockUser goodLeaf) 128 0 false
    bankBlocked s 32 = false ∧ (entOf s 32).isSome = true ∧ (entOf s 33).isNone = true ∧ (sealRoom s 33).2 = true ∧
      setOut s = (true, true) ∧ setOut (noBeats s) = (false, false) := by decide +kernel

/-- A supervisor with a save area in own scratch. -/
def saver : State := supWith (fun t => { t with sscratch := own 0, s := vset t.s 4 7 })

/-- How the stores of SSAVE end: all performed, or one of them waits. -/
def saveEnds (s : State) : Option Bool :=
  let us := saveUnits (me s) (csrRead s 0x806) (csrRead s 0x80F) (chartSlot s)
  if ready (.ssave 0) s && slotSettled s && saveReach s (me s).sscratch && (storesRefused 0 us (me s).sscratch.toNat s).isNone then
    match inlineStores 0 us (me s).sscratch.toNat 40 s with
    | .inr _ => some true
    | .inl (.wait _) => some false
    | .inl _ => none
  else none

theorem test_meets_SaveAndRestore :
    saveEnds saver = some true ∧ saveEnds (noWalks (paged goodLeaf (fun t => { t with sscratch := 0x10000 }))) = some false ∧
      (List.range 8).all (fun k => vget 0 (me saver).g k &&& ~~~0xFFFFFFFFF == 0) = true := by decide +kernel

/-- The page of the save area may not be written: the cause with which a store would be refused. -/
theorem test_meets_SaveAndRestore_refused :
    (let s := paged 0x317 (fun t => { t with sscratch := 0x10000 })
     (ready (.ssave 0) s, slotSettled s, ahead s, (storesRefused 0 (saveUnits (me s) (csrRead s 0x806) (csrRead s 0x80F) (chartSlot s)) (me s).sscratch.toNat s).map (·.cause))) =
      (true, true, false, some 8) := by decide +kernel

/-- A supervisor whose save area holds version 1 and zeros. -/
def restorer : State := setTile saver 128 { tileAt saver 128 with scratch := [(0, 1)] }

/-- SREST reads its area, and the area is as R333 asks. -/
def restores (s : State) : Bool :=
  ready (.srest 0) s && nonePending (me s) && (me s).outs.isEmpty &&
    (match inlineRead s (own 0).toNat 40 0 with
     | .ok (_, l) => (l.take 3).all (fun u => !u.2) && areaOk (l.map (·.1))
     | _ => false)

theorem test_meets_SaveAndRestore_restore : restores restorer = true := by decide +kernel

theorem test_meets_SaveAndRestore_locks :
    (me saver).sscratch.toNat % 64 = 0 ∧ saveReach saver (me saver).sscratch = true ∧
      (List.range 2560).all (fun k => !refusedBy saver true ((me saver).sscratch.toNat % 2 ^ 56 + k)) = true ∧
      (List.range 2560).all (fun k => !refusedBy saver false ((me saver).sscratch.toNat % 2 ^ 56 + k)) = true := by decide +kernel

theorem test_meets_SaveAndRestore_slot :
    let t := me saver
    saver.cur.slot < 4 ∧ t.flags.toNat < 64 ∧ t.nfc &&& ~~~0xFFB7 = 0 ∧ bitsOf t.nfc 2 0 ≤ 4 ∧ t.widf.toNat < 2 ^ 36 ∧ t.sstatus.toNat < 32 ∧ t.sepc.toNat < 2 ^ 13 ∧
      t.uepc.toNat < 2 ^ 13 ∧ t.utvec.toNat < 2 ^ 14 ∧ t.scause &&& ~~~0x800000000007FFFF = 0 ∧ t.ucause &&& ~~~0x800000000007FFFF = 0 ∧ t.asid.toNat < 512 ∧
      t.ptbase &&& ~~~0xFFFFFFFFFE000 = 0 ∧ t.rep.resume.toNat < 2 ^ 13 := by decide +kernel

/-- An injection of a kind is armed. -/
def armed (kind : Nat) : State := tileWith (fun t => { t with faultinj := BitVec.ofNat 64 (2 ^ 63 + kind * 2 ^ 60) })

theorem test_meets_ShadowInjection :
    (∀ k ∈ [2, 3, 4], ready (.add 0 3 4 5) (armed k) = true ∧ ready (.vaddI32 0 3 4 5 0) (armed k) = true ∧ (myTile (armed k)).synq.length < 8 ∧
      (myTile (armed k)).faultinj.getLsbD 63 = true ∧ bitsOf (myTile (armed k)).faultinj 62 60 = k ∧ ahead (armed k) = false) ∧
      (scalarResult (.add 0 3 4 5) (armed 2) (operands (.add 0 3 4 5) (armed 2))).map (fun r => r.2.2) = some true ∧
      (laneResult (.vaddI32 0 3 4 5 0) (operands (.vaddI32 0 3 4 5 0) (armed 4)) 0).map (fun r => (r.1, r.2.1, r.2.2.2)) = some (3, 0, true) ∧
      shadowFails (.vaddI32 0 3 4 5 0) (operands (.vaddI32 0 3 4 5 0) (armed 4)) 0 = false ∧
      (let s := { armed 4 with cur := (armed 4).cur }
       let t := setMe s { me s with v := vset (vset (me s).v 4 0x3FFFFFFF) 5 0x3FFFFFFF }
       ready (.vaddsI32 0 3 4 5 0) t = true ∧ (laneResult (.vaddsI32 0 3 4 5 0) (operands (.vaddsI32 0 3 4 5 0) t) 0).map (·.2.2.2) = some true ∧
         shadowFails (.vaddsI32 0 3 4 5 0) (operands (.vaddsI32 0 3 4 5 0) t) 0 = true ∧ ahead t = false) ∧
      lanesOf (armed 4) 0 ≠ [] := by decide +kernel

/-! ### Switches -/

/-- The switch of tile 128 with a setting that takes the port 12 to the port 28. -/
def wired (f : Switch → Switch) : State := switchWith (fun w => f { w with rtab := vset w.rtab 3 0xFFFFFFCC })

/-- Whether the setting has its words and its room. -/
def setReady (s : State) : Bool := (routesOf ((switchAt s 128).entry 3)).all (fun r => !(bufOf (switchAt s 128) r.inp).isEmpty && outputRoom s 128 r.out)

theorem test_meets_SwitchTransfers :
    setReady (wired id) = true ∧ setReady (wired (fun w => { w with bufs := vset w.bufs 12 [] })) = false ∧
      (routesOf ((switchAt (wired id) 128).entry 3)).all (fun r => decide (r.inp < 18) && decide (16 ≤ r.out ∧ r.out < 31)) = true ∧
      (routesOf ((switchAt (wired id) 128).entry 3)).length = 1 := by decide +kernel

/-- A switch at a word. -/
def switchAtWord (pc : Nat) (f : Switch → Switch) : State := wired (fun w => f { w with pc := BitVec.ofNat 14 pc })

theorem test_meets_SwitchWords :
    let s := switchAtWord 5 id
    let w := switchAt s 128
    switchReady s = true ∧ s.cur.pos = 128 ∧ w.pc = 5 ∧ routingForm (.route 3 0) w = some (3, 1, false) ∧ routingForm (.hold 3 1) w = some (3, 2, true) ∧
      routingForm (.routec 3 0) w = some (3, 0, false) ∧ (transfer s 128 (routesOf (w.entry 3)) true).isSome = true ∧
      (transfer (switchAtWord 5 (fun w => { w with bufs := vset w.bufs 12 [] })) 128 (routesOf (w.entry 3)) true).isNone = true ∧
      inputExists 128 12 = true ∧ controlInput 128 12 = true ∧ (vget [] w.bufs 12).head? = some ⟨3, false⟩ ∧ (vget [] w.bufs 0).head? = none ∧
      inputExists 128 0 = true ∧ controlInput 128 0 = true ∧ (5 + (-2 : BitVec 7).toInt = 3) ∧ (5 + (-2 : BitVec 10).toInt = 3) ∧ (5 + (-2 : BitVec 12).toInt = 3) ∧
      vget 0 w.c 1 = 0 ∧ w.tab = 0 ∧ (switchAt (switchAtWord 5 (fun w => { w with tab := 1 })) 128).tab = 1 := by decide +kernel

theorem test_meets_SwitchWords_stops :
    (match decodeSwitch 0 with | .error .undefOp => true | _ => false) = true ∧ switchReady (switchAtWord 5 (fun w => { w with flt := true })) = false ∧
      Instr.isSwitch (.iend) = true ∧ (5 : Int) + (-6 : BitVec 12).toInt < 0 ∧ 8192 ≤ (8191 : Int) + (1 : BitVec 12).toInt ∧ inputExists 128 15 = false ∧
      (inputExists 128 14 && controlInput 128 14) = false ∧
      (bufOf (switchAt (switchAtWord 5 (fun w => { w with bufs := vset w.bufs 12 [⟨3, true⟩] })) 128) 12).head? = some ⟨3, true⟩ := by decide +kernel

/-- Where the branches and the last word stop: a taken target outside route memory, and a program counter that passes 8,191. -/
theorem test_meets_SwitchWords_ends :
    let s := switchAtWord 8191 id
    let w := switchAt s 128
    switchReady s = true ∧ w.pc = 8191 ∧ (8192 : Int) ≤ w.pc.toNat + 1 ∧ vget 0 w.c 1 = 0 ∧ (w.pc.toNat + (-5 : BitVec 10).toInt = 8186) ∧
      (8192 : Int) ≤ w.pc.toNat + (1 : BitVec 10).toInt ∧ (vget [] w.bufs 12).head? = some ⟨3, false⟩ ∧ (8192 : Int) ≤ w.pc.toNat + (1 : BitVec 7).toInt ∧
      vget 0 (switchAt (switchAtWord 8191 (fun w => { w with c := vset w.c 1 1 })) 128).c 1 = 1 ∧ (2 : Int) + (-3 : BitVec 10).toInt < 0 := by decide +kernel

theorem test_meets_SwitchWords_iterations :
    let s := { inChart id id berth0 with switches := [(128, { Switch.reset with phase := .running })], cur := { pos := 128, slot := 0, pc := 0, pass := false, stalled := false } }
    switchReady s = true ∧ berthOfPos s 128 = some berth0 ∧ (switchAt s 128).iter.toNat + 1 < 2 ^ 32 ∧ (switchAt s 128).tab = 0 := by decide +kernel

/-! ### Charts -/

/-- Lines of the L2 from line 0x200 on. -/
def withLines (s : State) (n x : Nat) : State :=
  setDie s 0 { dieAt s 0 with
    l2 := (List.range n).foldl (fun l k => tblSet l (0x200 + k) { data := BitVec.ofNat 1024 (x / 2 ^ (1024 * k)), dirty := false, poison := false }) (dieAt s 0).l2 }

/-- A chart of one tile whose sequencer reads the entry at 0x10000. -/
def sequenced (kind conf count addr image : Nat) (f : Berth → Berth) : State :=
  let s := inChart (fun t => { t with scratch := memWrite [] 0 64 0x01000006 }) id (f { berth0 with seq := .fetch, root := 0x2000, lrec := memWrite [] 0x10 8 0x10000 })
  let s1 := setDie s 0 (dieAt (paged goodLeaf id) 0)
  let s2 := setPart s1 0
    { partAt s1 0 with
      grps := [(1, { epoch := 0, members := [{ mkey := 0, parent := 0, pkg := 0, port := 0 }], formed := true, broken := false, seqs := [], since := 0, cmdSeq := 0 })] }
  { withLines s2 6 (kind + conf * 2 ^ 8 + count * 2 ^ 32 + addr * 2 ^ 64 + image * 2 ^ 1024) with arg := .one 5 }

/-- The same where the descriptor names an ALL-GATHER, whose ranges take entries of the lock table. -/
def sequencedGather (f : Berth → Berth) : State :=
  let s := sequenced 3 0 0 (own 0).toNat 0 f
  setTile s 128 { tileAt s 128 with scratch := memWrite [] 0 64 gatherDesc }

/-- The image of one tile and one quay: a word of code and a switch word each, and empty tables. -/
def chartImage : Nat :=
  let b := fun (off v : Nat) => v * 2 ^ (8 * off)
  b 0 0x44514349 + b 4 1 + b 8 1 + b 0xA 1 + b 0xC 1 + b 0xE 1 + b 0x10 64 + b 0x18 320 + b 0x20 576 +
    (b (64 + 6) 1 + b (64 + 0xC) 1 + b (64 + 0x10) 256 + b (64 + 0x20) (2 ^ 512 - 1)) +
    (b (320 + 6) 1 + b (320 + 0xC) 256 + b (320 + 0x20) (2 ^ 512 - 1))

/-- A saved chart that holds the operand bank of tile 128. -/
def bankHolder : Saved :=
  { id := 9, kind := 1, header := 0x10600, lrec := [], w := 1, h := 1, tx := 0, ty := 0, step := 0, seq := .step, conf := 0, t := 1, imgs := Vector.replicate 4 0
    count := 3, tiles := [], switches := [], quays := [], banks := [(128, 0)], pool := [(0, 0x10600, 0x400)], fetched := [], banked := [] }

/-- It is saved in partition 0. -/
def bankSaved (s : State) : State := setPart s 0 { partAt s 0 with saved := [bankHolder] }

/-- The group of partition 0 is broken. -/
def groupBroken (s : State) : State := setPart s 0 { partAt s 0 with grps := (partAt s 0).grps.map (fun g => (g.1, { g.2 with broken := true })) }

/-- The entry that is read: its kind, count and address; then, of an image, its records and whether a bank stands in the way; of a collective, whether the
group is broken and whether the lock table has room; of an end, how the arrive on DONE ends. -/
def entryRead (s : State) : Option (List Nat) :=
  match berthOf s 5 with
  | none => none
  | some b =>
    if b.seq != .fetch || b.held.isSome || b.saveT.isSome || b.evict then none
    else
      match seqBytes s (berthWho s b) (memRead b.lrec 0x010 8 + 32 * b.stepIdx) 32 with
      | .ok s1 bs =>
        (stepEnt bs).map (fun e =>
          [e.kind, e.count, e.addr,
            if e.kind = 1 then (match readImage s1 b (berthWho s1 b) e.addr with | .ok s2 xs => 10 * xs.length + (heldBank s2 b.rect.tiles).isSome.toNat | _ => 0)
            else if e.kind = 3 then
              (match descBytes s1 b e.addr with
               | .ok s2 ds =>
                 (match collTests s2 (gridPos b.tx b.ty) (BitVec.ofNat 64 e.addr) (ofBytesLE ds) with
                  | .ok (d, _, g, rank) =>
                    10 + (if g.broken then 2 else 0) + (lockRoom (tileAt s2 (gridPos b.tx b.ty)) (.coll d e.addr (tblGet 0 g.seqs rank) rank g.members.length)).toNat
                  | _ => 0)
               | _ => 0)
            else if memRead b.lrec 0x0D0 8 = 0 then 0
            else (match arriveDone s1 (berthWho s1 b) b.part (doneOf b.lrec) with | .ok .. => 1 | .wait _ => 2 | _ => 3)])
      | _ => none

/-- DONE of the chart that a sequencer runs. -/
def withDone (va : Word) (b : Berth) : Berth := { b with lrec := memWrite b.lrec 0xD0 8 va.toNat }

/-- Own scratch holds a record at 512 that expects one arrival; a transaction runs on line 0x600. -/
def doneStates (s : State) : State :=
  let s1 := setTile s 128 { tileAt s 128 with scratch := memWrite (tileAt s 128).scratch 516 4 1 }
  setDie s1 0 { dieAt s1 0 with trans := [(0x600, { req := { line := 0x600, kind := .read, pkg := 0, die := 2 }, awaiting := [1], answer := none })] }

theorem test_meets_ChartSteps_entries :
    entryRead (sequenced 2 0 1 0 0 (fun b => { b with installed := Vector.replicate 4 true })) = some [2, 1, 0, 0] ∧
      entryRead (sequenced 1 0 0 0 0 id) = some [1, 0, 0, 0] ∧ entryRead (sequenced 1 0 3 0x10080 chartImage id) = some [1, 3, 0x10080, 20] ∧
      entryRead (bankSaved (sequenced 1 0 3 0x10080 chartImage id)) = some [1, 3, 0x10080, 21] := by decide +kernel

/-- The tile at the origin holds 64 entries of other operations. -/
def tableFull (s : State) : State := setTile s 128 { tileAt s 128 with lock := otherLocks 64 }

theorem test_meets_ChartSteps_others :
    let c := sequenced 3 0 0 (own 0).toNat 0 id
    entryRead c = some [3, 0, (own 0).toNat, 11] ∧ entryRead (groupBroken c) = some [3, 0, (own 0).toNat, 13] ∧
      entryRead (tableFull (sequencedGather id)) = some [3, 0, (own 0).toNat, 10] ∧ entryRead (sequenced 15 0 0 0 0 id) = some [15, 0, 0, 0] ∧
      entryRead (doneStates (sequenced 15 0 0 0 0 (withDone (own 512)))) = some [15, 0, 0, 1] ∧
      entryRead (doneStates (sequenced 15 0 0 0 0 (withDone 0x30000))) = some [15, 0, 0, 2] := by decide +kernel

/-- The collective of a COLLECTIVE step has been entered. -/
def entered : State :=
  let s := sequenced 3 0 0 (own 0).toNat 0 (fun b => { b with seq := .collective, desc := (own 0).toNat })
  { s with colls := [{ part := 0, group := 1, seq := 0, rank := 0, desc := { op := 6, red := 0, ty := 0, group := 1, ctl := 0, root := 0, inp := 0, out := 0, count := 0 }
                       agent := .berth 5, res := none }] }

theorem test_meets_ChartSteps_collective :
    (berthOf entered 5).map (·.seq) = some .collective ∧ (entered.colls.find? (fun m => m.agent == .berth 5)).isSome = true ∧ berth0.rect.positions.any (fun p => (switchAt entered p).flt) = false ∧
      berth0.rect.positions.any (fun p => (switchAt (setSwitch entered 128 { switchAt entered 128 with flt := true }) p).flt) = true := by decide +kernel

theorem test_meets_ChartSteps_done :
    let b := { berth0 with count := 1 }
    let s := inChart (fun t => { t with coit := 1 }) (fun t => { t with phase := .boundary }) b
    let e := { s with switches := [0, 128].map (fun p => (p, { Switch.reset with phase := .boundary, iter := 1 })) }
    stepDone { e with quays := [(0, { Quay.reset with gens := Quay.reset.gens.map (fun g => { g with ended := true }) })] } b = true ∧
      berthOf { e with arg := .one 5 } 5 = some b ∧ b.seq = .step ∧ b.saveT = none ∧ b.evict = false ∧ 128 ∈ b.rect.tiles ∧ 0 ∈ b.rect.positions := by decide +kernel
end Sys2Proof.Tests
end

