-- ==== Sys2Proof/Tests/Witness7.lean ====
section
/-!
SUPPORT. Witnesses for the statements about generators, tasks, boundaries, coherence and sealing.
-/
namespace Sys2Proof.Tests

open Sys2Proof Sys2Proof.Machine Sys2Proof.Safety

set_option Elab.async false

/-! ### Generators and quiescence -/

/-- A stream of 2 words from 0x10000. -/
def stream : GenDesc := { base := 0x10000, c0 := 2, c1 := 1, c2 := 1, c3 := 1, s1 := 0, s2 := 0, s3 := 0, rng := 0, oc := 0, en := true }

/-- A chart over a paged die whose quay 0 runs a generator, and whose scheduler block stands at 0x10400 with DPTBASE 0x2000. -/
def streaming (g : Gen → Gen) (f : Berth → Berth) : State :=
  let s := inChart id id (f { berth0 with root := 0x2000 })
  let y := dieAt (paged goodLeaf id) 0
  let s1 := setDie s 0 { y with l2 := tblSet y.l2 0x208 { data := BitVec.ofNat 1024 (0x2000 * 2 ^ 256), dirty := false, poison := false } }
  let s2 := setPart s1 0 { partAt s1 0 with sblk := 0x10400 }
  { setQuay s2 0 { Quay.reset with gens := vset Quay.reset.gens 0 (g { Gen.reset with desc := stream, root := 0x2000, ended := false }) } with arg := .two 0 0 }

/-- A read of the stream's next word. -/
def reads (s : State) : Bool :=
  let g := vget Gen.reset (quayAt s 0).gens 0
  match berthOfPos s 0 with
  | some b =>
    !g.ended && !g.blocked && g.held.isNone && decide (g.issued < g.desc.total ∧ g.issued < g.pushed + 16) &&
      (match genRead s b 0 0 g (g.desc.addr g.issued) with | .ok .. => true | _ => false)
  | none => false

/-- A push of a word that has arrived. -/
def pushes (s : State) : Bool :=
  let g := vget Gen.reset (quayAt s 0).gens 0
  match berthOfPos s 0 with
  | some b =>
    !g.blocked && (g.arrived.find? (fun e => e.1 == g.pushed)).isSome && decide ((bufOf (switchAt s 0) 14).length < 4) &&
      (charge s (some b.part) 1 b.budget.toNat 1).isSome
  | none => false

/-- Whether quiescence is due, and the first word of the scheduler block. -/
def quiet (s : State) : Option (List Nat) :=
  (berthOf s 5).map (fun b => [(b.held.isNone && b.seq == .step).toNat, (decide ((partAt s b.part).qtime.toNat ≤ b.still)).toNat, b.told.toNat, (sblkRead s b.part 0 8).2])

/-- The scheduler block names a snapshot at 0x10600, and the chart has the given units of it. -/
def snapping (snap : List Nat) : State :=
  let s := streaming id (fun b => { b with still := 2 ^ 32, snap := snap })
  let y := dieAt s 0
  { setDie s 0 { y with l2 := tblSet y.l2 0x208 { data := BitVec.ofNat 1024 (0x10600 + 0x2000 * 2 ^ 256), dirty := false, poison := false } } with arg := .one 5 }

/-- The snapshot's units are written. -/
def snapWritten (s : State) : Option (Nat × Bool) :=
  (berthOf s 5).map (fun b =>
    let a := sblkRead s b.part 0x000 8
    let w := schedWho a.1 b.part (gridPos b.tx b.ty) b.budget.toNat true (.berth b.id)
    (a.2, isGlobal (BitVec.ofNat 64 a.2) && !b.snap.isEmpty && (match writeUnits w.2 b.snap w.1 a.2 with | .ok .. => true | _ => false)))

theorem test_meets_GeneratorsAndQuiescence :
    1 < stream.c0 ∧ 0 < stream.c1 ∧ 0 < stream.c2 ∧ 0 < stream.c3 ∧ reads (streaming id id) = true ∧
      pushes (streaming (fun g => { g with issued := 1, arrived := [(0, { data := 7, poison := false })] }) id) = true ∧
      quiet { streaming id (fun b => { b with still := 2 ^ 32 }) with arg := .one 5 } = some [1, 1, 0, 0] ∧
      quiet { streaming id (fun b => { b with still := 2 ^ 32, told := true }) with arg := .one 5 } = some [1, 1, 1, 0] ∧
      quiet (snapping [1, 2]) = some [1, 1, 0, 0x10600] ∧ snapWritten (snapping [1, 2]) = some (0x10600, true) := by decide +kernel

/-! ### Task messages and tasks -/

/-- A message to the tile at (0, 0) of the grid. -/
def message : Msg := { hnd := 1, payload := [(7, true), (8, false)], sender := 9, wid := 1, widf := 2, budget := 0, dom := 5, hinted := false, tx := 0, ty := 0, rad := 0 }

/-- A tile that has received messages, with or without a handler. -/
def receiving (valid : Bool) (f : Tile → Tile) (n : NetMsg) : State :=
  let s := inChart (fun t => f { t with htab := if valid then memWrite [] 2 2 0x8010 else [] }) id berth0
  { s with net := [n], arg := .one 128 }

/-- What the statement asks of a tile that takes a message: the handler is valid, a slot is idle, queue and spill have these lengths. -/
def takes (s : State) : List Nat :=
  let t := tileAt s 128
  [(decide (2 ^ 15 ≤ memRead t.htab 2 2)).toNat, ((List.range 4).any (fun k => (vget Slot.reset t.slots k).phase == .idle && (t.berth.isNone || k != 0))).toNat,
    t.runq.length, t.spill.length, t.heldMsg.isSome.toNat, (firstAt s 128).getD 9]

/-- A tile whose slots are all busy. -/
def busy (runq spill : Nat) (t : Tile) : Tile :=
  { t with slots := t.slots.map (fun x => { x with phase := .running }), runq := List.replicate runq message, spill := List.replicate spill message }

theorem test_meets_TaskMessagesAndStart :
    (let n : NetMsg := { msg := message, pos := 128, arrived := true }
     takes (receiving true id n) = [1, 1, 0, 0, 0, 0] ∧ takes (receiving false id n) = [0, 1, 0, 0, 0, 0] ∧ takes (receiving true (busy 0 0) n) = [1, 0, 0, 0, 0, 0] ∧
       takes (receiving true (busy 64 0) n) = [1, 0, 64, 0, 0, 0] ∧ takes (receiving true (busy 64 256) n) = [1, 0, 64, 256, 0, 0] ∧
       takes (receiving true (busy 3 2) n) = [1, 0, 3, 2, 0, 0]) ∧
      (let n : NetMsg := { msg := { message with hinted := true, tx := 3 }, pos := 128, arrived := false }
       (receiving true id n).net[0]? = some n ∧ n.arrived = false ∧ n.msg.hinted = true ∧ firstAt (receiving true id n) n.pos = some 0) ∧
      (let s := receiving true (fun t => { t with runq := [message] }) { msg := message, pos := 128, arrived := false }
       idleSlot (tileAt s 128) = some 1 ∧ (tileAt s 128).runq = [message] ∧ handlerEntry (tileAt s 128) message.hnd.toNat = some 0x10) := by decide +kernel

theorem test_meets_TaskMessagesAndStart_start :
    let s := streaming id id
    partOf s 128 = some 0 ∧ message.payload.length ≤ 4 ∧ s.domains.any (fun d => d.id == message.dom && d.boot) = false ∧
      tileAt (dispatchCsrs s 0).1 128 = tileAt s 128 ∧ (dispatchCsrs s 0).2.ptbase = 0x2000 := by decide +kernel

/-! ### Instruction boundaries -/

/-- Slot 0 of the chart at a boundary. -/
def boundary (f : Slot → Slot) : State := { inChart (fun t => withWords t) f berth0 with arg := .two 128 0 }

theorem test_meets_SlotBoundaries :
    (slotAt (boundary (fun t => { t with answers := [{ cause := 8, tval := 64 }] })) 128 0).answers = [{ cause := 8, tval := 64 }] ∧
      (let t := slotAt (boundary (fun t => { t with isTask := true, isChart := false, budget := 3, runCount := 2 ^ 24 + 1 })) 128 0
       overrun t = true ∧ t.fence = none) ∧
      (let s0 := boundary (fun t => { t with sstatus := 0x18 })
       let s := setPart s0 0 { partAt s0 0 with evq := [{ cause := 0x14, tval := 0 }] }
       partOf s 128 = some 0 ∧ (partAt s 0).evq.length = 1 ∧ (slotAt s 128 0).phase ≠ .idle ∧ (slotAt s 128 0).phase.isDraining = false ∧
         (partAt s 0).evq.Nodup ∧ (slotAt s 128 0).sstatus.getLsbD 4 = true ∧ (slotAt s 128 0).sstatus.getLsbD 3 = true) ∧
      (let s := boundary (fun t => { t with phase := .draining false })
       (slotAt s 128 0).phase.isDraining = true ∧ (tileAt s 128).ops = [] ∧ (slotAt s 128 0).outs = [] ∧ (slotAt s 128 0).replies = [] ∧ (slotAt s 128 0).tokErr = []) ∧
      (let s := boundary (fun t => { t with rep := { active := true, base := 1, len := 2, count := 3, pass := 1, idx := 1, mask := 1, stride := 1, tok := 9 } })
       s.cur.pos = 128 ∧ s.cur.slot = 0 ∧ (slotAt s 128 0).rep.susp = false ∧ capturable (codeWord s 128 0 2) = true ∧
         (passInstr s 128 (slotAt s 128 0).rep 1 1).isSome = true) := by decide +kernel

/-! ### Coherence and sealing -/

/-- The line at 0x10000 with its state of coherence, and the copy that die 1 holds. -/
def coherent (st : LineSt) (copy : Option LineSt) : State :=
  let s := setMeta (paged goodLeaf id) 0x200 { LineMeta.idle with st := st, odie := 1 }
  match copy with
  | some c => setDie s 1 { dieAt s 1 with rdc := [(0x200, { st := c, data := 5, poison := false })] }
  | none => s

/-- A request of die 2 for that line. -/
def request (k : ReqKind) : CmpReq := { line := 0x200, kind := k, pkg := 0, die := 2 }

/-- A request as it is sent: whether its beats have arrived, the line is homed here, a transaction runs, it is the oldest, a record is owed, the grant may set
out, and the requester has a copy; and, where the line is read, whether it is lost and how many holders the request asks. -/
def asked (s : State) (r : CmpReq) : Option (List Nat) :=
  if sentReq s r.line r.pkg r.die r.kind = r then
    let a := reqArrives s r
    let s1 := hold a.1 r
    some ([a.2, homedHere s r.line, transOn s1 r.line, (headOf s1 r.line).any (·.same r), recordOwed s1 r.line, grantClear s1 r, hasCopy s1 r].map (·.toNat) ++
      (match fetchLine s1 r.line (blockKey s1 (blockOfLine r.line)) false with
       | .ok (s2, _) =>
         let m := metaOf (served s2 r) r.line
         [(m.st == .broken || m.st == .poisoned).toNat, (targetsOf s2 m r).length]
       | .error (_, why) => [if why = .busy then 2 else 3]))
  else none

/-- An access at the home of the line begins a transaction: homed here, none runs, needed for a load or a store, and the kind of the oldest request. -/
def homeAsks (s : State) : List Bool × Option ReqKind :=
  ([homedHere s 0x200, transOn s 0x200, needsTrans (metaOf s 0x200).st false, needsTrans (metaOf s 0x200).st true], (headOf s 0x200).map (·.kind))

/-- The comparator of die 0 holds a request. -/
def holding (s : State) (r : CmpReq) : State := setDie s 0 { dieAt s 0 with cmp := [r] }

/-- Slot 0 has a store under way. -/
def storing (s : State) : State := setSlot s 128 0 { slotAt s 128 0 with outs := [loadAt 0x10000 .issued] }

/-- A marker that has not joined lies on the hawser from die 2 to die 0, or from die 0 to die 1. -/
def marked (s : State) (src dst : Nat) : State := { s with hawsers := [.marker src dst 0 128 0 false] }

/-- The same line with a transaction that waits for some targets. -/
def awaiting (k : ReqKind) (ts : List Nat) (copy : Option LineSt) : State :=
  let s := coherent .M copy
  setDie s 0 { dieAt s 0 with trans := [(0x200, { req := request k, awaiting := ts, answer := none })] }

/-- Partition 0 reaches package 1 by port 0. -/
def linked (s : State) : State :=
  { setPart s 0 { partAt s 0 with routes := [(1, [some 0])] } with ports := vset s.ports 0 { Port.reset with st := .up, peerPkg := 1, known := true } }

/-- A request for a line of package 1 that die 2 has sent. -/
def farRequest : CmpReq := { request .read with line := 2 ^ 37 + 0x200, part := some 0 }

/-- It has been sent from a state: whether the home is lost, its beats have arrived, and the way back is open. -/
def asksFar (s : State) : Option (List Bool) :=
  let s1 := setDie s 2 { dieAt s 2 with sent := [farRequest] }
  if sentReq s1 farRequest.line farRequest.pkg farRequest.die farRequest.kind = farRequest then
    let a := reqArrives s1 farRequest
    some [s1.lostPkgs.contains (pkgOfLine farRequest.line), a.2, (reqPath s1 farRequest).all (wayBack a.1 farRequest.die farRequest.oc)]
  else none

/-- The record of a read of the line has still to be written. -/
def recOwed (s : State) : State :=
  { s with recs := [(0, { kind := 0x05, fl := 0, count := 1, cycle := 0, place := 0, addr := 0x10000, lo := 0, hi := 0 })] }

/-- The step boundary's charge to ACT 4 finds no unit left. -/
theorem test_meets_ChartSteps_budget :
    let spent := setPart entered 0 { partAt entered 0 with budget := [(budgetKey 4 0, { limit := 1, left := 0 })] }
    (charge entered (some 0) 4 0 1).isSome = true ∧ charge spent (some 0) 4 0 1 = none ∧ (berthOf entered 5).map (fun b => (b.part, b.budget)) = some (0, 0) := by
  decide +kernel

theorem test_meets_CoherenceTransactions_requests :
    (asked (marked (coherent .I none) 2 0) (request .read)).map (·.take 2) = some [0, 1] ∧
      asksFar (linked (coherent .I none)) = some [false, true, true] ∧ asksFar (coherent .I none) = some [false, false, true] ∧
      asksFar { linked (coherent .I none) with lostPkgs := [1] } = some [true, true, true] ∧
      (asked (recOwed (coherent .I none)) (request .read)).map (·.take 5) = some [1, 1, 0, 1, 1] ∧
      (asked (marked (coherent .I none) 0 2) (request .read)).map (·.take 6) = some [1, 1, 0, 1, 0, 0] ∧
      (asked (awaiting .read [1] none) (request .own)).map (·.take 4) = some [1, 1, 1, 1] ∧
      (asked (holding (coherent .I none) { request .own with die := 3 }) (request .read)).map (·.take 4) = some [1, 1, 0, 0] ∧
      (asked (coherent .M (some .M)) { request .read with die := 1 }).map (·.take 7) = some [1, 1, 0, 1, 0, 1, 1] ∧
      asked (coherent .I none) (request .read) = some [1, 1, 0, 1, 0, 1, 0, 0, 0] ∧ asked (coherent .M (some .M)) (request .own) = some [1, 1, 0, 1, 0, 1, 0, 0, 1] ∧
      asked (coherent .poisoned none) (request .own) = some [1, 1, 0, 1, 0, 1, 0, 1, 0] ∧
      homeAsks (coherent .M (some .M)) = ([true, false, true, true], none) ∧
      homeAsks (holding (storing (coherent .S none)) { request .homeStore with die := 0, agent := .access 128 0 0 }) = ([true, false, false, true], some .homeStore) ∧
      homeAsks (holding (coherent .M none) (request .read)) = ([true, false, true, true], some .read) ∧
      (homeData (coherent .M none) 0x200).isSome = true ∧ (homeData (coherent .E none) 0x200).isSome = true ∧
      (metaOf (coherent .broken none) 0x200).st = .broken ∧ (metaOf (coherent .poisoned none) 0x200).st = .poisoned ∧ (request .own).die < 8 ∧
      (ownData (coherent .I none) (request .own) none).isSome = true ∧ (homeData (coherent .I none) 0x200).isSome = true ∧
      (homeData (coherent .S none) 0x200).isSome = true ∧ (metaOf (coherent .S none) 0x200).st = .S ∧ (metaOf (coherent .M none) 0x200).st = .M := by decide +kernel

/-- The target 1 is awaited, holds a copy, or has a dirty line on its way. -/
def answers (s : State) (t : Nat) : Option (List Nat) :=
  (tblGet? (dieAt s 0).trans 0x200).map (fun x =>
    [(x.awaiting.contains t).toNat, (tblGet? (dieAt s t).rdc 0x200).isSome.toNat, (tblGet? (dieAt s t).wbuf 0x200).isSome.toNat, (s.lostPkgs.contains (t - 256)).toNat])

/-- The invalidation that asks a target: whether a store is owed there, there is a path, and it has crossed. -/
def answersAt (s : State) (t : Nat) : Option (List Bool) :=
  (tblGet? (dieAt s 0).trans 0x200).map (fun x =>
    match targetPath s x.req 0 t with
    | some path => [(tblGet? (dieAt s t).rdc 0x200).any (owedLive s), true, (travel s (x.req.who (.inval 0x200 t)) 0 path 0x200 (beatUnits path 1)).2]
    | none => [(tblGet? (dieAt s t).rdc 0x200).any (owedLive s), false])

/-- Die 1 has been granted the line for a store of slot 0 that it has still to perform. -/
def owing (s : State) : State :=
  let s1 := storing s
  setDie s1 1 { dieAt s1 1 with rdc := [(0x200, { st := .M, data := 5, poison := false, owed := some (.access 128 0 0) })] }

/-- Die 1 has a dirty line in its write-back buffer. -/
def leaving (s : State) : State :=
  setDie s 1 { dieAt s 1 with rdc := [], wbuf := [(0x200, { data := 6, dirty := true, poison := false })] }

/-- The transaction of line 0x200 is caused by an access of partition 0. -/
def byPartition (s : State) : State :=
  setDie s 0 { dieAt s 0 with trans := (dieAt s 0).trans.map (fun e => (e.1, { e.2 with req := { e.2.req with part := some 0 } })) }

/-- The answer of a die crosses back, and nothing else is awaited. -/
def answersBack (s : State) (t : Nat) : Bool × Bool :=
  match tblGet? (dieAt s 0).trans 0x200 with
  | some x => ((travel s (x.req.who (.answer 0x200 t)) t [0] 0x200 [(0, 1)]).2, x.awaiting.isEmpty && x.flying.isEmpty)
  | none => (false, false)

/-- The dirty line that has left die 1 goes home. -/
def goesHome (s : State) : Bool × Bool :=
  match tblGet? (dieAt s 1).wbuf 0x200 with
  | some b => ((travel s (b.orig.who 1 0x200) 1 [0] 0x200 (beatUnits [0] 3)).2, b.orig.part.isNone)
  | none => (false, false)

theorem test_meets_CoherenceTransactions_answers :
    homedHere (coherent .M none) (2 ^ 38) = false ∧ homedHere (coherent .M none) 0x200 = true ∧ answers (awaiting .read [1] (some .M)) 1 = some [1, 1, 0, 0] ∧
      answersAt (awaiting .read [1] (some .M)) 1 = some [false, true, true] ∧ answersAt (owing (awaiting .read [1] none)) 1 = some [true, true, true] ∧
      answersAt (marked (awaiting .read [1] (some .M)) 0 1) 1 = some [false, true, false] ∧ answersAt (leaving (awaiting .own [1] none)) 1 = some [false, true, true] ∧
      answersAt (byPartition (awaiting .own [257] none)) 257 = some [false, false] ∧ answersAt (byPartition (linked (awaiting .own [257] none))) 257 = some [false, true, true] ∧
      answersBack (awaiting .own [] none) 1 = (true, true) ∧ answersBack (marked (awaiting .own [] none) 1 0) 1 = (false, true) ∧
      goesHome (leaving (coherent .M none)) = (true, true) ∧ goesHome (marked (leaving (coherent .M none)) 1 0) = (false, true) ∧
      answers (awaiting .own [1] (some .S)) 1 = some [1, 1, 0, 0] ∧ answers (awaiting .own [2] (some .S)) 1 = some [0, 1, 0, 0] ∧
      answers (leaving (awaiting .own [1] none)) 1 = some [1, 0, 1, 0] ∧ answers { awaiting .own [259] none with lostPkgs := [3] } 259 = some [1, 0, 0, 1] ∧
      (tblGet? (dieAt (awaiting .own [] none) (dieOfLine 0x200)).trans 0x200).map (·.awaiting) = some [] ∧
      (tblGet? (dieAt (coherent .M (some .M)) 1).rdc 0x200).map (·.st) = some .M ∧ (tblGet? (dieAt (coherent .S (some .S)) 1).rdc 0x200).map (·.st) = some .S ∧
      (tblGet? (dieAt (coherent .M (some .M)) 1).rdc 0x200).map (owedLive (coherent .M (some .M))) = some false ∧
      (tblGet? (dieAt (owing (coherent .M none)) 1).rdc 0x200).map (owedLive (owing (coherent .M none))) = some true ∧
      (tblGet? (dieAt (leaving (coherent .M none)) 1).wbuf 0x200).isSome = true ∧ (tblGet? (dieAt (leaving (coherent .M none)) 0).trans 0x200).isNone = true ∧
      (tblGet? (dieAt (leaving (awaiting .own [2] none)) 0).trans 0x200).isSome = true := by decide +kernel

/-- Block 32 with its entry, and the generations of key slot 3. -/
def sealing1 (e : ScEnt → ScEnt) (second : Option (BitVec 256 × BitVec 256)) : State :=
  let s := paged goodLeaf id
  let s1 := setDie s 0 { dieAt s 0 with sc := [(32, e (opened 3))] }
  { s1 with keys := [(0, { KeySlot.reset with owner := some 0 }), (3, { KeySlot.reset with owner := some 0, inst0 := some (1, 2), inst1 := second })], arg := .one 32 }

/-- The entry of block 32: failed, frozen, not filled, dirty, all lines valid, keys of its generation and of the other. -/
def entry (s : State) : Option (List Bool) :=
  (entOf s 32).map (fun e => [e.failed, e.frozen, !e.filled, e.dirty != 0, e.valid == 0xFFFF, (keysOf s e.key.toNat e.gen).isSome, (keysOf s e.key.toNat (e.gen ^^^ 1)).isSome, e.count == 0xFFFFFFFF])

theorem test_meets_SealedBlocks :
    entry (sealing1 (fun e => { e with dirty := 1 }) none) = some [false, false, false, true, true, true, false, false] ∧
      entry (sealing1 (fun e => { e with dirty := 1, count := 0xFFFFFFFF }) (some (3, 4))) = some [false, false, false, true, true, true, true, true] ∧
      entry (sealing1 (fun e => { e with dirty := 1, count := 0xFFFFFFFF }) none) = some [false, false, false, true, true, true, false, true] ∧
      (dieAt (sealing1 id none) (dieOfBlock 32)).dram.wf = true ∧ (List.replicate 2048 (0 : Byte)).length = 2048 ∧
      (let s := sealing1 id none
       (dieAt s (dieOfBlock 33)).sc.length < 131072 ∧ (tblGet SealMeta.reset (dieAt s (dieOfBlock 33)).sealMeta 33).rsv = 0 ∧ entOf s 33 = none ∧ badLines s 33 = [] ∧ (tblGet SealMeta.reset (dieAt s (dieOfBlock 33)).sealMeta 33).key.toNat % 128 = 0 ∧ keysOf s 3 0 = some (1, 2) ∧ keysOf s 4 0 = none) ∧
      (let s := { paged goodLeaf id with arg := .one 0x200 }
       (tblGet? (dieAt s (dieOfLine 0x200)).l2 0x200).map (·.dirty) = some false ∧ (entOf s (blockOfLine 0x200)).isSome = true) ∧
      (let s := setDie (paged goodLeaf id) 0 { dieAt (paged goodLeaf id) 0 with l2 := [(0x200, { data := 7, dirty := true, poison := false })] }
       (tblGet? (dieAt s (dieOfLine 0x200)).l2 0x200).map (·.dirty) = some true) := by decide +kernel

/-- While a back-off blocks its bank, nothing of a block is opened or sealed. -/
theorem test_meets_SealedBlocks_bank :
    let s := setBank (sealing1 (fun e => { e with dirty := 1 }) none) 32 { owed := 0, until_ := 5, queued := 0 }
    let t := setBank (sealing1 id none) 33 { owed := 0, until_ := 5, queued := 0 }
    bankBlocked s 32 = true ∧ entry s = some [false, false, false, true, true, true, false, false] ∧ bankBlocked t 33 = true ∧ entOf t 33 = none := by
  exact ⟨(bankBlocked_setBank _ _ _).trans (by decide +kernel), by decide +kernel, (bankBlocked_setBank _ _ _).trans (by decide +kernel), by decide +kernel⟩

/-- A dirty line of a block without an entry, and a block of which a re-seal was cut off. -/
theorem test_meets_SealedBlocks_lines :
    (let s0 := paged goodLeaf id
     let s := setDie s0 0 { dieAt s0 0 with sc := [], l2 := [(0x200, { data := 7, dirty := true, poison := false })] }
     (tblGet? (dieAt s (dieOfLine 0x200)).l2 0x200).map (·.dirty) = some true ∧ entOf s (blockOfLine 0x200) = none ∧ (dieAt s (dieOfLine 0x200)).sc.length < 131072) ∧
      (let s0 := sealing1 id none
       let s := setDie s0 0 { dieAt s0 0 with sealMeta := [(33, { SealMeta.reset with key := 3, cut := true })] }
       (tblGet SealMeta.reset (dieAt s (dieOfBlock 33)).sealMeta 33).cut = true ∧ (tblGet SealMeta.reset (dieAt (sealing1 id none) 0).sealMeta 33).cut = false ∧
         badLines s 33 = []) := by decide +kernel

/-- A block whose stored tag is the one its bytes have under its key opens without failing. -/
theorem test_meets_SealedBlocks_tag :
    let s0 := sealing1 id none
    let tag := tagOf 2 (dramBlock s0 33) 33 0 3
    let s := setDie s0 0 { dieAt s0 0 with sealMeta := [(33, { SealMeta.reset with key := 3, count := 0, tag := tag })] }
    let sm := tblGet SealMeta.reset (dieAt s (dieOfBlock 33)).sealMeta 33
    sm.key.toNat % 128 = 3 ∧ sm.rsv = 0 ∧ keysOf s 3 (sm.key.extractLsb' 7 1) = some (1, 2) ∧ tagOf 2 (dramBlock s 33) 33 sm.count.toNat sm.key.toNat = sm.tag := by
  refine ⟨by decide +kernel, by decide +kernel, by decide +kernel, ?_⟩
  rfl
end Sys2Proof.Tests
end

