-- ==== Sys2Proof/Tests/Witness8.lean ====
section
/-!
SUPPORT. Witnesses for the statements about the scheduler, saves and the commands of a supervisor.
-/
namespace Sys2Proof.Tests

open Sys2Proof Sys2Proof.Machine Sys2Proof.Safety

set_option Elab.async false

/-! ### The scheduler -/

/-- A partition whose scheduler block at 0x10400 holds DPTBASE 0x2000 and some more fields, with one chart. -/
def scheduled (fields : List (Nat × Nat)) (f : Berth → Berth) (g : Part → Part) : State :=
  let s := inChart id id (f { berth0 with root := 0x2000 })
  let x := ((0x20, 0x2000) :: fields).foldl (fun a e => a + e.2 * 2 ^ (8 * e.1)) 0
  let y := dieAt (paged goodLeaf id) 0
  let line := fun (k : Nat) => ({ data := BitVec.ofNat 1024 (x / 2 ^ (1024 * k)), dirty := false, poison := false } : LineBuf)
  let s1 := setDie s 0 { y with l2 := tblSet (tblSet y.l2 0x208 (line 0)) 0x209 (line 1) }
  { setPart s1 0 (g { partAt s1 0 with sblk := 0x10400 }) with arg := .one 0 }

/-- The same without a chart, with a record in queue 0. -/
def queued (l : Launch) (more : List Launch) : State :=
  let s := scheduled [] id (fun x => { x with queues := vset x.queues 0 (l :: more) })
  { setTile s 128 Tile.reset with berths := [] }

/-- The boot record of a chart of one tile, with some fields. -/
def record (fields : List (Nat × Nat × Nat)) : Launch :=
  { lrec := fields.foldl (fun m e => memWrite m e.1 e.2.1 e.2.2) (memWrite (memWrite (memWrite [] 0 1 1) 4 2 1) 6 2 1), saved := none, boot := true, held := none }

/-- The same, where the record is not the boot record and the tile at (0, 1) has the event slot. -/
def queuedLater (l : Launch) : State :=
  let s := queued l []
  setTile s 129 { Tile.reset with slots := vset Tile.reset.slots 0 { Slot.reset with sstatus := 16 } }

/-- Whether a pass is due and the first record is not withheld; then how its waits stand, and whether it is placed. -/
def eligible (s : State) : Option (List Nat) :=
  match [3, 2, 1, 0].flatMap (fun q => ((vget [] (partAt s 0).queues q).mapIdx (fun i l => (q, i, l))).filter (fun y => y.2.2.placed.isNone)) with
  | (_, _, l) :: _ =>
    some [(passDue s 0).toNat, l.held.isNone.toNat, l.wait.isSome.toNat,
      match waitsMet s 0 l with
      | .met s1 => if (place s1 0 l).isSome then 1 else 2
      | .notMet _ none => 3
      | .notMet _ (some _) => 4
      | .wait _ => 5
      | .held .. => 6
      | .failed .. => 7]
  | [] => none

/-- A record that waits for the record at an address to leave a generation. -/
def waiting (va gen : Nat) : Launch := record [(3, 1, 1), (0xB0, 8, va), (0xB8, 4, gen)]

/-- The access budget of the scheduler's walks is spent. -/
def spent (s : State) : State := setPart s 0 { partAt s 0 with budget := [(budgetKey 2 0, { limit := 1, left := 0 })] }

/-- The second table at 0x4000 maps nothing. -/
def unmapped (s : State) : State := setDie s 0 { dieAt s 0 with l2 := tblSet (dieAt s 0).l2 0x80 { data := 0, dirty := false, poison := false } }

theorem test_meets_SchedulingAndDispatch_pass :
    (partAt (queued (record []) []) 0).st = .running ∧ (queued (record []) []).berths = [] ∧ eligible (queued (record []) []) = some [1, 1, 0, 1] ∧
      eligible (queued (waiting 0x10000 0x1122) []) = some [1, 1, 0, 4] ∧
      eligible (queued { waiting 0x10000 0x1122 with wait := some 0x10000 } []) = some [1, 1, 1, 4] ∧
      eligible (queued { record [] with boot := false } []) = some [1, 1, 0, 3] ∧ eligible (queuedLater { record [] with boot := false }) = some [1, 1, 0, 1] ∧
      eligible (queued (waiting 0x10000 5) []) = some [1, 1, 0, 1] ∧ eligible (queued (waiting Config.localBase 0) []) = some [1, 1, 0, 7] ∧
      eligible (spent (queued (waiting 0x10000 5) [])) = some [1, 1, 0, 5] ∧ eligible (unmapped (queued (waiting 0x10000 5) [])) = some [1, 1, 0, 6] ∧
      eligible (queued (record [(6, 2, 65)]) []) = some [1, 1, 0, 2] ∧ eligible (scheduled [] id id) = none ∧ passDue (scheduled [] id id) 0 = false ∧
      (let s := scheduled [] (fun b => { b with evict := true }) id
       s.berths.any (fun b => b.part == 0 && b.saving) = true) ∧
      (findRect (queued (record []) []) 0 1 1).map (fun r => (r.tx, r.ty, r.w, r.h)) = some (0, 0, 1, 1) := by decide +kernel

/-- How the read of task code ends: 16 words at 0x10000, or where nothing is mapped. -/
def codeRead (s : State) : Option Nat :=
  match (partAt s 0).pendDispatch with
  | id :: _ =>
    (workOf s id).map (fun w =>
      if (workHeld s id).isSome then 9
      else
        let c := dispatchCsrs s 0
        let a := schedWho c.1 0 (gridPos w.1.tx w.1.ty) (memRead w.2 2 1 % 16) false (workAgent s id)
        match seqBytes a.1 a.2 (memRead w.2 0x018 8) (4 * memRead w.2 0x022 2) with
        | .ok .. => 0
        | .wait _ => 1
        | .held .. => 2
        | .bad .. => 3)
  | [] => none

/-- A chart that waits for its code. -/
def dispatching (leaf va : Nat) (budget : Bool) : State :=
  let s := scheduled [] (fun b => { b with seq := .starting, dispatched := false, lrec := memWrite (memWrite [] 0x18 8 va) 0x22 2 16 })
    (fun x => { x with pendDispatch := [5], budget := if budget then [] else [(budgetKey 2 0, { limit := 1, left := 0 })] })
  setDie s 0 { dieAt s 0 with l2 := tblSet (dieAt s 0).l2 0x80 { data := BitVec.ofNat 1024 leaf, dirty := false, poison := false } }

theorem test_meets_SchedulingAndDispatch_dispatch :
    codeRead (dispatching goodLeaf 0x10000 true) = some 0 ∧ codeRead (dispatching goodLeaf 0x10000 false) = some 1 ∧ codeRead (dispatching 0 0x10000 true) = some 2 ∧
      codeRead (dispatching 0x30F 0x10000 true) = some 3 ∧ Tile.reset.imem.wf = true := by decide +kernel

/-- A grid of one tile with DONE. -/
def grid (done left : Nat) (f : Domain → Domain) : State :=
  let s := scheduled [] id id
  let d : Domain :=
    { id := 7, part := 0, tx := 0, ty := 0, w := 1, h := 1, budget := 0, lrec := memWrite [] 0xD0 8 done, boot := false, dispatched := true, held := none
      dead := false, cut := false, left := left, wid := 0 }
  { setTile s 128 { Tile.reset with dom := some 7 } with berths := [], domains := [f d], arg := .one 7 }

/-- Whether the grid has ended, is dead, its DONE, and how the arrive ends. -/
def gridEnd (s : State) : Option (List Nat) :=
  (s.domains.find? (fun d => d.id == 7)).map (fun d =>
    let w := schedWho s d.part (gridPos d.tx d.ty) d.budget.toNat true (.domain 7)
    let done := memRead d.lrec 0x0D0 8
    [(domainDone s d).toNat, (d.dispatched && d.held.isNone).toNat, d.dead.toNat, (done != 0).toNat,
      ansName (memAccess w.1 w.2 done 16 .atomic (barUpd barArrive false))])

/-- A grid whose DONE record expects one arrival. -/
def arriving (s : State) : State :=
  setDie s 0 { dieAt s 0 with l2 := tblSet (dieAt s 0).l2 0x200 { data := BitVec.ofNat 1024 (2 ^ 32), dirty := false, poison := false } }

theorem test_meets_SchedulingAndDispatch_grids :
    gridEnd (arriving (grid 0x10000 0 id)) = some [1, 1, 0, 1, 0] ∧ gridEnd (grid 0x10010 0 id) = some [1, 1, 0, 1, 4] ∧
      gridEnd (spent (arriving (grid 0x10000 0 id))) = some [1, 1, 0, 1, 1] ∧ gridEnd (unmapped (arriving (grid 0x10000 0 id))) = some [1, 1, 0, 1, 2] ∧
      (gridEnd (grid 0 0 id)).map (fun l => l.take 4) = some [1, 1, 0, 0] ∧ (gridEnd (grid 0 1 id)).map (fun l => l.take 1) = some [0] ∧
      (gridEnd (grid 0x10000 0 (fun d => { d with dead := true }))).map (fun l => l.take 3) = some [1, 1, 1] := by decide +kernel

/-! ### Saves and commands -/

/-- A chart that is being saved to 0x10600, with its tile and switches at a boundary. -/
def capturing (cap : Nat) (seq : SeqPhase) (leaf : Nat) (budget : Bool) : State :=
  let s := scheduled [] (fun b => { b with seq := seq, saveT := some 1, pool := [(0, 0x10600, 0x400)], cap := cap })
    (fun x => { x with budget := if budget then [] else [(budgetKey 2 0, { limit := 1, left := 0 })] })
  let t := tileAt s 128
  let s1 := setTile s 128 { t with slots := vset t.slots 0 { Slot.reset with phase := .boundary, isChart := true } }
  let s2 := setDie s1 0 { dieAt s1 0 with l2 := tblSet (dieAt s1 0).l2 0x80 { data := BitVec.ofNat 1024 leaf, dirty := false, poison := false } }
  { setSwitch (setSwitch s2 0 { Switch.reset with phase := .boundary }) 128 { Switch.reset with phase := .boundary } with arg := .one 5 }

/-- Whether a capture may go on, whether a unit is left, and how its write ends. -/
def unitWritten (s : State) : Option (List Nat) :=
  (berthOf s 5).map (fun b =>
    [(b.saving && b.held.isNone).toNat, (captureReady s b).toNat,
      match saveUnit s b b.cap 0 with
      | none => 9
      | some (va, v) =>
        let w := schedWho (nextFresh s) b.part (gridPos b.tx b.ty) b.budget.toNat true (.berth b.id)
        ansName (memAccess w.1 w.2 va 64 .store (fun _ _ => .put v (fullMask 64) false))])

theorem test_meets_SavesResumesAndCommands_capture :
    unitWritten (capturing 0 .step goodLeaf true) = some [1, 1, 0] ∧ unitWritten (capturing 0 .starting goodLeaf true) = some [1, 0, 0] ∧
      unitWritten (capturing 3 .step goodLeaf false) = some [1, 1, 1] ∧ unitWritten (capturing 3 .step 0 true) = some [1, 1, 2] ∧
      unitWritten (capturing 3 .step 0x317 true) = some [1, 1, 4] ∧ unitWritten (capturing 1000000 .step goodLeaf true) = some [1, 1, 9] := by decide +kernel

/-- A saved chart whose header and position records stand at 0x100000. -/
def savedChart (img : Word) : Saved :=
  { bankHolder with header := 0x100000, imgs := vset (Vector.replicate 4 0) 0 img, banks := [], pool := [(0, 0x100000, 0x400000)] }

/-- A chart that resumes it, with parts of the record read. -/
def resuming (x : Saved) (cap leaf : Nat) (budget : Bool) : State :=
  let s := scheduled [] (fun b => { b with seq := .starting, dispatched := true, resume := some 9, cap := cap })
    (fun y => { y with saved := [x], budget := if budget then [] else [(budgetKey 2 0, { limit := 1, left := 0 })] })
  let d := dieAt s 0
  let s1 := setDie s 0 { d with sc := d.sc ++ [(512, opened 3), (513, opened 3)], l2 := tblSet d.l2 0x80 { data := BitVec.ofNat 1024 leaf, dirty := false, poison := false } }
  { setTile s1 128 { tileAt s1 128 with slots := Tile.reset.slots } with arg := .one 5 }

/-- A resumption: whether it goes on, and a bank in its way; how the read of the next part of the record ends, or that of the images. -/
def resumes (s : State) : Option (List Nat) :=
  (berthOf s 5).bind (fun b => (resumedOf s b).map (fun x =>
    let w := schedWho s b.part (gridPos b.tx b.ty) b.budget.toNat true (.berth 5)
    [(b.seq == .starting && b.dispatched && b.held.isNone && slotsIdle s b).toNat, (bankInWay s b x).isSome.toNat,
      match nextPart x b.rect b.cap with
      | some y =>
        (match seqBytes w.1 w.2 y.va y.len with
         | .ok .. => 0
         | .wait _ => 1
         | .held .. => 2
         | .bad .. => 3)
      | none =>
        (match readImages b (berthWho s b) x.imgs [0, 1, 2, 3] s [] with
         | .ok .. => 10
         | .wait _ => 11
         | .held .. => 12
         | .bad .. => 13)]))

/-- All of its record has been read. -/
def allRead (img : Word) : Saved := { savedChart img with banked := [0] }

/-- A pre-existing chart of another position of the partition holds the bank of tile 128. -/
def otherHolder : Saved := { bankHolder with id := 8 }

theorem test_meets_SavesResumesAndCommands_resume :
    resumes (resuming (savedChart 0) 0 goodLeaf true) = some [1, 0, 0] ∧ resumes (resuming (savedChart 0) 0 goodLeaf false) = some [1, 0, 1] ∧
      resumes (resuming (savedChart 0) 0 0 true) = some [1, 0, 2] ∧ resumes (resuming (savedChart 0) 0 0x31B true) = some [1, 0, 3] ∧
      resumes (resuming (allRead 0) 1000 goodLeaf true) = some [1, 0, 10] ∧ resumes (resuming (allRead 0x10080) 1000 goodLeaf false) = some [1, 0, 11] ∧
      resumes (resuming (allRead 0x10080) 1000 goodLeaf true) = some [1, 0, 13] ∧
      (let s := resuming (savedChart 0) 0 goodLeaf true
       (resumes (setPart s 0 { partAt s 0 with saved := (partAt s 0).saved ++ [otherHolder] })).map (·.take 2) = some [1, 1]) ∧
      (let s := scheduled [] id (fun x => { x with drainlim := 1 })
       let x := slotAt s 128 0
       let e := setSlot s 128 0 { x with outs := [{ loadAt 0x10000 .faultHeld with since := 1 }] }
       drainExpired s berth0 = false ∧ drainExpired { e with cycle := 5 } berth0 = true ∧ s.berths.any (fun b => b.saving) = false ∧
         drainExpired (setPart { e with cycle := 5 } 0 { partAt e 0 with drainlim := 0 }) berth0 = false) := by decide +kernel

/-- A new command at the origin (0, 0), with its ARG. -/
def commanded (op arg : Nat) (f : Berth → Berth) (g : Part → Part) (room : Nat := 0x1000000) : State := scheduled [(0xC0, 2 ^ 32 + op), (0xD0, arg), (0x40, 0x10600), (0x80, room)] f g

/-- The OP of a new command, whether a chart or a grid stands at its origin, and whether that is being saved. -/
def commandOf (s : State) : Option (List Nat) :=
  (newCmd s 0).map (fun r =>
    [r.op, (chartAt s 0 r).isSome.toNat, ((chartAt s 0 r).any (·.saving)).toNat,
      (s.domains.find? (fun d => d.part == 0 && d.tx == r.tx && d.ty == r.ty && !d.dead)).isSome.toNat,
      ((chartAt s 0 r).any (fun b => b.dispatched && b.seq != .starting && (requestSave s b false).2)).toNat,
      (s.berths.any (fun b => b.part == 0 && b.saving)).toNat])

/-- The saved chart that ARG names, and whether a save in progress has that header. -/
def discards (s : State) : Option (Bool × Bool × Bool) :=
  (newCmd s 0).map (fun _ =>
    let a := sblkRead s 0 0xD0 8
    (savingAt a.1 0 a.2, ((partAt a.1 0).saved.find? (fun y => y.header.toNat == a.2)).isSome, a.1.berths.any (fun b => b.part == 0 && b.resume == some 9)))

/-- A second chart of the partition is being saved. -/
def otherSaved (s : State) : State := { s with berths := s.berths ++ [{ berth0 with id := 6, tx := 3, evict := true }] }

theorem test_meets_SavesResumesAndCommands_commands :
    commandOf (commanded 1 0 id id) = some [1, 1, 0, 0, 1, 0] ∧ commandOf (commanded 1 0 (fun b => { b with evict := true }) id) = some [1, 1, 1, 0, 1, 1] ∧
      commandOf (commanded 1 0 (fun b => { b with dispatched := false }) id) = some [1, 1, 0, 0, 0, 0] ∧
      commandOf (otherSaved (commanded 1 0 id id)) = some [1, 1, 0, 0, 1, 1] ∧ commandOf (commanded 1 0 id id 0) = some [1, 1, 0, 0, 0, 0] ∧
      commandOf { commanded 1 0 id id with berths := [] } = some [1, 0, 0, 0, 0, 0] ∧ commandOf { commanded 2 0 id id with berths := [] } = some [2, 0, 0, 0, 0, 0] ∧
      commandOf { commanded 2 0 id id with berths := [], domains := (grid 0 0 id).domains } = some [2, 0, 0, 1, 0, 0] ∧
      (commandOf (commanded 2 0 id id)).map (fun l => l.take 3) = some [2, 1, 0] ∧
      (commandOf (commanded 2 0 (fun b => { b with evict := true }) id)).map (fun l => l.take 3) = some [2, 1, 1] ∧
      (commandOf (commanded 9 0 id id)).map (fun l => l.take 1) = some [9] := by decide +kernel

theorem test_meets_SavesResumesAndCommands_discard :
    discards (commanded 3 0x100000 id (fun x => { x with saved := [savedChart 0] })) = some (false, true, false) ∧ discards (commanded 3 0x10600 id id) = some (false, false, false) ∧
      discards (commanded 3 0x10600 (fun b => { b with seq := .step, saveT := some 1, pool := [(0, 0x10600, 0x400)] }) id) = some (true, false, false) := by
  decide +kernel
end Sys2Proof.Tests
end

