-- ==== Sys2Proof/Tests/Witness9.lean ====
section
/-!
SUPPORT. Witnesses for the statements about errors, ports, power, management, the host and reset, and for the frames.
-/
namespace Sys2Proof.Tests

open Sys2Proof Sys2Proof.Machine Sys2Proof.Safety

set_option Elab.async false

/-! ### Errors, ports and power -/

/-- Die 0 with a log record of a kind, and no other. -/
def logged (kind : Nat) (lo : Word) : State :=
  setDie State.reset 0 { dieAt State.reset 0 with log := [{ kind := kind, fl := 0, count := 1, cycle := 0, place := 0, addr := 0, lo := lo, hi := 0 }] }

theorem test_meets_ViralStateAndLinkErrors :
    State.reset.viral = false ∧ { State.reset with viral := true }.viral = true ∧ (dieAt State.reset 0).log.length < 248 ∧ { State.reset with arg := .one 0 }.arg = .one 0 ∧
      { State.reset with arg := .flit 0 false (.lineData 0x200) }.arg = .flit 0 false (.lineData 0x200) ∧
      boundarySide 128 0 = false ∧ (List.range 9216).any (fun p => boundarySide p 1) = true ∧ homedHere State.reset 0x200 = true ∧ homedHere State.reset (2 ^ 38) = false ∧
      (metaOf (coherent .poisoned none) 0x200).st = .poisoned ∧
      (receiving true id { msg := message, pos := 128, arrived := false }).net[0]? = some { msg := message, pos := 128, arrived := false } ∧
      (slotAt (replying 3 false) 128 0).replies.length = 1 ∧ (tileAt State.reset 128).scratchP.wf = true ∧
      (let a : Access := { loadAt 0x10000 .issued with kind := .atom 3 0 false 0 false }
       accessOf (slotWith (fun t => { t with outs := [a] })) 128 0 0 = some a) ∧
      (dieAt (logged 8 (BitVec.ofNat 64 (3 + 5 * 2 ^ 8))) 0).log.map (fun r => (r.kind, r.lo)) = [(8, BitVec.ofNat 64 (3 + 5 * 2 ^ 8))] ∧
      (let s := tileWith (fun t => { t with synq := [{ kind := 1, slot := 0, part := some 0, cycle := 0, addr := 0, lo := 0 }] })
       (tileAt s 128).synq.length = 1 ∧ dieOf 128 = 0) := by decide +kernel

/-- Words that links lose: of a line, of its reply, of a collective and of a launch record in a queue. -/
theorem test_meets_ViralStateAndLinkErrors_words :
    (metaOf (coherent .broken none) 0x200).st = .broken ∧ (metaOf (coherent .I none) 0x200).st = .I ∧
      (tblGet? (dieAt (coherent .M (some .M)) 1).rdc 0x200).isSome = true ∧ (collective (descOf 3 2 1) none []).colls.map (fun m => (m.part, m.group, m.rank)) = [(0, 1, 0)] ∧
      (vget [] (partAt (launching launchRecord 1) 0).queues 0)[0]?.map (·.placed) = some none := by decide +kernel

/-- A die whose log is full. -/
theorem test_meets_ViralStateAndLinkErrors_full :
    248 ≤ (dieAt (setDie State.reset 0 { dieAt State.reset 0 with log := List.replicate 248 { kind := 1, fl := 0, count := 1, cycle := 0, place := 0, addr := 0, lo := 0, hi := 0 } }) 0).log.length := by
  decide +kernel

/-- Port 2 in a state, with package 3 beyond it, and perhaps a second port to it. -/
def ported (st : PortSt) (second : Bool) : State :=
  let p : Port := { Port.reset with st := .up, peerPkg := 3, known := true }
  let s := setPort State.reset 2 { p with st := st }
  if second then setPort s 4 p else s

/-- A die that has been idle for a number of cycles. -/
def idling (n : Nat) (gated : Bool) : State := setDie State.reset 0 { dieAt State.reset 0 with idle := n, gated := gated }

theorem test_meets_PortsPackagesAndPower :
    (portAt (ported .down false) 2).st = .down ∧ (portAt (ported .training false) 2).st = .training ∧ (portAt (ported .up false) 2).st = .up ∧
      (portAt (ported .notice false) 2).st = .notice ∧ reaches (setPort (ported .up true) 2 Port.reset) 3 = true ∧ reaches (setPort (ported .up false) 2 Port.reset) 3 = false ∧
      State.reset.pkg = 0 ∧ State.reset.lostPkgs = [] ∧ pkgOfLine (2 ^ 38) ≠ 0 ∧ (dieAt (idling 600000 false) 0).gated = false ∧ dieIdle (idling 600000 false) 0 = true ∧
      (dieAt (idling 599999 false) 0).idle < 600000 ∧ (dieAt (idling 0 true) 0).gated = true ∧ dieOf 128 = 0 ∧ dieOf 9471 ≠ 0 ∧
      (let x := tblGet Bank.reset (dieAt (setDie State.reset 0 { dieAt State.reset 0 with banks := [(5, { owed := 8, until_ := 0, queued := 0 })] }) 0).banks 5
       x.until_ ≤ State.reset.cycle.toNat ∧ x.owed = 8) ∧
      (let x := tblGet Bank.reset (dieAt (setDie State.reset 0 { dieAt State.reset 0 with banks := [(5, { owed := 0, until_ := 9, queued := 4 })] }) 0).banks 5
       State.reset.cycle.toNat < x.until_) ∧
      (Bank.reset.until_ ≤ State.reset.cycle.toNat ∧ Bank.reset.queued = 0 ∧ Bank.reset.awaited State.reset = false ∧
         { Bank.reset with waiting := [(32, 0)] }.awaited State.reset = true ∧ { Bank.reset with queued := 3 }.queued < 4) ∧
      (portAt (ported .training false) 2).known = true ∧ reaches (setPort (ported .training false) 2 { Port.reset with st := .up, peerPkg := 4, known := true }) 3 = false ∧
      reaches (ported .training false) 3 = true ∧ { ported .training false with viral := true }.viral = true := by decide +kernel

/-! ### Management -/

/-- The package with a management command as its next. -/
def managed (c : MgmtCmd) (f : State → State) : State := { f State.reset with arg := .mgmt c }

/-- A command. -/
def command (op : Nat) (part : Nat) (q : List Word) : MgmtCmd := { op := BitVec.ofNat 16 op, seq := 1, part := BitVec.ofNat 8 part, q := q }

/-- Partition 1 exists and owns key slot 5; slot 6 belongs to partition 2, which also exists. -/
def owning (s : State) : State :=
  { s with
    parts := [(1, { Part.reset with st := .created, groups := 1, tkey := 5, errKey := 5 }), (2, { Part.reset with st := .created, groups := 0 })]
    keys := [(5, { KeySlot.reset with owner := some 1, inst0 := some (1, 2) }), (6, { KeySlot.reset with owner := some 2, inst0 := some (1, 2), inst1 := some (3, 4), users := [1] })]
    ports := vset s.ports 2 { Port.reset with st := .up, peerPkg := 3, known := true } }

/-- A command is ready, and the statuses with which its rule refuses it. -/
def refusals (i : Instr) (c : MgmtCmd) (f : State → State) : Option (Bool × List Nat) :=
  let s := managed c f
  (mgmtRule i s c).map (fun r => (mgmtReady s c (i == .attestReport || i == .attestIdentity), (r.1.filter (·.1)).map (·.2)))

/-- Partition 2 owns key slot 6, which it shares with no one. -/
def unshared (s : State) : State := { owning s with keys := [(6, { KeySlot.reset with owner := some 2 })] }

/-- A map in which no partition owns a group. -/
def noOwner : List Word := [0, 0xFFFFFFFFFFFFFFFF, 0xFFFFFFFFFFFFFFFF, 0xFFFFFFFFFFFFFFFF, 0xFFFFFFFFFFFFFFFF]

/-- Every command of the table has a case that nothing refuses, and most have one that something does. -/
theorem test_meets_ManagementCommands_accepted :
    (∀ x ∈ [(Instr.keyInstall, command 1 1 [7]), (.keyDrop, command 2 1 [256 + 6]), (.keySeal, command 3 1 [5]), (.keyShareRevoke, command 0x0D 1 [256 + 6]),
        (.partDestroy, command 6 1 []), (.routeSet, command 8 1 [0xFFFFFF0203]), (.blockInit, command 0xB 1 [0x10000, 1, 5]),
        (.attestIdentity, command 0xC 1 [0, 0, 0, 0, 1]), (.attestReport, command 0xC 1 [0, 0, 0, 0, 0])], refusals x.1 x.2 owning = some (true, [])) ∧
      (let c := command 0xB 1 [0x10000, 1, 5]
       mgmtRuns .blockInit (managed c owning) c = true) ∧
      refusals .keyShareGrant (command 0x0D 1 [6]) unshared = some (true, []) ∧ refusals .partCreate (command 4 3 [1, 1, 0, 9, 0, 9]) id = some (true, []) ∧
      refusals .modeSet (command 7 0 noOwner) id = some (true, []) ∧ refusals .groupDrop (command 0xA 0 [1]) (fun _ => grouped false []) = some (true, []) := by decide +kernel

theorem test_meets_ManagementCommands_refused :
    (∀ x ∈ [(Instr.keyInstall, command 1 1 [6], [3, 2]), (.keyDrop, command 2 1 [9], [4]), (.keySeal, command 3 1 [9], [4]), (.keyShareGrant, command 0x0D 1 [6], [3]),
        (.keyShareRevoke, command 0x0D 1 [256 + 5], [4, 2]), (.partCreate, command 4 1 [1, 1, 0, 9, 0, 9], [3, 2]), (.partDestroy, command 6 9 [], [4]),
        (.modeSet, command 7 0 [6], [2, 2, 2]), (.routeSet, command 8 1 [0xFFFFFF0403], [2]), (.groupDrop, command 0xA 1 [1], [4]),
        (.blockInit, command 0xB 1 [1, 1, 5], [2]), (.mgmtUnknownOp, command 0xE 0 [], [2])], refusals x.1 x.2.1 owning = some (true, x.2.2)) := by decide +kernel

/-- BLOCK_INIT of the block at 0x10000, where a saved chart's bank has its record, whose leaf is given; the walker's budget is spent or not. -/
def initialising (leaf : Nat) (budget : Bool) : State :=
  let s := bankSaved (scheduled [] id (fun x => { x with budget := if budget then [] else [(budgetKey 2 0, { limit := 1, left := 0 })] }))
  { setDie s 0 { dieAt s 0 with l2 := tblSet (dieAt s 0).l2 0x80 { data := BitVec.ofNat 1024 leaf, dirty := false, poison := false } } with
    arg := .mgmt (command 0xB 0 [0x10000, 1, 3]) }

/-- BLOCK_INIT is ready and refused by nothing; how the copies of the banks end. -/
def copies (s : State) : Option (List Nat) :=
  let c := command 0xB 0 [0x10000, 1, 3]
  (mgmtRule .blockInit s c).map (fun r =>
    [(mgmtReady s c false).toNat, (r.1.filter (·.1)).length,
      match copyBanks (fun x _ => decide (0x10000 / 2 ^ 16 ≤ x / 2 ^ 16 ∧ x / 2 ^ 16 ≤ (0x10000 + 2048 * 1 - 1) / 2 ^ 16)) (heldBanks s (fun _ => true)).length s with
      | .ok .. => 0
      | .wait _ => 1
      | .held .. => 2
      | .bad .. => 3])

/-- Only the page of 64 KiB at 0x10000 is mapped: a store of the bank into its record, which begins there, is withheld. -/
def halfMapped (s : State) : State :=
  setDie s 0 { dieAt s 0 with
    sc := tblSet (tblSet (dieAt s 0).sc 12 (opened 3)) 16 (opened 3)
    l2 := [(0x80, 0x6001), (0xC0, 0x8001), (0x100, 0x1031F * 2 ^ 64)].foldl
      (fun l e => tblSet l e.1 { data := BitVec.ofNat 1024 e.2, dirty := false, poison := false }) (dieAt s 0).l2 }

theorem test_meets_ManagementCommands_copies : copies (initialising goodLeaf false) = some [1, 0, 1] ∧ copies (halfMapped (initialising goodLeaf true)) = some [1, 0, 2] := by decide +kernel

/-- A transaction on a line of block 32 holds back a BLOCK_INIT of it, a drop of its key, and the reading of a group's entry. -/
theorem test_meets_ManagementCommands_turns :
    (let s := lineBusy
     (blocksBegun s (command 0xB 0 [0x10000, 1, 3])).map (·.2) = some false ∧ (keyBlocksBack .keyDrop s (command 2 0 [3])).2 = false ∧
       (bytesTurn s 0x10000 64 3).isSome = true) ∧
      (bytesTurn (blockUser goodLeaf) 0x10000 64 3).isNone = true ∧ (bytesTurn lineBusy 0x10040 64 3).isSome = true := by decide +kernel

theorem test_meets_ManagementCommands_waits :
    (let s := managed { command 1 1 [7] with seq := 5 } owning
     s.ctl.boot = 3 ∧ s.mgmt.seq = 0 ∧ cmdWaits s 4 = false) ∧
      (let s := managed (command 1 1 [7]) (fun s => { owning s with ctl := { s.ctl with ck := 1 } })
       s.ctl.ck = 1 ∧ s.mgmt.seq = s.mgmt.mstatSeq) ∧
      (let s := managed (command 1 1 [7]) (fun s => { owning s with viral := true })
       s.viral = true ∧ s.ctl.ck = 0) ∧
      mgmtReady (managed (command 5 1 []) owning) (command 5 1 []) false = true ∧ mgmtReady (managed (command 9 1 []) owning) (command 9 1 []) false = true := by decide +kernel

/-- A command of partition 0 over memory, whose table and group entry stand in block 32; its partition waits for PART_START. -/
def booting (op : Nat) (q : List Word) (st : PartSt) (entry : Nat) : State :=
  let s := withLines (scheduled [] id (fun x => { x with st := st, tkey := 3, errKey := 3, grps := [] })) 4 entry
  { s with berths := [], arg := .mgmt (command op 0 q) }

/-- PART_START: its partition, its keys, whether its boot record may stand there, and how the reading and queueing of it end. -/
def starts (s : State) (va : Nat) : List Nat :=
  let w := schedWho s 0 (schedPos s 0) 0 false .hw
  [((partAt s 0).st == .running).toNat, ((partAt s 0).st == .created).toNat, (sealing s 3).toNat,
    (decide (va % 64 = 0 ∧ isGlobal (BitVec.ofNat 64 va) = true ∧ va % 2 ^ 56 + 384 ≤ Config.localBase)).toNat,
    match seqBytes w.1 w.2 va 384 with
    | .ok s1 r => if (queueBoot (forget s1 .hw) 0 r).isSome then 1 else 2
    | .bad .. => 3
    | .wait _ => 4
    | .held .. => 5]

/-- The same, where the boot record's leaf is given and the walker's budget is spent or not. -/
def readLater (leaf : Nat) (budget : Bool) : State :=
  let s := booting 5 [0x10000] .created launchRecord
  let s1 := setDie s 0 { dieAt s 0 with l2 := tblSet (dieAt s 0).l2 0x80 { data := BitVec.ofNat 1024 leaf, dirty := false, poison := false } }
  if budget then s1 else spent s1

theorem test_meets_ManagementCommands_start :
    starts (booting 5 [0x10000] .created launchRecord) 0x10000 = [0, 1, 1, 1, 1] ∧ starts (booting 5 [0x10000] .created 0) 0x10000 = [0, 1, 1, 1, 2] ∧
      starts (readLater 0x30F true) 0x10000 = [0, 1, 1, 1, 3] ∧ starts (readLater goodLeaf false) 0x10000 = [0, 1, 1, 1, 4] ∧
      starts (readLater 0 true) 0x10000 = [0, 1, 1, 1, 5] ∧
      (starts (booting 5 [0x10000] .running launchRecord) 0x10000).take 1 = [1] ∧
      (starts (booting 5 [0x10020] .created launchRecord) 0x10020).take 4 = [0, 1, 1, 0] ∧
      (starts { booting 5 [0x10000] .created launchRecord with keys := [] } 0x10000).take 3 = [0, 1, 0] ∧ (partAt State.reset 0).st = .none := by decide +kernel

/-- An entry of group 1 with two members of this package. -/
def groupEntry : Nat :=
  let b := fun (off v : Nat) => v * 2 ^ (8 * off)
  b 0 1 + b 2 2 + b 4 7 + b 0x40 0x10 + b 0x48 0xFFFF + b 0x4B 0xFF + b 0x50 0x20 + b 0x5B 0xFF

/-- GROUP_FORM: its entry is read, fits, and every rank is as the table asks. -/
def forms (s : State) : Option (List Bool) :=
  (hwBytes 2 s 0x10000 64 3 []).bind (fun a => (hwBytes 140 a.1 0x10040 (16 * le a.2 2 2) 3 a.2).map (fun b =>
    let n := le a.2 2 2
    let ms := (List.range n).map (memberOf b.2)
    [(partAt s 0).st != .none, groupBusy s 0 1, decide (2 ≤ n ∧ n ≤ 1024), le b.2 0 1 == 1, (epochOf (partAt s 0) 1).isNone,
      (List.range n).all (fun r => memberOk s ms r (memberOf b.2 r))]))

theorem test_meets_ManagementCommands_groups :
    forms (booting 9 [1, 0x10000] .running groupEntry) = some [true, false, true, true, true, true] ∧
      (let s := grouped false []
       groupBusy { s with colls := [second (descOf 3 2 1)] } 0 1 = true ∧ (pendingGroup s 0 1).isNone = true ∧
         (pendingGroup (setPart s 0 { partAt s 0 with grps := (partAt s 0).grps.map (fun g => (g.1, { g.2 with formed := false })) }) 0 1).isSome = true ∧
         s.cycle.toNat < 0 + Config.groupFormLimit ∧ 0 + Config.groupFormLimit ≤ { s with cycle := 0xFFFFFFFFFFFFFFFF }.cycle.toNat) := by decide +kernel

/-! ### The host -/

/-- Virtual function 0 of a paged partition, with an aperture over 0x10000. -/
def hosted (leaf : Nat) (f : State → State) : State :=
  let s := scheduled [] id (fun x => { x with nvf := 1 })
  let s1 := setDie s 0 { dieAt s 0 with l2 := tblSet (dieAt s 0).l2 0x80 { data := BitVec.ofNat 1024 leaf, dirty := false, poison := false } }
  f (setVf s1 0 { Vf.reset with apbase := 0x10000, watch := vset Vf.reset.watch 0 0x10000 })

/-- An access of 8 bytes by the host. -/
def hostAccess (write : Bool) (off size : Nat) : HostAccess := { write := write, off := off, size := size, data := List.replicate size 5 }

/-- How an access through the virtual aperture ends, by name. -/
def aperture (s : State) (h : HostAccess) : List Nat :=
  let va := (vfAt s 0).apbase.toNat + h.off
  let w := schedWho s 0 (schedPos s 0) 0 false (.host 0)
  [s.viral.toNat, (vfEnabled s 0).toNat, (hostShape h (2 ^ 20)).toNat, (isGlobal (BitVec.ofNat 64 va)).toNat,
    ansName (memAccess w.1 w.2 va h.size (if h.write then .store else .load) (hostUpd h))]

theorem test_meets_HostAccesses_virtual :
    aperture (hosted goodLeaf id) (hostAccess false 0 8) = [0, 1, 1, 1, 0] ∧ aperture (hosted goodLeaf id) (hostAccess true 8 8) = [0, 1, 1, 1, 0] ∧
      aperture (hosted 0 id) (hostAccess false 0 8) = [0, 1, 1, 1, 2] ∧ aperture (hosted 0x30F id) (hostAccess true 0 8) = [0, 1, 1, 1, 4] ∧
      aperture (hosted goodLeaf spent) (hostAccess true 0 8) = [0, 1, 1, 1, 1] ∧
      (aperture (hosted goodLeaf id) (hostAccess false 1 8)).take 3 = [0, 1, 0] ∧
      (aperture (hosted goodLeaf (fun s => setVf s 0 { vfAt s 0 with apbase := BitVec.ofNat 64 Config.localBase })) (hostAccess false 0 8)).take 4 = [0, 1, 1, 0] ∧
      (aperture (hosted goodLeaf (fun s => { s with parts := [] })) (hostAccess false 0 8)).take 2 = [0, 0] := by decide +kernel

/-- How an access through the physical aperture ends, with a PAW. -/
def physical (s : State) (h : HostAccess) : List Nat :=
  let pa := s.mgmt.paw.toNat / 2 ^ 16 % 2 ^ 36 * 2 ^ 16 + h.off
  [(s.ctl.boot == 3).toNat, (s.mgmt.paw.getLsbD 0).toNat, (hostShape h (2 ^ 16)).toNat, (populated s none pa).toNat,
    ansName (physAccess s (paptWho s) pa h.size (s.mgmt.paw.toNat / 2 ^ 8 % 2 ^ 7) (if h.write then .store else .load) (hostUpd h))]

/-- PAW is set. -/
def windowed (paw : Word) : State := hosted goodLeaf (fun s => { s with mgmt := { s.mgmt with paw := paw } })

/-- A transaction runs on the line at 0x10000. -/
def busyLine (s : State) : State :=
  setDie s 0 { dieAt s 0 with trans := [(0x200, { req := { line := 0x200, kind := .read, pkg := 0, die := 2 }, awaiting := [1], answer := none })] }

theorem test_meets_HostAccesses_physical :
    physical (busyLine (windowed 0x10301)) (hostAccess true 0 8) = [1, 1, 1, 1, 1] ∧
    physical (windowed 0x10301) (hostAccess false 0 8) = [1, 1, 1, 1, 0] ∧ physical (windowed 0x10401) (hostAccess true 0 8) = [1, 1, 1, 1, 4] ∧
      (physical (windowed 0x10300) (hostAccess false 0 8)).take 2 = [1, 0] ∧ (physical (windowed 0xFFFFFFFF0301) (hostAccess false 0 8)).take 4 = [1, 1, 1, 0] := by decide +kernel

/-- How the read of a launch record by the window ends. -/
def windowRead (s : State) (va : Nat) : Nat :=
  let w := schedWho s 0 (schedPos s 0) 0 false (.host 0)
  match seqBytes w.1 w.2 va 384 with
  | .ok .. => 0
  | .wait _ => 1
  | .held s1 a m r => if (withhold (forget s1 w.2.ag) w.2 a m r none).2.retry then 3 else 2
  | .bad .. => 4

/-- The replay queue of the partition's quay is full. -/
def replayFull (s : State) : State := setQuay s (transQuay (schedPos s 0)) { quayAt s (transQuay (schedPos s 0)) with replay := List.replicate 64 (.inline 128 0) }

theorem test_meets_HostAccesses_window :
    vfEnabled (hosted goodLeaf id) 0 = true ∧ vfEnabled (hosted goodLeaf id) 1 = false ∧ windowRead (hosted goodLeaf id) 0x10000 = 0 ∧ windowRead (hosted 0 id) 0x10000 = 2 ∧
      windowRead (hosted 0x30F id) 0x10000 = 4 ∧ windowRead (hosted goodLeaf spent) 0x10000 = 1 ∧ windowRead (hosted 0 replayFull) 0x10000 = 3 ∧
      (watched (hosted goodLeaf id) 0 1).2 = some 0x1122 ∧ (watched (hosted goodLeaf id) 0 2).2 = none ∧
      (vget none (vfAt (hosted goodLeaf id) 0).seen 0).isNone = true := by decide +kernel

/-- A transaction runs on the line of the scheduler block. -/
def busyBlock (s : State) : State :=
  setDie s 0 { dieAt s 0 with trans := [(0x208, { req := { line := 0x208, kind := .read, pkg := 0, die := 2 }, awaiting := [1], answer := none })] }

/-- The block may be read at once or not, and a watch finds its generation changed, with its vector masked or not. -/
theorem test_meets_HostAccesses_turns :
    (sblkTurn (hosted goodLeaf id) 0 false).isNone = true ∧ (sblkTurn (busyBlock (hosted goodLeaf id)) 0 false).isSome = true ∧
      (let x := vfAt (hosted goodLeaf id) 0
       let s := setVf (hosted goodLeaf id) 0 { x with seen := vset x.seen 0 (some 5) }
       let m := setVf s 0 { vfAt s 0 with msix := x.msix.map (fun e => { e with ctrl := 0 }) }
       (watched s 0 1).2 = some 0x1122 ∧ vget none (vfAt s 0).seen 0 = some 5 ∧ (vget MsixEnt.reset (vfAt s 0).msix 1).ctrl.getLsbD 0 = true ∧
         (vget MsixEnt.reset (vfAt m 0).msix 1).ctrl.getLsbD 0 = false) := by decide +kernel

/-- Accesses to the registers of a function and of the package, whole words of them and parts. -/
theorem test_meets_HostAccesses_regions :
    [hostAccess false 0 8, hostAccess true 0x010 8, hostAccess true 0x028 8, hostAccess true 0x000 8, hostAccess false 0x012 2, hostAccess true 0x80000 8, hostAccess true 0x80038 8].all
        (fun h => hostShape h 0x82000) = true ∧
      hostShape (hostAccess true 0x82000 8) 0x82000 = false ∧ hostShape (hostAccess true 1 8) 0x82000 = false ∧
      (let s := setVf (hosted goodLeaf id) 0 { vfAt (hosted goodLeaf id) 0 with pending := 2 }
       (vfAt s 0).pending.getLsbD 1 = true ∧ (vfAt s 0).pending.getLsbD 0 = false) ∧
      [hostAccess false 0x110 8, hostAccess true 0x110 8, hostAccess true 0x200 8, hostAccess true 0x238 8].all (fun h => hostShape h 0x10000) = true ∧
      hostShape (hostAccess true 0x10000 8) 0x10000 = false ∧ (hostAccess true 0x110 8).data.length = 8 ∧ State.reset.ctl.boot = 3 ∧
      vfEnabled (hosted goodLeaf id) 0 = true ∧ (hosted goodLeaf id).viral = false := by decide +kernel

/-! ### Reset and checkpoints -/

/-- A package at a phase of its reset, with a checkpoint number. -/
def atBoot (boot ck : Nat) (image : Bool) (f : State → State) : State :=
  let s := f State.reset
  { s with ctl := { s.ctl with boot := BitVec.ofNat 4 boot, ck := BitVec.ofNat 4 ck }, image := if image then some (imageOf s) else none }

theorem test_meets_ResetsAndCheckpoints :
    [0, 1, 2, 3].map (fun b => (atBoot b 0 false id).ctl.boot) = [0, 1, 2, 3] ∧ State.reset.ctl.minVersion ≤ 5 ∧
      anyRunning State.reset = false ∧ anyRunning (inChart id id berth0) = true ∧ State.reset.ctl.cklist.toNat % 4096 = 0 ∧ imageLen ≤ imageLen ∧
      (atBoot 3 1 false id).ctl.ck = 1 ∧ (atBoot 3 0 false id).ctl.ck = 0 ∧ State.reset.ctl.fresh = true ∧ (atBoot 3 0 false id).image.isNone = true ∧
      (atBoot 3 2 true id).image.isSome = true ∧ ((atBoot 3 0 true id).image.map (fun x => x.ckn)) = some (atBoot 3 0 true id).ctl.ckn ∧
      (partAt (inChart id id berth0) 0).st = .running := by decide +kernel

/-- A write of PCTL by the host that resets, clears the logs, or starts a checkpoint. -/
theorem test_meets_ResetsAndCheckpoints_control :
    (let h : HostAccess := { write := true, off := 0, size := 8, data := [14, 0, 0, 0, 0, 0, 0, 0] }
     let v : Word := BitVec.ofNat 64 (ofBytesLE h.data)
     h.data.length = 8 ∧ v.getLsbD 0 = false ∧ v.getLsbD 1 = true ∧ v.getLsbD 2 = true ∧ v.getLsbD 3 = true) ∧
      (let l : CkList := { entries := [(0x1000, imageLen)] }
       l.wellFormed = true ∧ imageLen ≤ l.total) ∧
      (let f := State.reset.ctl.flash[0]
       f.signed = true ∧ State.reset.ctl.minVersion ≤ f.version) ∧ { State.reset.ctl.flash[0] with signed := false }.signed = false := by decide +kernel

/-- An image of the package is sound, and one of another version is not; a save and a restore that the control region names. -/
theorem test_meets_ResetsAndCheckpoints_images :
    imageSound (imageOf State.reset) = true ∧ imageSound { imageOf State.reset with ver := 2 } = false ∧ State.reset.ctl.ckdir = false ∧
      (hostAccess true 0 8).data.length = 8 ∧ (State.reset.ctl.flash[0]).signed = true := by
  have htag : imageTag (imageOf State.reset) = imageTag (bareImage State.reset) := by simp only [imageTag, imageHead, imageOf]
  have hfalse : imageSound { imageOf State.reset with ver := 2 } = false := by simp [imageSound]
  refine ⟨?_, hfalse, by decide +kernel, by decide +kernel, by decide +kernel⟩
  rw [imageSound, htag]
  simp [imageOf, bareImage]

/-! ### Frames and invariants -/

/-- The instruction answers a next state. -/
def goes (i : Instr) (s : State) : Bool := match exec i s with | .next _ => true | _ => false

theorem test_meets_FramesOfSlotInstructions :
    (∀ i ∈ [Instr.add 0 3 4 5, .jalr 0 28 4, .br 0 16, .cmp 0 1 4 5 1, .vaddI32 0 3 4 5 0, .vmov 0 3 4 0], onRegisters i = true ∧ goes i (regs 7 2) = true) ∧
      (∀ i ∈ [Instr.ld 0 3 4 0 0 3 0 0, .st 0 5 4 0 0 3 0, .atom 0 3 4 0 0 3 0], issuesAccess i = true ∧ goes i (regs (own 64) 2) = true) ∧
      (∀ i ∈ [Instr.rzero 0 1, .rmov 0 1 0, .radd 0 2 0 1, .rstg 0 4 1, .rfwd 0 0 4 5 0 0 1], onAccumulators i = true ∧ goes i (residues 0 3 8 8 id) = true) := by
  decide +kernel

theorem test_meets_UserViewIsConfined :
    (me (regs 1 2)).sstatus.getLsbD 0 = false ∧
      ∀ i ∈ [Instr.add 0 3 4 5, .trap 0 4 3, .eret 0, .csrrw 0 3 4 0, .csrrs 0 3 4 1], i.isCore = true ∧ goes i (regs 1 2) = true := by decide +kernel

theorem test_meets_MemoriesStayCanonical :
    tidy (State.reset.withFetchWord 32 0x080C8020) = true ∧ (match step (State.reset.withFetchWord 32 0x080C8020) with | .next _ => true | _ => false) = true := by decide +kernel

theorem test_meets_ResetState : { State.reset with ctl := { State.reset.ctl with boot := 4 } }.agenda = [] := by decide +kernel
end Sys2Proof.Tests
end

section
/-!
PROOFS of O2: the word of a well-formed core instruction or switch word decodes to it (00 R4; 08 R170, R171; 13 R290).

A word of the encoding tables is a constant plus one field after the other, each field in a place of its own. So a word is read by taking its last field
away: from a slice below or above the field's place the field drops out, and in its own place it stands alone, since nothing carries into it. These laws
come first; the decoder's tables are then gone through in blocks of major opcodes (08 Table 8-6).
-/
namespace Sys2Proof

/-! ### Little-endian bytes -/

@[simp] theorem length_leBytes (n v : Nat) : (leBytes n v).length = n := by
  induction n generalizing v with
  | zero => rfl
  | succ n ih => simp [leBytes, ih]

theorem leNat_leBytes (n v : Nat) : leNat (leBytes n v) = v % 256 ^ n := by
  induction n generalizing v with
  | zero => simp [leBytes, leNat, Nat.mod_one]
  | succ n ih => simp [leBytes, leNat, ih, Nat.pow_succ', Nat.mod_mul]

theorem decodeBytes_leBytes_four {w : Nat} (hw : w < 2 ^ 32) : decodeBytes (leBytes 4 w) = decodeCore w := by
  rw [decodeBytes, if_pos (length_leBytes 4 w), leNat_leBytes, Nat.mod_eq_of_lt (by omega)]

theorem decodeBytes_leBytes_two {w : Nat} (hw : w < 2 ^ 16) : decodeBytes (leBytes 2 w) = decodeSwitch w := by
  rw [decodeBytes, if_neg (by simp), if_pos (length_leBytes 2 w), leNat_leBytes, Nat.mod_eq_of_lt (by omega)]

/-! ### Reading a word that ends in a field

`x + v * m` is a word `x` with the field `v` added in the place that begins at bit `log2 m`; the place is free when `x % (m * 2 ^ n) < m`. -/

section
variable {n x m P : Nat} (v : BitVec n)

/-- A field in a free place does not carry into the places above it. -/
theorem mod_add_field_lt (hP : P % (m * 2 ^ n) = 0) (hx : x % (m * 2 ^ n) < m) (h0 : P ≠ 0) : x % P + v.toNat * m < P := by
  obtain ⟨q, rfl⟩ := Nat.dvd_of_mod_eq_zero hP
  have hrest : x / (m * 2 ^ n) % q + 1 ≤ q := Nat.mod_lt _ (Nat.pos_of_ne_zero (Nat.mul_ne_zero_iff.mp h0).2)
  have hfield : m + v.toNat * m ≤ m * 2 ^ n := by
    rw [Nat.add_comm, ← Nat.succ_mul, Nat.mul_comm]
    exact Nat.mul_le_mul_left m v.isLt
  calc x % (m * 2 ^ n * q) + v.toNat * m
      = x % (m * 2 ^ n) + v.toNat * m + m * 2 ^ n * (x / (m * 2 ^ n) % q) := by rw [Nat.mod_mul]; omega
    _ < m * 2 ^ n * (x / (m * 2 ^ n) % q + 1) := by rw [Nat.mul_succ]; omega
    _ ≤ m * 2 ^ n * q := Nat.mul_le_mul_left _ hrest

/-- Of the quotient and the remainder at a place above the field, only the remainder holds the field. -/
theorem add_field_div_mod_of_below (hP : P % (m * 2 ^ n) = 0) (hx : x % (m * 2 ^ n) < m) :
    (x + v.toNat * m) / P = x / P ∧ (x + v.toNat * m) % P = x % P + v.toNat * m := by
  rcases Nat.eq_zero_or_pos P with rfl | h0
  · simp
  have hsplit : x % P + v.toNat * m + P * (x / P) = x + v.toNat * m := by
    rw [Nat.add_right_comm, Nat.mod_add_div]
  exact (Nat.div_mod_unique h0).mpr ⟨hsplit, mod_add_field_lt v hP hx (Nat.ne_of_gt h0)⟩

theorem add_field_div_of_above (hm : m % P = 0) : (x + v.toNat * m) / P = x / P + v.toNat * (m / P) := by
  obtain ⟨q, rfl⟩ := Nat.dvd_of_mod_eq_zero hm
  rcases Nat.eq_zero_or_pos P with rfl | h0
  · simp
  rw [Nat.mul_left_comm, Nat.add_mul_div_left _ _ h0, Nat.mul_div_cancel_left _ h0]

theorem add_field_mod_of_above (hm : m % P = 0) : (x + v.toNat * m) % P = x % P := by
  rw [Nat.add_mod, Nat.mul_mod, hm, Nat.mul_zero, Nat.zero_mod, Nat.add_zero, Nat.mod_mod]

/-- The laws that read a word: of a field below, within or above a slice, of a field at bit 0, and of a field that stands alone. -/
theorem word_reading :
    (∀ {n x m P : Nat} (v : BitVec n), P % (m * 2 ^ n) = 0 → x % (m * 2 ^ n) < m → (x + v.toNat * m) / P = x / P) ∧
    (∀ {n x m P : Nat} (v : BitVec n), P % (m * 2 ^ n) = 0 → x % (m * 2 ^ n) < m → (x + v.toNat * m) % P = x % P + v.toNat * m) ∧
    (∀ {n x m P : Nat} (v : BitVec n), m % P = 0 → (x + v.toNat * m) / P = x / P + v.toNat * (m / P)) ∧
    (∀ {n x m P : Nat} (v : BitVec n), m % P = 0 → (x + v.toNat * m) % P = x % P) ∧
    (∀ {n x P : Nat} (v : BitVec n), P % 2 ^ n = 0 → x % 2 ^ n = 0 → (x + v.toNat) / P = x / P) ∧
    (∀ {n x P : Nat} (v : BitVec n), P % 2 ^ n = 0 → x % 2 ^ n = 0 → (x + v.toNat) % P = x % P + v.toNat) ∧
    (∀ {n : Nat} (v : BitVec n), BitVec.ofNat n v.toNat = v) := by
  refine ⟨fun v hP hx => (add_field_div_mod_of_below v hP hx).1, fun v hP hx => (add_field_div_mod_of_below v hP hx).2, add_field_div_of_above,
    add_field_mod_of_above, fun v hP hx => ?_, fun v hP hx => ?_, fun v => by simp⟩
  · simpa using (add_field_div_mod_of_below (m := 1) v (by simpa using hP) (by simpa using hx)).1
  · simpa using (add_field_div_mod_of_below (m := 1) v (by simpa using hP) (by simpa using hx)).2

end

/-! ### Bounds -/

theorem isSwitch_eq_false_of_isCore {i : Instr} (hc : i.isCore = true) : i.isSwitch = false := by
  have hdisjoint : (i.isCore && i.isSwitch) = false := by cases i <;> rfl
  rwa [hc, Bool.true_and] at hdisjoint

theorem encode_lt_of_isCore {i : Instr} (hc : i.isCore = true) : encode i < 2 ^ 32 := by
  cases i
  all_goals try contradiction
  all_goals change _ + _ < _
  all_goals omega

theorem encode_lt_of_isSwitch {i : Instr} (hs : i.isSwitch = true) : encode i < 2 ^ 16 := by
  cases i
  all_goals try contradiction
  case iend => decide
  all_goals change _ + _ < _
  all_goals omega

/-! ### Assigned types and relations -/

theorem accept_of_wf {i : Instr} (hw : i.wf = true) : accept true i = .ok i := by rw [accept, hw, Bool.and_self, if_pos rfl]

/-- The decoder compares a field as a number, well-formedness as a bit vector. -/
theorem toNat_bne {n : Nat} (v c : BitVec n) : (v.toNat != c.toNat) = (v != c) := by
  rw [Bool.eq_iff_iff, bne_iff_ne, bne_iff_ne, BitVec.toNat_ne_iff_ne]

/-- The three floating-point types: type code 3 is unassigned. -/
theorem floatType_cases {t : BitVec 2} (ht : (t != 3) = true) : t = 0 ∨ t = 1 ∨ t = 2 := by
  revert t
  decide

/-- The relations that VCMP has for a type (10 R224). -/
theorem vcmp_assigned (t : BitVec 2) (r : BitVec 3) :
    (t.toNat != 3 && r.toNat != 7 && !(r.toNat == 6 && t.toNat != 2)) = (t != 3 && r != 7 && !(r == 6 && t != 2)) := by
  revert t r
  decide

/-! ### Core words, by blocks of major opcodes

In each block: the other rows have no major opcode in it; the word of a row in it is a sum, which `change` exposes; reading that sum slice by slice leads
through the decoder's tables to the row itself. What is left are the rows whose function code is only partly constant. -/

/-- The major opcode of a core instruction lies in a block of Table 8-6; no other row lies in a block that begins above 0. -/
def Instr.inBlock (lo hi : Nat) (i : Instr) : Bool := decide (lo ≤ Machine.majorOf i) && decide (Machine.majorOf i ≤ hi)

/-- Scalar and control instructions (09). -/
theorem decodeCore_encode_of_scalar {i : Instr} (hi : i.inBlock 0x01 0x0F = true) (hw : i.wf = true) : decodeCore (encode i) = .ok i := by
  cases i
  all_goals try contradiction
  all_goals change decodeCore (_ + _) = _
  all_goals simp only [decodeCore, decodeOp01, decodeOp02, decodeOp03, decodeOp04, decodeOp05, decodeOp06, decodeOp07, decodeOp08, decodeOp09, decodeOp0A,
    decodeOp0B, decodeOp0C, decodeOp0D, decodeOp0E, decodeOp0F, field, bits, word_reading, Nat.reducePow, Nat.reduceMul, Nat.reduceMod, Nat.reduceDiv,
    Nat.reduceLT, Nat.div_one, Nat.zero_add, Nat.mul_one, beq_self_eq_true, accept_of_wf hw]
  -- the relation must be assigned
  case cmp r => exact if_pos ((toNat_bne r 7).trans (Bool.and_eq_true_iff.mp hw).2)

/-- Vector integer and floating-point arithmetic, and compares (10). -/
theorem decodeCore_encode_of_vectorArithmetic {i : Instr} (hi : i.inBlock 0x10 0x13 = true) (hw : i.wf = true) : decodeCore (encode i) = .ok i := by
  cases i
  all_goals try contradiction
  all_goals change decodeCore (_ + _) = _
  all_goals simp only [decodeCore, decodeOp10, decodeOp11, decodeOp12, decodeOp13, field, bits, word_reading, Nat.reducePow, Nat.reduceMul, Nat.reduceMod,
    Nat.reduceDiv, Nat.reduceLT, Nat.div_one, Nat.zero_add, Nat.mul_one, beq_self_eq_true, accept_of_wf hw]
  -- a type or a relation must be assigned
  case vaddF t | vsubF t | vmulF t | vminF t | vmaxF t | vdiv t | vsqrt t => exact if_pos ((toNat_bne t 3).trans hw)
  case vcmp t r => exact if_pos ((vcmp_assigned t r).trans (Bool.and_eq_true_iff.mp hw).2)
  -- the type stands within the function code
  case vfma t | vfnma t => rcases floatType_cases hw with rfl | rfl | rfl <;> rfl

/-- Conversions, table instructions, block exponents and reductions (10). -/
theorem decodeCore_encode_of_vectorConversion {i : Instr} (hi : i.inBlock 0x14 0x17 = true) (hw : i.wf = true) : decodeCore (encode i) = .ok i := by
  cases i
  all_goals try contradiction
  all_goals change decodeCore (_ + _) = _
  all_goals simp only [decodeCore, decodeOp14, decodeOp15, decodeOp16, decodeOp17, field, bits, word_reading, Nat.reducePow, Nat.reduceMul, Nat.reduceMod,
    Nat.reduceDiv, Nat.reduceLT, Nat.div_one, Nat.zero_add, Nat.mul_one, beq_self_eq_true, Bool.and_self, accept_of_wf hw]
  -- the half, and the type of a reduction, stand within the function code
  case vcvtF16F32 h | vcvtBf16F32 h | vcvtF32F16 h | vcvtF32Bf16 h | vupk4 h | vpk4 h => rcases BitVec.eq_zero_or_eq_one h with rfl | rfl <;> rfl
  case vsumF t | vrminF t | vrmaxF t => rcases floatType_cases hw with rfl | rfl | rfl <;> rfl

/-- Permutes, moves and masks (10). -/
theorem decodeCore_encode_of_vectorMove {i : Instr} (hi : i.inBlock 0x18 0x1A = true) (hw : i.wf = true) : decodeCore (encode i) = .ok i := by
  cases i
  all_goals try contradiction
  all_goals change decodeCore (_ + _) = _
  all_goals simp only [decodeCore, decodeOp18, decodeOp19, decodeOp1A, field, bits, word_reading, Nat.reducePow, Nat.reduceMul, Nat.reduceMod,
    Nat.reduceDiv, Nat.reduceLT, Nat.div_one, Nat.zero_add, Nat.mul_one, beq_self_eq_true, accept_of_wf hw]

/-- Residue matrix instructions and operand banks (11). -/
theorem decodeCore_encode_of_residue {i : Instr} (hi : i.inBlock 0x20 0x25 = true) (hw : i.wf = true) : decodeCore (encode i) = .ok i := by
  cases i
  all_goals try contradiction
  all_goals change decodeCore (_ + _) = _
  all_goals simp only [decodeCore, decodeOp20, decodeOp21, decodeOp22, decodeOp23, decodeOp24, decodeOp25, field, bits, word_reading, Nat.reducePow,
    Nat.reduceMul, Nat.reduceMod, Nat.reduceDiv, Nat.reduceLT, Nat.div_one, Nat.zero_add, Nat.mul_one, beq_self_eq_true, Bool.and_self, accept_of_wf hw]

/-- Memory, engines and synchronisation (12). -/
theorem decodeCore_encode_of_memory {i : Instr} (hi : i.inBlock 0x28 0x35 = true) (hw : i.wf = true) : decodeCore (encode i) = .ok i := by
  cases i
  all_goals try contradiction
  all_goals change decodeCore (_ + _) = _
  all_goals simp only [decodeCore, decodeOp28, decodeOp29, decodeOp2A, decodeOp2B, decodeOp2C, decodeOp2D, decodeOp2E, decodeOp2F, decodeOp30, decodeOp31,
    decodeOp32, decodeOp33, decodeOp34, decodeOp35, field, bits, word_reading, Nat.reducePow, Nat.reduceMul, Nat.reduceMod, Nat.reduceDiv, Nat.reduceLT,
    Nat.div_one, Nat.zero_add, Nat.mul_one, beq_self_eq_true, Bool.and_self, accept_of_wf hw]

/-- User traps (13) and privileged instructions (18). -/
theorem decodeCore_encode_of_trapOrPrivileged {i : Instr} (hi : i.inBlock 0x38 0x3D = true) (hw : i.wf = true) : decodeCore (encode i) = .ok i := by
  cases i
  all_goals try contradiction
  all_goals change decodeCore (_ + _) = _
  all_goals simp only [decodeCore, decodeOp38, decodeOp39, decodeOp3A, decodeOp3B, decodeOp3C, decodeOp3D, field, bits, word_reading, Nat.reducePow,
    Nat.reduceMul, Nat.reduceMod, Nat.reduceDiv, Nat.reduceLT, Nat.div_one, Nat.zero_add, Nat.mul_one, beq_self_eq_true, Bool.and_self, accept_of_wf hw]

/-- The blocks hold every core instruction. -/
theorem inBlock_of_isCore {i : Instr} (hc : i.isCore = true) :
    i.inBlock 0x01 0x0F = true ∨ i.inBlock 0x10 0x13 = true ∨ i.inBlock 0x14 0x17 = true ∨ i.inBlock 0x18 0x1A = true ∨ i.inBlock 0x20 0x25 = true ∨
      i.inBlock 0x28 0x35 = true ∨ i.inBlock 0x38 0x3D = true := by
  have hblocks : (!i.isCore || (i.inBlock 0x01 0x0F || (i.inBlock 0x10 0x13 || (i.inBlock 0x14 0x17 || (i.inBlock 0x18 0x1A || (i.inBlock 0x20 0x25 ||
      (i.inBlock 0x28 0x35 || i.inBlock 0x38 0x3D))))))) = true := by cases i <;> rfl
  simpa only [hc, Bool.not_true, Bool.false_or, Bool.or_eq_true] using hblocks

theorem decodeCore_encode {i : Instr} (hc : i.isCore = true) (hw : i.wf = true) : decodeCore (encode i) = .ok i := by
  rcases inBlock_of_isCore hc with hi | hi | hi | hi | hi | hi | hi
  · exact decodeCore_encode_of_scalar hi hw
  · exact decodeCore_encode_of_vectorArithmetic hi hw
  · exact decodeCore_encode_of_vectorConversion hi hw
  · exact decodeCore_encode_of_vectorMove hi hw
  · exact decodeCore_encode_of_residue hi hw
  · exact decodeCore_encode_of_memory hi hw
  · exact decodeCore_encode_of_trapOrPrivileged hi hw

/-! ### Switch words -/

theorem decodeSwitch_encode {i : Instr} (hs : i.isSwitch = true) (hw : i.wf = true) : decodeSwitch (encode i) = .ok i := by
  cases i
  all_goals try contradiction
  case iend => rfl
  all_goals change decodeSwitch (_ + _) = _
  all_goals simp only [decodeSwitch, field, bits, word_reading, Nat.reducePow, Nat.reduceMul, Nat.reduceMod, Nat.reduceDiv, Nat.reduceLT, Nat.div_one,
    Nat.zero_add, Nat.mul_one, beq_self_eq_true, accept_of_wf hw]

/-! ### The obligation -/

theorem decodeBytes_encodeBytes_of_isCore {i : Instr} (hc : i.isCore = true) (hw : i.wf = true) : decodeBytes (encodeBytes i) = .ok i := by
  simp only [encodeBytes, isSwitch_eq_false_of_isCore hc, Bool.false_eq_true, if_false]
  rw [decodeBytes_leBytes_four (encode_lt_of_isCore hc), decodeCore_encode hc hw]

theorem decodeBytes_encodeBytes_of_isSwitch {i : Instr} (hs : i.isSwitch = true) (hw : i.wf = true) : decodeBytes (encodeBytes i) = .ok i := by
  simp only [encodeBytes, hs, if_true]
  rw [decodeBytes_leBytes_two (encode_lt_of_isSwitch hs), decodeSwitch_encode hs hw]

/-- Settles O2: each field of a word is read from its own place, and the decoder's tables assign the word's codes to the instruction. -/
theorem roundTrip : Obligations.RoundTrip :=
  ⟨fun _ hc hw => ⟨encode_lt_of_isCore hc, decodeCore_encode hc hw, decodeBytes_encodeBytes_of_isCore hc hw⟩,
   fun _ hs hw => ⟨encode_lt_of_isSwitch hs, decodeSwitch_encode hs hw, decodeBytes_encodeBytes_of_isSwitch hs hw⟩⟩

end Sys2Proof
end

section
/-!
PROOFS of O42: a crossbar transfer is whole or not at all (03 R58, R60).

What a buffer holds after its head is taken, and after a word is sent to an output, is said once per operation and then carried along the lists of inputs and
routes.
-/
namespace Sys2Proof.Machine

open Sys2Proof

/-! ### One buffer of one switch -/

theorem bufOf_setBuf (w : Switch) (c b : Nat) (ws : List TWord) (hb : b < 18) : bufOf (setBuf w c ws) b = if b = c then ws else bufOf w b := by
  split
  · next h => subst h; exact vget_vset_same _ _ _ _ hb
  · next h => exact vget_vset_other _ _ _ _ _ h

/-- Replacing a buffer of a switch leaves every other buffer of every switch. -/
theorem bufOf_switchAt_replaced (s : State) (p c q b : Nat) (ws : List TWord) (hb : b < 18) :
    bufOf (switchAt (setSwitch s p (setBuf (switchAt s p) c ws)) q) b = if q = p ∧ b = c then ws else bufOf (switchAt s q) b := by
  by_cases hq : q = p
  · subst hq
    simp [bufOf_setBuf, hb]
  · simp [switchAt_setSwitch_other _ _ _ _ hq, hq]

theorem bufOf_takeHead (s : State) (pos i q b : Nat) (hb : b < 18) :
    bufOf (switchAt (takeHead s pos i) q) b = (bufOf (switchAt s q) b).drop (if q = pos ∧ b = i then 1 else 0) := by
  rw [takeHead, bufOf_switchAt_replaced _ _ _ _ _ _ hb]
  split
  · next h => rw [h.1, h.2]
  · rfl

theorem bufOf_pushBuf (s : State) (p c q b : Nat) (x : TWord) (hb : b < 18) :
    bufOf (switchAt (pushBuf s p c x) q) b = bufOf (switchAt s q) b ++ if q = p ∧ b = c then [x] else [] := by
  rw [pushBuf, bufOf_switchAt_replaced _ _ _ _ _ _ hb]
  split
  · next h => rw [h.1, h.2]
  · rw [List.append_nil]

theorem bufOf_sendTo (s : State) (pos out q b : Nat) (x : TWord) (hb : b < 18) :
    bufOf (switchAt (sendTo s pos out x) q) b = bufOf (switchAt s q) b ++ if outputBuf pos out == some (q, b) then [x] else [] := by
  unfold sendTo
  cases outputBuf pos out with
  | none => simp
  | some target => simp [bufOf_pushBuf, hb, Prod.ext_iff, eq_comm (a := q), eq_comm (a := b)]

/-! ### A list of inputs and a list of routes -/

theorem nodup_eraseDups : ∀ l : List Nat, l.eraseDups.Nodup
  | [] => by simp
  | a :: l => by
    rw [List.eraseDups_cons, List.nodup_cons]
    exact ⟨by simp, nodup_eraseDups _⟩
  termination_by l => l.length
  decreasing_by exact Nat.lt_succ_of_le (List.length_filter_le _ _)

theorem bufOf_foldl_takeHead (pos q b : Nat) (hb : b < 18) (l : List Nat) (hl : l.Nodup) (s : State) :
    bufOf (switchAt (l.foldl (fun s i => takeHead s pos i) s) q) b = (bufOf (switchAt s q) b).drop (if q = pos ∧ b ∈ l then 1 else 0) := by
  induction l generalizing s with
  | nil => simp
  | cons i l ih =>
    obtain ⟨hi, hl⟩ := List.nodup_cons.mp hl
    rw [List.foldl_cons, ih hl, bufOf_takeHead _ _ _ _ _ hb, List.drop_drop]
    congr 1
    by_cases hbi : b = i
    · simp [hbi, hi]
    · simp [hbi]

/-- Words are sent one after the other, each to the end of its buffer. -/
theorem bufOf_foldl_sendTo (pos q b : Nat) (hb : b < 18) (hs : List (Route × TWord)) (s : State) :
    bufOf (switchAt (hs.foldl (fun s h => sendTo s pos h.1.out (routed1 pos h.1 h.2)) s) q) b =
      bufOf (switchAt s q) b ++ (hs.filter (fun h => outputBuf pos h.1.out == some (q, b))).map (fun h => routed1 pos h.1 h.2) := by
  induction hs generalizing s with
  | nil => simp
  | cons h hs ih =>
    rw [List.foldl_cons, ih, bufOf_sendTo _ _ _ _ _ _ hb, List.append_assoc, List.filter_cons]
    split <;> rfl

/-! ### What a transfer leaves -/

theorem takeHead_frame (s : State) (pos i : Nat) : takeHead s pos i = { s with switches := (takeHead s pos i).switches } := rfl

theorem sendTo_frame (s : State) (pos out : Nat) (x : TWord) : sendTo s pos out x = { s with switches := (sendTo s pos out x).switches } := by
  unfold sendTo
  split <;> rfl

/-- Operations that change the switches alone, one after the other. -/
theorem foldl_switches_frame {α : Type} (f : State → α → State) (hf : ∀ s x, f s x = { s with switches := (f s x).switches }) (l : List α) (s : State) :
    l.foldl f s = { s with switches := (l.foldl f s).switches } := by
  induction l generalizing s with
  | nil => rfl
  | cons x l ih => rw [List.foldl_cons, ih, hf]

/-- The state after a transfer that is made: the heads are read, the inputs read are dequeued, and each word is sent (03 R60). -/
def transferred (s : State) (pos : Nat) (rs : List Route) (deq : Bool) : State :=
  (rs.map (fun r => (r, (inputHead s pos r.inp).getD { data := 0, poison := false }))).foldl
    (fun s h => sendTo s pos h.1.out (routed1 pos h.1 h.2)) (if deq then (needed rs).foldl (fun s i => takeHead s pos i) s else s)

theorem transfer_eq (s : State) (pos : Nat) (rs : List Route) (deq : Bool) :
    transfer s pos rs deq = if transferReady s pos rs then some (transferred s pos rs deq) else none := rfl

theorem transferred_frame (s : State) (pos : Nat) (rs : List Route) (deq : Bool) :
    transferred s pos rs deq = { s with switches := (transferred s pos rs deq).switches } := by
  unfold transferred
  rw [foldl_switches_frame _ (fun s _ => sendTo_frame s pos _ _)]
  split
  · rw [foldl_switches_frame _ (fun s i => takeHead_frame s pos i)]
  · rfl

theorem mem_needed (rs : List Route) (b : Nat) : b ∈ needed rs ↔ rs.any (fun r => r.inp == b) = true := by
  simp [needed]

theorem bufOf_dequeued (s : State) (pos : Nat) (rs : List Route) (deq : Bool) (q b : Nat) (hb : b < 18) :
    bufOf (switchAt (if deq then (needed rs).foldl (fun s i => takeHead s pos i) s else s) q) b =
      (bufOf (switchAt s q) b).drop (if deq = true ∧ q = pos ∧ rs.any (fun r => r.inp == b) = true then 1 else 0) := by
  cases deq with
  | false => simp
  | true =>
    rw [if_pos rfl, bufOf_foldl_takeHead pos q b hb (needed rs) (nodup_eraseDups _)]
    simp only [mem_needed, true_and]

theorem bufOf_transferred (s : State) (pos : Nat) (rs : List Route) (deq : Bool) (q b : Nat) (hb : b < 18) :
    bufOf (switchAt (transferred s pos rs deq) q) b =
      (bufOf (switchAt s q) b).drop (if deq = true ∧ q = pos ∧ rs.any (fun r => r.inp == b) = true then 1 else 0) ++
        (rs.filter (fun r => outputBuf pos r.out == some (q, b))).map
          (fun r => routed1 pos r ((bufOf (switchAt s pos) r.inp).headD { data := 0, poison := false })) := by
  rw [transferred, bufOf_foldl_sendTo pos q b hb, bufOf_dequeued s pos rs deq q b hb, List.filter_map, List.map_map]
  simp only [Function.comp_def, inputHead, List.headD_eq_head?_getD]

/-! ### The obligation -/

theorem isSome_inputHead (s : State) (pos code : Nat) : (inputHead s pos code).isSome = !(bufOf (switchAt s pos) code).isEmpty := by
  unfold inputHead
  cases bufOf (switchAt s pos) code <;> rfl

theorem transferReady_eq (s : State) (pos : Nat) (rs : List Route) :
    transferReady s pos rs = rs.all (fun r => !(bufOf (switchAt s pos) r.inp).isEmpty && outputRoom s pos r.out) := by
  simp only [transferReady, isSome_inputHead]

theorem exec_switchTransfer (s : State) (e : Nat) (he : s.arg = .one e) :
    exec .switchTransfer s = .next ((transfer s s.cur.pos (routesOf ((switchAt s s.cur.pos).entry e)) true).getD s) := by
  change with1 s _ = _
  rw [with1, he]

/-- Settles O42: a transfer that is ready takes each input's head once and then sends the words in the order of the routes. -/
theorem switchTransfers : Obligations.SwitchTransfers := by
  refine ⟨fun s pos rs deq => ⟨fun hnot => ?_, fun hready _ => ?_⟩, exec_switchTransfer⟩
  · rw [← transferReady_eq] at hnot
    rw [transfer_eq, hnot, if_neg Bool.false_ne_true]
  · rw [← transferReady_eq] at hready
    refine ⟨transferred s pos rs deq, ?_, ?_, ?_, fun q b hb => bufOf_transferred s pos rs deq q b hb⟩
    · rw [transfer_eq, hready, if_pos rfl]
    · rw [transferred_frame]
    · rw [transferred_frame]

end Sys2Proof.Machine
end

section
/-!
PROOFS of O43: what each switch word does, and what stops a switch (03 R60, R65; 13 R290 to R294).

A switch that is ready settles the answer of its word: it continues at a word index, stays, or stops with a cause. Each word's answer is said once; what the
answer makes of the state is said once for all words.
-/
namespace Sys2Proof.Machine

open Sys2Proof Sys2Proof.Safety

theorem tblSet_tblSet {α : Type} (t : Tbl α) (a : Nat) (v w : α) : tblSet (tblSet t a v) a w = tblSet t a w := by
  induction t with
  | nil => simp [tblSet]
  | cons e t ih =>
    obtain ⟨k, x⟩ := e
    by_cases hk : a = k
    · simp [tblSet, hk]
    · by_cases hlt : a < k
      · simp [tblSet, hk, hlt]
      · simp [tblSet, hk, hlt, ih]

@[simp] theorem setSwitch_setSwitch (s : State) (pos : Nat) (v w : Switch) : setSwitch (setSwitch s pos v) pos w = setSwitch s pos w := by
  simp only [setSwitch, tblSet_tblSet]

/-! ### What a ready switch makes of its word's answer -/

/-- The switch that executes a word. -/
abbrev curSwitch (s : State) : Switch := switchAt s s.cur.pos

/-- The switch at a position goes on at a word index. -/
def continuesAt (t : State) (pos pc : Nat) : State := setSwitch t pos { switchAt t pos with pc := BitVec.ofNat 14 pc }

/-- The outcome of an answer: a word index outside route memory stops the switch (13 R294). -/
def settleWord (s : State) : SwEffect → Out
  | .stay t => .next t
  | .fault c => .next (switchStops s c)
  | .go t pc => .next (if 0 ≤ pc ∧ pc < 8192 then continuesAt t s.cur.pos pc.toNat else switchStops s cACCESS)

theorem runSwitch_of_ready {s : State} (hs : switchReady s = true) (f : Nat → Switch → SwEffect) :
    runSwitch s f = settleWord s (f s.cur.pos (curSwitch s)) := by
  have hruns : ¬ ((curSwitch s).phase ≠ .running ∨ (curSwitch s).flt = true) := by simpa [switchReady] using hs
  simp only [runSwitch, if_neg hruns]
  cases f s.cur.pos (curSwitch s) with
  | stay t => rfl
  | fault c => rfl
  | go t pc =>
    simp only [settleWord]
    split <;> rfl

theorem runSwitch_of_not_ready {s : State} (hs : switchReady s = false) (f : Nat → Switch → SwEffect) : runSwitch s f = .next s := by
  have hrests : (curSwitch s).phase ≠ .running ∨ (curSwitch s).flt = true := by
    simpa [switchReady, Classical.or_iff_not_imp_left] using hs
  simp only [runSwitch, if_pos hrests]

theorem exec_eq_runSwitch {i : Instr} (hi : i.isSwitch = true) (s : State) : ∃ f, exec i s = runSwitch s f := by
  cases i
  case route | hold | routec | setc | setch | ldc | dbnz | bzc | bcz | bcnz | jmp | wait | drop | iend =>
    unfold exec
    exact ⟨_, rfl⟩
  all_goals contradiction

theorem settleWord_go {s : State} (t : State) {pc : Int} {n : Nat} (hn : n < 8192) (hpc : (n : Int) = pc) :
    settleWord s (.go t pc) = .next (continuesAt t s.cur.pos n) := by
  subst hpc
  rw [settleWord, if_pos (by omega), Int.toNat_natCast]

theorem settleWord_go_next {s : State} (t : State) (hpc : (curSwitch s).pc.toNat < 8191) :
    settleWord s (.go t (curSwitch s).next) = .next (continuesAt t s.cur.pos ((curSwitch s).pc.toNat + 1)) :=
  settleWord_go t (Nat.succ_lt_succ hpc) (Int.natCast_succ _)

theorem settleWord_go_outside {s : State} (t : State) {pc : Int} (hpc : pc < 0 ∨ 8192 ≤ pc) :
    settleWord s (.go t pc) = .next (switchStops s cACCESS) := by
  rw [settleWord, if_neg (by omega)]

theorem next_lt {w : Switch} (hpc : w.pc.toNat < 8191) : ¬ 8192 ≤ w.next := by
  unfold Switch.next
  omega

theorem le_next {w : Switch} (hpc : 8191 ≤ w.pc.toNat) : 8192 ≤ w.next := by
  unfold Switch.next
  omega

/-! ### Transfers and discards that are owed (13 R291) -/

/-- What a word owes at this execution: all of its `n` when it begins, REM afterwards. -/
def Switch.owes (w : Switch) (n : Nat) : Nat := if w.rem = 0 then n else w.rem.toNat

/-- A word that discards owes at least one word. -/
theorem owes_succ_ne_zero (w : Switch) (n : Nat) : w.owes (n + 1) ≠ 0 := by
  unfold Switch.owes
  split
  · exact Nat.succ_ne_zero n
  · next hrem => exact fun h => hrem (BitVec.eq_of_toNat_eq h)

/-- The state with one less owed. -/
def owesLess (t : State) (pos r : Nat) : State := setSwitch t pos { switchAt t pos with rem := BitVec.ofNat 16 (r - 1) }

section
variable {s : State} {w : Switch} {n : Nat} {f : Bool → Option State}

theorem owed_at_last_word (hpc : 8191 ≤ w.pc.toNat) (pos : Nat) : owed s pos w n f = .fault cACCESS := if_pos (le_next hpc)

theorem owed_nothing (hpc : w.pc.toNat < 8191) (hr : w.owes n = 0) (pos : Nat) : owed s pos w n f = .go s w.next :=
  (if_neg (next_lt hpc)).trans (if_pos hr)

theorem owed_blocked (hpc : w.pc.toNat < 8191) (hr : w.owes n ≠ 0) (hf : f (w.owes n == 1) = none) (pos : Nat) : owed s pos w n f = .stay s := by
  rw [Switch.owes] at hr hf
  simp only [owed, if_neg (next_lt hpc), if_neg hr, hf]

theorem owed_made (hpc : w.pc.toNat < 8191) (hr : w.owes n ≠ 0) {t : State} (hf : f (w.owes n == 1) = some t) (pos : Nat) :
    owed s pos w n f = if w.owes n = 1 then .go (owesLess t pos (w.owes n)) w.next else .stay (owesLess t pos (w.owes n)) := by
  rw [Switch.owes] at hr hf
  simp only [owed, if_neg (next_lt hpc), if_neg hr, hf]
  rfl

end

theorem settleWord_owed_made {s t : State} {n : Nat} {f : Bool → Option State} (hpc : (curSwitch s).pc.toNat < 8191) (hr : (curSwitch s).owes n ≠ 0)
    (hf : f ((curSwitch s).owes n == 1) = some t) :
    settleWord s (owed s s.cur.pos (curSwitch s) n f) =
      .next (if (curSwitch s).owes n = 1 then continuesAt (owesLess t s.cur.pos ((curSwitch s).owes n)) s.cur.pos ((curSwitch s).pc.toNat + 1)
        else owesLess t s.cur.pos ((curSwitch s).owes n)) := by
  rw [owed_made hpc hr hf]
  split
  · exact settleWord_go_next _ hpc
  · rfl

/-! ### Words that read a control word (13 R292) -/

section
variable {s : State} {pos code : Nat}

theorem namesControl_of (hin : inputExists pos code = true) (hctl : controlInput pos code = true) : namesControl pos code = true := by
  rw [namesControl, hin, hctl, Bool.and_self]

theorem controlWord_of_unnamed (hc : namesControl pos code = false) (f : State → Word → SwEffect) : controlWord s pos code f = .fault cRSVD := by
  simp [controlWord, hc]

theorem controlWord_of_empty (hc : namesControl pos code = true) (hx : inputHead s pos code = none) (f : State → Word → SwEffect) :
    controlWord s pos code f = .stay s := by
  simp [controlWord, hc, hx]

theorem controlWord_of_poisoned (hc : namesControl pos code = true) {x : TWord} (hx : inputHead s pos code = some x) (hp : x.poison = true)
    (f : State → Word → SwEffect) : controlWord s pos code f = .fault cPOISON := by
  simp [controlWord, hc, hx, hp]

theorem controlWord_of_word (hc : namesControl pos code = true) {x : TWord} (hx : inputHead s pos code = some x) (hp : x.poison = false)
    (f : State → Word → SwEffect) : controlWord s pos code f = f (takeHead s pos code) (x.data.setWidth 64) := by
  simp [controlWord, hc, hx, hp]

end

/-! ### The answer of each word, where the switch is ready -/

/-- A counter that DBNZ takes down to zero held one. -/
theorem counter_sub_one_eq_zero_iff (v : BitVec 16) : v - 1 = 0 ↔ v = 1 := by bv_omega

section
variable {s : State} (hs : switchReady s = true)
include hs

/-- ROUTE, HOLD and ROUTEC differ in how many transfers they owe and in which of them dequeues. -/
theorem exec_routing {i : Instr} {e n : Nat} {h : Bool} (hi : routingForm i (curSwitch s) = some (e, n, h)) :
    exec i s = settleWord s (owed s s.cur.pos (curSwitch s) n
      (fun last => transfer s s.cur.pos (routesOf ((curSwitch s).entry e)) (!h || last))) := by
  unfold routingForm at hi
  unfold exec
  split at hi <;> cases hi
  · exact runSwitch_of_ready hs _
  · exact runSwitch_of_ready hs _
  · exact runSwitch_of_ready hs _

theorem exec_setc (c : BitVec 2) (v : BitVec 10) :
    exec (.setc c v) s = settleWord s (.go (setCtr s s.cur.pos c (v.setWidth 16)) (curSwitch s).next) := by
  change execSetc c v s = _
  exact runSwitch_of_ready hs _

theorem exec_setch (c : BitVec 2) (v : BitVec 6) :
    exec (.setch c v) s =
      settleWord s (.go (setCtr s s.cur.pos c (BitVec.ofNat 16 (v.toNat * 1024 + ((curSwitch s).ctr c).toNat % 1024))) (curSwitch s).next) := by
  change execSetch c v s = _
  refine (runSwitch_of_ready hs _).trans ?_
  simp [bitsOf]

theorem exec_dbnz (c : BitVec 2) (o : BitVec 10) :
    exec (.dbnz c o) s = settleWord s (.go (setCtr s s.cur.pos c ((curSwitch s).ctr c - 1))
      (if (curSwitch s).ctr c = 1 then (curSwitch s).next else (curSwitch s).target o.toInt)) := by
  change execDbnz c o s = _
  refine (runSwitch_of_ready hs _).trans ?_
  simp only [counter_sub_one_eq_zero_iff]

theorem exec_bzc (c : BitVec 2) (o : BitVec 10) :
    exec (.bzc c o) s = settleWord s (.go s (if (curSwitch s).ctr c = 0 then (curSwitch s).target o.toInt else (curSwitch s).next)) := by
  change execBzc c o s = _
  exact runSwitch_of_ready hs _

theorem exec_jmp (o : BitVec 12) : exec (.jmp o) s = settleWord s (.go s ((curSwitch s).target o.toInt)) := by
  change execJmp o s = _
  exact runSwitch_of_ready hs _

theorem exec_ldc_at_last_word {k : BitVec 5} (hc : namesControl s.cur.pos k.toNat = true) (hpc : 8191 ≤ (curSwitch s).pc.toNat) (c : BitVec 2) :
    exec (.ldc c k) s = .next (switchStops s cACCESS) := by
  change execLdc c k s = _
  refine (runSwitch_of_ready hs _).trans ?_
  simp only [hc, le_next hpc, decide_true, Bool.and_self, if_true]
  rfl

/-- LDC, but for a control word that it would read at the last word (log entry 70). -/
theorem exec_ldc {k : BitVec 5} (hpc : namesControl s.cur.pos k.toNat = true → (curSwitch s).pc.toNat < 8191) (c : BitVec 2) :
    exec (.ldc c k) s = settleWord s (controlWord s s.cur.pos k.toNat
      (fun t x => .go (setCtr t s.cur.pos c (x.setWidth 16)) (curSwitch s).next)) := by
  change execLdc c k s = _
  refine (runSwitch_of_ready hs _).trans ?_
  have hreads : ¬ ((namesControl s.cur.pos k.toNat && decide (8192 ≤ (curSwitch s).next)) = true) := by
    simpa using fun hc => Int.not_le.mp (next_lt (hpc hc))
  rw [if_neg hreads]

/-- BCZ and BCNZ are one branch: on a control word that is zero, or that is not. -/
theorem exec_branchOnControl (k : BitVec 5) (o : BitVec 7) (zero : Bool) :
    exec (if zero then .bcz k o else .bcnz k o) s = settleWord s (controlWord s s.cur.pos k.toNat
      (fun t x => .go t (if decide (x = 0) = zero then (curSwitch s).target o.toInt else (curSwitch s).next))) := by
  cases zero with
  | true =>
    change execBcz k o s = _
    refine (runSwitch_of_ready hs _).trans ?_
    simp
  | false =>
    change execBcnz k o s = _
    refine (runSwitch_of_ready hs _).trans ?_
    simp

/-- LDC, BCZ and BCNZ are the words that read a control word. -/
theorem exec_reader {i : Instr} {k : BitVec 5} (hi : (∃ c, i = .ldc c k) ∨ (∃ o, i = .bcz k o) ∨ (∃ o, i = .bcnz k o))
    (hpc : namesControl s.cur.pos k.toNat = true → (curSwitch s).pc.toNat < 8191) :
    ∃ f, exec i s = settleWord s (controlWord s s.cur.pos k.toNat f) := by
  obtain ⟨c, rfl⟩ | ⟨o, rfl⟩ | ⟨o, rfl⟩ := hi
  · exact ⟨_, exec_ldc hs hpc c⟩
  · exact ⟨_, exec_branchOnControl hs k o true⟩
  · exact ⟨_, exec_branchOnControl hs k o false⟩

theorem exec_wait_of_missing {k : BitVec 5} (hin : inputExists s.cur.pos k.toNat = false) : exec (.wait k) s = .next (switchStops s cRSVD) := by
  change execWait k s = _
  refine (runSwitch_of_ready hs _).trans ?_
  simp only [hin, Bool.not_false, if_true]
  rfl

theorem exec_wait_at_last_word {k : BitVec 5} (hin : inputExists s.cur.pos k.toNat = true) (hpc : 8191 ≤ (curSwitch s).pc.toNat) :
    exec (.wait k) s = .next (switchStops s cACCESS) := by
  change execWait k s = _
  refine (runSwitch_of_ready hs _).trans ?_
  simp only [hin, Bool.not_true, Bool.false_eq_true, if_false, le_next hpc, if_true]
  rfl

theorem exec_wait {k : BitVec 5} (hin : inputExists s.cur.pos k.toNat = true) (hpc : (curSwitch s).pc.toNat < 8191) :
    exec (.wait k) s =
      .next (if (inputHead s s.cur.pos k.toNat).isSome = true then continuesAt s s.cur.pos ((curSwitch s).pc.toNat + 1) else s) := by
  change execWait k s = _
  refine (runSwitch_of_ready hs _).trans ?_
  simp only [hin, Bool.not_true, Bool.false_eq_true, if_false, next_lt hpc]
  split
  · exact settleWord_go_next s hpc
  · rfl

theorem exec_drop_of_missing {k : BitVec 5} (hin : inputExists s.cur.pos k.toNat = false) (n : BitVec 7) :
    exec (.drop k n) s = .next (switchStops s cRSVD) := by
  change execDrop k n s = _
  refine (runSwitch_of_ready hs _).trans ?_
  simp only [hin, Bool.not_false, if_true]
  rfl

theorem exec_drop {k : BitVec 5} (hin : inputExists s.cur.pos k.toNat = true) (n : BitVec 7) :
    exec (.drop k n) s = settleWord s (owed s s.cur.pos (curSwitch s) (n.toNat + 1)
      (fun _ => if (inputHead s s.cur.pos k.toNat).isSome then some (takeHead s s.cur.pos k.toNat) else none)) := by
  change execDrop k n s = _
  refine (runSwitch_of_ready hs _).trans ?_
  simp only [hin, Bool.not_true, Bool.false_eq_true, if_false]

theorem exec_drop_inside {k : BitVec 5} (hin : inputExists s.cur.pos k.toNat = true) (hpc : (curSwitch s).pc.toNat < 8191) (n : BitVec 7) :
    let t := owesLess (takeHead s s.cur.pos k.toNat) s.cur.pos ((curSwitch s).owes (n.toNat + 1))
    exec (.drop k n) s = .next (
      if (inputHead s s.cur.pos k.toNat).isSome = true then
        if (curSwitch s).owes (n.toNat + 1) = 1 then continuesAt t s.cur.pos ((curSwitch s).pc.toNat + 1) else t
      else s) := by
  intro t
  rw [exec_drop hs hin]
  split
  · exact settleWord_owed_made hpc (owes_succ_ne_zero _ _) rfl
  · rw [owed_blocked hpc (owes_succ_ne_zero _ _) rfl]
    rfl

end

/-! ### The end of an iteration (13 R293) -/

theorem exec_iend_of_shadow {s : State} (hs : switchReady s = true) (ht : (curSwitch s).tab = 1) :
    exec .iend s = .next (setSwitch s s.cur.pos { curSwitch s with phase := .boundary }) := by
  change execIend s = _
  refine (runSwitch_of_ready hs _).trans ?_
  simp only [ht, if_true]
  rfl

/-- The switch after the IEND of a berth: it begins the next iteration below COUNT, stopping there where a save asks for it, and else stands at the boundary. -/
def Switch.iterated (w : Switch) (b : Berth) : Switch :=
  if w.iter.toNat + 1 < b.count then
    { w with
      iter := w.iter + 1, pc := BitVec.ofNat 14 w.rentry.toNat
      phase := if stopsAt (some b) (w.iter.toNat + 1) then .boundary else .running }
  else { w with iter := w.iter + 1, phase := .boundary }

theorem exec_iend_of_berth {s : State} (hs : switchReady s = true) (ht : (curSwitch s).tab = 0) {b : Berth} (hb : berthOfPos s s.cur.pos = some b)
    (hi : (curSwitch s).iter.toNat + 1 < 2 ^ 32) : exec .iend s = .next (setSwitch s s.cur.pos ((curSwitch s).iterated b)) := by
  have hiter : ((curSwitch s).iter + 1).toNat = (curSwitch s).iter.toNat + 1 := BitVec.toNat_add_of_lt hi
  have htab : (curSwitch s).tab ≠ 1 := by simp [ht]
  have hentry : (curSwitch s).rentry.toNat < 8192 := (curSwitch s).rentry.isLt
  change execIend s = _
  refine (runSwitch_of_ready hs _).trans ?_
  simp only [if_neg htab, hb, hiter, Switch.iterated]
  split
  · rw [settleWord_go _ hentry rfl]
    simp [continuesAt]
  · rfl

/-! ### A rejected word (13 R294) -/

theorem exec_undefinedSwitchWord {s : State} {x : Nat} {e : DecodeError} (ha : s.arg = .one x) (he : decodeSwitch x = .error e)
    (hs : switchReady s = true) : exec .undefinedSwitchWord s = .next (switchStops s (if e = .undefOp then cUNDEF else cRSVD)) := by
  change with1 s _ = _
  simp only [with1, ha, he]
  cases e with
  | undefOp => exact runSwitch_of_ready hs _
  | rsvdField => exact runSwitch_of_ready hs _
  | badLength => exact runSwitch_of_ready hs _

/-! ### The last word of route memory (13 R294) -/

/-- The words that go on to the next word index stop the switch at word 8,191, once they name an input they can read. -/
theorem exec_at_last_word {s : State} (hs : switchReady s = true) {i : Instr} (hpc : 8191 ≤ (curSwitch s).pc.toNat)
    (hi : (∃ e n, i = .route e n) ∨ (∃ e n, i = .hold e n) ∨ (∃ e c, i = .routec e c) ∨ (∃ c v, i = .setc c v) ∨ (∃ c v, i = .setch c v) ∨
      (∃ c k, i = .ldc c k ∧ inputExists s.cur.pos k.toNat = true ∧ controlInput s.cur.pos k.toNat = true) ∨
      (∃ k, (i = .wait k ∨ ∃ n, i = .drop k n) ∧ inputExists s.cur.pos k.toNat = true)) :
    exec i s = .next (switchStops s cACCESS) := by
  have howed {n : Nat} {f : Bool → Option State} : settleWord s (owed s s.cur.pos (curSwitch s) n f) = .next (switchStops s cACCESS) :=
    congrArg _ (owed_at_last_word hpc _)
  obtain ⟨e, n, rfl⟩ | ⟨e, n, rfl⟩ | ⟨e, c, rfl⟩ | ⟨c, v, rfl⟩ | ⟨c, v, rfl⟩ | ⟨c, k, rfl, hin, hctl⟩ | ⟨k, rfl | ⟨n, rfl⟩, hin⟩ := hi
  · exact (exec_routing hs rfl).trans howed
  · exact (exec_routing hs rfl).trans howed
  · exact (exec_routing hs rfl).trans howed
  · exact (exec_setc hs c v).trans (settleWord_go_outside _ (Or.inr (le_next hpc)))
  · exact (exec_setch hs c v).trans (settleWord_go_outside _ (Or.inr (le_next hpc)))
  · exact exec_ldc_at_last_word hs (namesControl_of hin hctl) hpc c
  · exact exec_wait_at_last_word hs hin hpc
  · exact (exec_drop hs hin n).trans howed

/-! ### The obligation -/

/-- Settles O43: a ready switch settles the answer of its word, and one that is not ready executes nothing. -/
theorem switchWords : Obligations.SwitchWords := by
  refine ⟨fun s hs => ⟨fun i e n h hi hpc => ⟨fun hr => ?_, fun hr hnone => ?_, fun t hr hsome => ?_⟩, fun c v hpc => ?_, fun c v hpc => ?_,
    fun c k hin hctl => ⟨fun hempty hpc => ?_, fun x hx hp hpc => ?_⟩, fun i k o zero x target hi hin hctl hx hp hlt htarget => ?_,
    fun c o target hlt htarget => ?_, fun c o target hlt htarget => ?_, fun o target hlt htarget => ?_, fun k hin hpc => exec_wait hs hin hpc,
    fun k n hin hpc => exec_drop_inside hs hin hpc n, exec_iend_of_shadow hs, fun b ht hb hiter => exec_iend_of_berth hs ht hb hiter⟩,
    fun i s hi hs => ?_, fun s x e ha he hs => exec_undefinedSwitchWord ha he hs,
    fun s o hs hout => (exec_jmp hs o).trans (settleWord_go_outside s hout), fun i s hs => ?_, fun k o s hs hin hctl hempty => ⟨?_, ?_⟩,
    fun i s k hs hi => ⟨fun hc => ?_, fun x hc hx hp hpc => ?_⟩, fun i s k hs hi hin => ?_⟩
  -- the routing words
  · rw [exec_routing hs hi, owed_nothing hpc hr]
    exact settleWord_go_next s hpc
  · rw [exec_routing hs hi, owed_blocked hpc hr hnone]
    rfl
  · rw [exec_routing hs hi]
    exact settleWord_owed_made hpc hr hsome
  -- counters
  · exact (exec_setc hs c v).trans (settleWord_go_next _ hpc)
  · exact (exec_setch hs c v).trans (settleWord_go_next _ hpc)
  -- the words that read a control word
  · rw [exec_ldc hs (fun _ => hpc), controlWord_of_empty (namesControl_of hin hctl) hempty]
    rfl
  · rw [exec_ldc hs (fun _ => hpc), controlWord_of_word (namesControl_of hin hctl) hx hp, BitVec.setWidth_setWidth_of_le _ (by decide)]
    exact settleWord_go_next _ hpc
  · rw [hi, exec_branchOnControl hs, controlWord_of_word (namesControl_of hin hctl) hx hp]
    exact settleWord_go _ hlt htarget
  -- branches
  · exact (exec_dbnz hs c o).trans (settleWord_go _ hlt htarget)
  · exact (exec_bzc hs c o).trans (settleWord_go _ hlt htarget)
  · exact (exec_jmp hs o).trans (settleWord_go _ hlt htarget)
  -- a switch that is not ready
  · obtain ⟨f, hf⟩ := exec_eq_runSwitch hi s
    rw [hf, runSwitch_of_not_ready hs]
  -- targets outside route memory, and the last word
  · rintro w pc ctr outside
      (⟨c, o, rfl, hout⟩ | ⟨c, o, rfl, hout⟩ | ⟨k, o, zero, x, rfl, hin, hctl, hx, hp, hout⟩ | ⟨hlast, hi⟩)
    · exact (exec_dbnz hs c o).trans (settleWord_go_outside _ hout)
    · exact (exec_bzc hs c o).trans (settleWord_go_outside _ hout)
    · rw [exec_branchOnControl hs, controlWord_of_word (namesControl_of hin hctl) hx hp]
      exact settleWord_go_outside _ hout
    · exact exec_at_last_word hs hlast hi
  -- an empty input, one that carries no control words, and a poisoned word
  · exact (exec_branchOnControl hs k o true).trans (congrArg _ (controlWord_of_empty (namesControl_of hin hctl) hempty _))
  · exact (exec_branchOnControl hs k o false).trans (congrArg _ (controlWord_of_empty (namesControl_of hin hctl) hempty _))
  · obtain ⟨f, hf⟩ := exec_reader hs hi (fun hc' => absurd hc' (Bool.eq_false_iff.mp hc))
    rw [hf, controlWord_of_unnamed hc]
    rfl
  · obtain ⟨f, hf⟩ := exec_reader hs hi (fun _ => hpc)
    rw [hf, controlWord_of_poisoned hc hx hp]
    rfl
  · obtain rfl | ⟨n, rfl⟩ := hi
    · exact exec_wait_of_missing hs hin
    · exact exec_drop_of_missing hs hin n

end Sys2Proof.Machine
end
